-- ==== Sys2Proof/Word.lean ====
section
/-! DEFINITION. The word types of the Vermalla (R13, R18, R54, R72) and the sparse map type that
holds numbered objects as plain data. -/

namespace Sys2Proof

/-- A general register, an address or a control register (R54). -/
abbrev Word := BitVec 64
/-- One byte of storage (R13). -/
abbrev Byte := BitVec 8
/-- An instruction word or a micro-order (R72, R94). -/
abbrev IWord := BitVec 32
/-- A vector register or an operand-queue entry: 512 bytes (R54). -/
abbrev VReg := BitVec 4096
/-- A predicate register: one bit for each 4-bit unit of a vector register (R54, R57). -/
abbrev PReg := BitVec 1024
/-- A 64-byte line of storage (R265). -/
abbrev Line := BitVec 512
/-- A register field of an instruction word (R73). -/
abbrev Reg := BitVec 5

/-- Numbered objects, sorted by number, no number twice; an object not listed has its default. -/
abbrev SMap (α : Type) := List (Nat × α)

end Sys2Proof
end

