-- ==== Sys2Proof/Syntax.lean ====
section
/-! DEFINITION. The instructions of the Vermalla as syntax: one constructor per row of
spec/opcode_table.json. Rows with a strand word (R72 to R89), rows with a micro-order word (R94, R234,
R361), and the steps and events that the device, its firmware, the host and the fabric perform, whose
operands name the object concerned and carry what comes from outside. -/

namespace Sys2Proof

/-- A format (R73): majors 0x01, 0x0A to 0x0C, 0x18, 0x1D and 0x30. -/
structure OpA where
  d : Reg
  a : Reg
  b : Reg
  ea : Bool
  eb : Bool
  deriving DecidableEq, Repr

/-- I format with a 15-bit immediate (R73, R79). -/
structure OpI where
  d : Reg
  a : Reg
  ea : Bool
  imm : BitVec 15
  deriving DecidableEq, Repr

/-- I format whose operation stands in imm[14:13], leaving 13 bits (R79). -/
structure OpI13 where
  d : Reg
  a : Reg
  ea : Bool
  imm : BitVec 13
  deriving DecidableEq, Repr

/-- I format of the shift immediates: the amount in imm[5:0] (R79). -/
structure OpSh where
  d : Reg
  a : Reg
  ea : Bool
  amt : BitVec 6
  deriving DecidableEq, Repr

/-- F format, immediate form (R73, R154). -/
structure OpF where
  d : Reg
  a : Reg
  ea : Bool
  wid : BitVec 7
  off : BitVec 6
  deriving DecidableEq, Repr

/-- F format, register form (R73, R154). -/
structure OpFR where
  d : Reg
  a : Reg
  ea : Bool
  b : Reg
  eb : Bool
  deriving DecidableEq, Repr

/-- B format (R73): the offset counts words. -/
structure OpB where
  a : Reg
  b : Reg
  ea : Bool
  eb : Bool
  off : BitVec 14
  deriving DecidableEq, Repr

/-- M format (R73, R83). -/
structure OpM where
  d : Reg
  a : Reg
  ea : Bool
  sz : BitVec 3
  scope : BitVec 3
  off : BitVec 9
  deriving DecidableEq, Repr

/-- X format (R73, R83). -/
structure OpX where
  d : Reg
  a : Reg
  b : Reg
  ea : Bool
  eb : Bool
  op : BitVec 3
  ty : BitVec 3
  scope : BitVec 3
  deriving DecidableEq, Repr

/-- V format without its function value (R73, R74). -/
structure OpV where
  vd : Reg
  va : Reg
  vb : Reg
  gp : BitVec 4
  ty : BitVec 3
  deriving DecidableEq, Repr

/-- E format without its function and q values (R73, R86). -/
structure OpE where
  h : Reg
  a : Reg
  b : Reg
  ea : Bool
  eb : Bool
  deriving DecidableEq, Repr

/-- The fields of the PQ prefix (R75). -/
structure Pre where
  k : BitVec 3
  zm : Bool
  rm : BitVec 3
  ta : Bool
  tb : Bool
  sat : Bool
  deriving DecidableEq, Repr

/-- What a vector word without a PQ acts as (R76, last case). -/
def Pre.none : Pre := ⟨0, false, 7, false, false, false⟩

/-- An agent that a float can reach (R113, R114). -/
inductive Agent where
  | strand (core : Nat)
  | vector (core : Nat)
  | table (core handle : Nat)
  | engine (core ch : Nat)
  | member (ring : Nat)
  deriving DecidableEq, Repr

/-- How a link's training ended (R476). -/
inductive Training where
  | full | half | quarter | fail
  deriving DecidableEq, Repr

/-- What one time exchange does to a die's counter (R481): a tick that advances it by 0 or by 2. -/
inductive Slew where
  | none | hold | double
  deriving DecidableEq, Repr

/-- A block with a power budget (R524). -/
inductive Block where
  | die (d : Nat) | basin | lpddr
  deriving DecidableEq, Repr

/-- A flow of operations that cross links (R478). -/
inductive FlowId where
  | window (handle : Nat)
  | ring (index : Nat)
  | dies (src dst : Nat) (path : Nat)
  deriving DecidableEq, Repr

/-- An operation of another package on an export window (R485, R490, R491); of a copy through the window, which is one
operation, the bytes `at_` and on of its `len` (R539). -/
inductive RemoteOp where
  | write (window off : Nat) (red : BitVec 2) (bytes : List Byte) (signal : Bool)
  | atom (window off : Nat) (op : BitVec 3) (wide : Bool) (operand : Word)
  | copy (window off len at_ : Nat) (bytes : List Byte)
  deriving DecidableEq, Repr

/-- What arrives at the end of a flow (R478, R480): at a fabric port an operation of an import handle of another package,
or on a path between two dies of this package one of theirs. -/
inductive Inbound where
  | window (port : Nat) (op : RemoteOp)
  | dies (path : Nat)
  deriving DecidableEq, Repr

/-- What a neighbour's ring entry holds (R502). -/
structure RingPeer where
  key : BitVec 32
  p : Nat
  pos : Nat
  prev : Nat
  next : Nat
  blen : Nat
  deriving DecidableEq, Repr

/-- An inbound ring entry (R503). -/
structure RingEntry where
  k : Nat
  key : BitVec 32
  p : Nat
  step : Nat
  bytes : List Byte
  deriving DecidableEq, Repr

/-- A ring entry as it arrives, at a fabric port (R477, R503). -/
structure RingInbound where
  port : Nat
  entry : RingEntry
  deriving DecidableEq, Repr

/-- What the boot sequence finds (R517 to R520): the boot image's choices, among them the link of the time master (a fabric
port or the host) and the management address, the test results, the width to which each link trains (full where the list
does not name it), and the alignment path of the dies to the time master with the bound of each of its links. -/
structure Boot where
  rsvg : BitVec 5
  secmap : List (BitVec 16)
  imageBad : List Nat
  clusterBad : List (Nat × Nat)
  memoryBad : List Nat
  linkBad : List Nat
  acceptances : List (Nat × Nat)
  basinBad : Bool
  time : Word
  fabid : BitVec 9
  digest : BitVec 256
  training : List (Nat × Training)
  master : Nat
  path : List (Nat × BitVec 32)
  management : Word
  deriving DecidableEq, Repr

/-- The instructions, micro-orders, steps and events of spec/opcode_table.json, in its order. -/
inductive Instr where
  /-- ADD (R147): Writes the 64-bit wrapped sum of ga and gb to gd. -/
  | add (o : OpA)
  /-- ADD_W (R147): Adds the low 32 bits of ga and gb and writes the sign-extended 32-bit sum to gd. -/
  | addW (o : OpA)
  /-- SUB (R147): Writes the 64-bit wrapped difference of ga and gb to gd. -/
  | sub (o : OpA)
  /-- SUB_W (R147): Subtracts in 32 bits and writes the sign-extended difference to gd. -/
  | subW (o : OpA)
  /-- AND (R147): Writes the bitwise AND of ga and gb to gd. -/
  | and (o : OpA)
  /-- AND_W (R147): Writes the sign-extended 32-bit AND of ga and gb to gd. -/
  | andW (o : OpA)
  /-- OR (R147): Writes the bitwise OR of ga and gb to gd. -/
  | or (o : OpA)
  /-- OR_W (R147): Writes the sign-extended 32-bit OR of ga and gb to gd. -/
  | orW (o : OpA)
  /-- XOR (R147): Writes the bitwise XOR of ga and gb to gd. -/
  | xor (o : OpA)
  /-- XOR_W (R147): Writes the sign-extended 32-bit XOR of ga and gb to gd. -/
  | xorW (o : OpA)
  /-- ANDN (R147): Writes ga AND NOT gb to gd. -/
  | andn (o : OpA)
  /-- ANDN_W (R147): Writes the sign-extended 32-bit ga AND NOT gb to gd. -/
  | andnW (o : OpA)
  /-- SHL (R147): Shifts ga left by gb[5:0] and writes the result to gd. -/
  | shl (o : OpA)
  /-- SHL_W (R147): Shifts the low word of ga left by gb[4:0] and writes it sign-extended. -/
  | shlW (o : OpA)
  /-- SHR (R147): Shifts ga right logically by gb[5:0]. -/
  | shr (o : OpA)
  /-- SHR_W (R147): Shifts the low word of ga right logically by gb[4:0] and writes it sign-extended. -/
  | shrW (o : OpA)
  /-- SAR (R147): Shifts ga right arithmetically by gb[5:0]. -/
  | sar (o : OpA)
  /-- SAR_W (R147): Shifts the low word of ga right arithmetically by gb[4:0] and writes it sign-extended. -/
  | sarW (o : OpA)
  /-- ROL (R147): Rotates ga left by gb[5:0]. -/
  | rol (o : OpA)
  /-- ROL_W (R147): Rotates the low word of ga left by gb[4:0] and writes it sign-extended. -/
  | rolW (o : OpA)
  /-- ROR (R147): Rotates ga right by gb[5:0]. -/
  | ror (o : OpA)
  /-- ROR_W (R147): Rotates the low word of ga right by gb[4:0] and writes it sign-extended. -/
  | rorW (o : OpA)
  /-- MIN (R147): Writes the signed lesser of ga and gb. -/
  | min (o : OpA)
  /-- MIN_W (R147): Writes the signed 32-bit lesser, sign-extended. -/
  | minW (o : OpA)
  /-- MAX (R147): Writes the signed greater of ga and gb. -/
  | max (o : OpA)
  /-- MAX_W (R147): Writes the signed 32-bit greater, sign-extended. -/
  | maxW (o : OpA)
  /-- MINN (R147): Writes the unsigned lesser of ga and gb. -/
  | minn (o : OpA)
  /-- MINN_W (R147): Writes the unsigned 32-bit lesser, sign-extended. -/
  | minnW (o : OpA)
  /-- MAXN (R147): Writes the unsigned greater of ga and gb. -/
  | maxn (o : OpA)
  /-- MAXN_W (R147): Writes the unsigned 32-bit greater, sign-extended. -/
  | maxnW (o : OpA)
  /-- CLZ (R148): Counts leading zero bits of ga. -/
  | clz (o : OpA)
  /-- CLZ_W (R148): Counts leading zero bits of the low word of ga. -/
  | clzW (o : OpA)
  /-- CTZ (R148): Counts trailing zero bits of ga. -/
  | ctz (o : OpA)
  /-- CTZ_W (R148): Counts trailing zero bits of the low word of ga. -/
  | ctzW (o : OpA)
  /-- POPC (R148): Counts the 1 bits of ga. -/
  | popc (o : OpA)
  /-- POPC_W (R148): Counts the 1 bits of the low word of ga. -/
  | popcW (o : OpA)
  /-- BSWAP (R148): Reverses the bytes of ga. -/
  | bswap (o : OpA)
  /-- BSWAP_W (R148): Reverses the four low bytes of ga and writes them sign-extended. -/
  | bswapW (o : OpA)
  /-- ADDI (R149): Adds a sign-extended 15-bit immediate to ga. -/
  | addi (o : OpI)
  /-- ADDI_W (R149): Adds a sign-extended immediate in 32 bits and writes the result sign-extended. -/
  | addiW (o : OpI)
  /-- ANDI (R149): ANDs ga with a sign-extended 13-bit immediate. -/
  | andi (o : OpI13)
  /-- ORI (R149): ORs ga with a sign-extended 13-bit immediate. -/
  | ori (o : OpI13)
  /-- XORI (R149): XORs ga with a sign-extended 13-bit immediate. -/
  | xori (o : OpI13)
  /-- ANDNI (R149): ANDs ga with the complement of a sign-extended immediate. -/
  | andni (o : OpI13)
  /-- SHLI (R149): Shifts ga left by an immediate amount. -/
  | shli (o : OpSh)
  /-- SHLI_W (R149): Shifts the low word left by an immediate and writes it sign-extended. -/
  | shliW (o : OpSh)
  /-- SHRI (R149): Shifts ga right logically by an immediate amount. -/
  | shri (o : OpSh)
  /-- SHRI_W (R149): Shifts the low word right logically by an immediate and writes it sign-extended. -/
  | shriW (o : OpSh)
  /-- SARI (R149): Shifts ga right arithmetically by an immediate amount. -/
  | sari (o : OpSh)
  /-- SARI_W (R149): Shifts the low word right arithmetically by an immediate and writes it sign-extended. -/
  | sariW (o : OpSh)
  /-- ROLI (R149): Rotates ga left by an immediate amount. -/
  | roli (o : OpSh)
  /-- ROLI_W (R149): Rotates the low word left by an immediate and writes it sign-extended. -/
  | roliW (o : OpSh)
  /-- RORI (R149): Rotates ga right by an immediate amount. -/
  | rori (o : OpSh)
  /-- RORI_W (R149): Rotates the low word right by an immediate and writes it sign-extended. -/
  | roriW (o : OpSh)
  /-- SLTI (R149): Writes 1 when ga is signed-less than the immediate. -/
  | slti (o : OpI13)
  /-- SLTNI (R149): Writes 1 when ga is unsigned-less than the sign-extended immediate. -/
  | sltni (o : OpI13)
  /-- SEQI (R149): Writes 1 when ga equals the immediate. -/
  | seqi (o : OpI13)
  /-- SNEI (R149): Writes 1 when ga differs from the immediate. -/
  | snei (o : OpI13)
  /-- MINI (R149): Writes the signed lesser of ga and the immediate. -/
  | mini (o : OpI13)
  /-- MAXI (R149): Writes the signed greater of ga and the immediate. -/
  | maxi (o : OpI13)
  /-- MINNI (R149): Writes the unsigned lesser of ga and the immediate. -/
  | minni (o : OpI13)
  /-- MAXNI (R149): Writes the unsigned greater of ga and the immediate. -/
  | maxni (o : OpI13)
  /-- LUI (R150): Writes imm << 43 to gd. -/
  | lui (d : Reg) (imm : BitVec 21)
  /-- BFX (R155): Extracts a signed bit field at an immediate offset and width. -/
  | bfx (o : OpF)
  /-- BFXN (R155): Extracts an unsigned bit field at an immediate offset and width. -/
  | bfxn (o : OpF)
  /-- BFI (R155): Inserts the low bits of ga into gd at an immediate offset and width. -/
  | bfi (o : OpF)
  /-- BFX_REG (R155): Extracts a signed bit field with offset and width taken from gb. -/
  | bfxReg (o : OpFR)
  /-- BFXN_REG (R155): Extracts an unsigned bit field with offset and width taken from gb. -/
  | bfxnReg (o : OpFR)
  /-- BFI_REG (R155): Inserts a bit field into gd with offset and width taken from gb. -/
  | bfiReg (o : OpFR)
  /-- MUL (R151): Writes the low 64 bits of the product of ga and gb. -/
  | mul (o : OpA)
  /-- MUL_W (R151): Writes the sign-extended low 32 bits of the 32-bit product. -/
  | mulW (o : OpA)
  /-- MULH (R151): Writes the high half of the signed product. -/
  | mulh (o : OpA)
  /-- MULH_W (R151): Writes the high 32 bits of the signed 32-bit product, sign-extended. -/
  | mulhW (o : OpA)
  /-- MULHN (R151): Writes the high half of the unsigned product. -/
  | mulhn (o : OpA)
  /-- MULHN_W (R151): Writes the high 32 bits of the unsigned 32-bit product, sign-extended. -/
  | mulhnW (o : OpA)
  /-- DIV (R152): Signed division truncated towards zero; marks gd Pending and delivers after 36 ticks. -/
  | div (o : OpA)
  /-- DIV_W (R152): Signed 32-bit division; delivers after 20 ticks. -/
  | divW (o : OpA)
  /-- DIVN (R152): Unsigned division; delivers after 36 ticks. -/
  | divn (o : OpA)
  /-- DIVN_W (R152): Unsigned 32-bit division; delivers after 20 ticks. -/
  | divnW (o : OpA)
  /-- REM (R152): Signed remainder with the dividend's sign. -/
  | rem (o : OpA)
  /-- REM_W (R152): Signed 32-bit remainder. -/
  | remW (o : OpA)
  /-- REMN (R152): Unsigned remainder. -/
  | remn (o : OpA)
  /-- REMN_W (R152): Unsigned 32-bit remainder. -/
  | remnW (o : OpA)
  /-- LEA (R158): Writes ga + (gb << s) without any address check. -/
  | lea (o : OpA) (s : BitVec 3)
  /-- SLT (R156): Writes 1 when ga is signed-less than gb. -/
  | slt (o : OpA)
  /-- SLT_W (R156): Signed 32-bit less-than compare. -/
  | sltW (o : OpA)
  /-- SLTN (R156): Writes 1 when ga is unsigned-less than gb. -/
  | sltn (o : OpA)
  /-- SLTN_W (R156): Unsigned 32-bit less-than compare. -/
  | sltnW (o : OpA)
  /-- SEQ (R156): Writes 1 when ga equals gb. -/
  | seq (o : OpA)
  /-- SEQ_W (R156): Writes 1 when the low words of ga and gb are equal. -/
  | seqW (o : OpA)
  /-- SNE (R156): Writes 1 when ga differs from gb. -/
  | sne (o : OpA)
  /-- SNE_W (R156): Writes 1 when the low words of ga and gb differ. -/
  | sneW (o : OpA)
  /-- SEL (R157): Writes ga to gd when gd is nonzero, otherwise gb. -/
  | sel (o : OpA)
  /-- BEQ (R127): Branches when ga equals gb. -/
  | beq (o : OpB)
  /-- BNE (R127): Branches when ga differs from gb. -/
  | bne (o : OpB)
  /-- BLT (R127): Branches when ga is signed-less than gb. -/
  | blt (o : OpB)
  /-- BGE (R127): Branches when ga is signed-greater or equal to gb. -/
  | bge (o : OpB)
  /-- BLTN (R127): Branches when ga is unsigned-less than gb. -/
  | bltn (o : OpB)
  /-- BGEN (R127): Branches when ga is unsigned-greater or equal to gb. -/
  | bgen (o : OpB)
  /-- J (R128): Jumps to a PC-relative target. -/
  | j (off : BitVec 26)
  /-- JAL (R128): Jumps to a PC-relative target and links in g31. -/
  | jal (off : BitVec 26)
  /-- JR (R128): Jumps to the address in ga, checked by R107. -/
  | jr (o : OpA)
  /-- JALR (R128): Jumps to ga and writes the return address to gd. -/
  | jalr (o : OpA)
  /-- LOOP (R129): Decrements ga, rotates c.VRB.BASE and branches while the count is nonzero. -/
  | loop (o : OpB)
  /-- LD (R280): Loads a sized value from scratchpad, global view or barrier line into gd. -/
  | ld (o : OpM)
  /-- ST (R281): Stores in place to a scratchpad or appends a log record for a global address. -/
  | st (o : OpM)
  /-- ATOM (R327): Performs an atomic read-modify-write at the place its address fixes and returns the old value. -/
  | atom (o : OpX)
  /-- FEMARK (R133): Makes a g or v register Idle, first waiting for a Pending producer. -/
  | femark (file : Bool) (o : OpA)
  /-- FETEST (R133): Writes 2, 1 or 0 for a Full, Pending or Idle register. -/
  | fetest (file : Bool) (o : OpA)
  /-- FEWAIT (R133): Stalls while a register is Pending and traps on an Idle one. -/
  | fewait (file : Bool) (o : OpA)
  /-- VADD (R171): Adds integer vector elements, wrapping or saturating. -/
  | vadd (o : OpV)
  /-- VSUB (R171): Subtracts integer vector elements. -/
  | vsub (o : OpV)
  /-- VMUL (R171): Multiplies integer vector elements. -/
  | vmul (o : OpV)
  /-- VMULH (R171): Writes the high half of integer element products. -/
  | vmulh (o : OpV)
  /-- VIMIN (R171): Integer elementwise minimum. -/
  | vimin (o : OpV)
  /-- VIMAX (R171): Integer elementwise maximum. -/
  | vimax (o : OpV)
  /-- VAND (R171): Bitwise AND of vector elements. -/
  | vand (o : OpV)
  /-- VOR (R171): Bitwise OR of vector elements. -/
  | vor (o : OpV)
  /-- VXOR (R171): Bitwise XOR of vector elements. -/
  | vxor (o : OpV)
  /-- VSHL (R171): Shifts vector elements left. -/
  | vshl (o : OpV)
  /-- VSHR (R171): Shifts vector elements right logically. -/
  | vshr (o : OpV)
  /-- VSAR (R171): Shifts vector elements right arithmetically. -/
  | vsar (o : OpV)
  /-- VABS (R171): Integer absolute value of vector elements. -/
  | vabs (o : OpV)
  /-- VFADD (R172): Floating-point elementwise add with rounding. -/
  | vfadd (o : OpV)
  /-- VFSUB (R172): Floating-point elementwise subtract. -/
  | vfsub (o : OpV)
  /-- VFMUL (R172): Floating-point elementwise multiply. -/
  | vfmul (o : OpV)
  /-- VFMA (R172): Fused multiply-add into vd with one rounding. -/
  | vfma (o : OpV)
  /-- VFMS (R172): Fused multiply-subtract from vd with one rounding. -/
  | vfms (o : OpV)
  /-- VDIV (R172): Floating-point elementwise divide. -/
  | vdiv (o : OpV)
  /-- VSQRT (R172): Floating-point elementwise square root. -/
  | vsqrt (o : OpV)
  /-- VMIN (R172): Floating minimum propagating NaN. -/
  | vmin (o : OpV)
  /-- VMAX (R172): Floating maximum propagating NaN. -/
  | vmax (o : OpV)
  /-- VMINN (R172): Floating minimum preferring the number. -/
  | vminn (o : OpV)
  /-- VMAXN (R172): Floating maximum preferring the number. -/
  | vmaxn (o : OpV)
  /-- VFABS (R172): Clears the sign of each float element. -/
  | vfabs (o : OpV)
  /-- VFNEG (R172): Inverts the sign of each float element. -/
  | vfneg (o : OpV)
  /-- VCVT (R173): Converts elements between types of equal width. -/
  | vcvt (o : OpV)
  /-- VCVTW (R173): Widening conversion into a register group. -/
  | vcvtw (o : OpV)
  /-- VCVTN (R173): Narrowing conversion from a register group. -/
  | vcvtn (o : OpV)
  /-- VENC4 (R174): Encodes 512 wide values into one FP4 block segment. -/
  | venc4 (o : OpV)
  /-- VDEC4 (R174): Decodes one FP4 block segment into 512 wide values. -/
  | vdec4 (o : OpV)
  /-- VMOV (R175): Copies active elements of va to vd. -/
  | vmov (o : OpV)
  /-- VSPLAT (R175): Fills active lanes from a general-register pair. -/
  | vsplat (o : OpV)
  /-- VIOTA (R175): Writes each active lane's index. -/
  | viota (o : OpV)
  /-- VGET (R175): Reads one element of va into a g register. -/
  | vget (o : OpV)
  /-- VSET (R175): Writes one element of vd from a g register. -/
  | vset (o : OpV)
  /-- VPERM (R176): Permutes va by indices in vb. -/
  | vperm (o : OpV)
  /-- VZIP (R176): Interleaves va and vb. -/
  | vzip (o : OpV)
  /-- VUNZIP (R176): De-interleaves va and vb. -/
  | vunzip (o : OpV)
  /-- VROT (R176): Rotates va by an amount from a register pair. -/
  | vrot (o : OpV)
  /-- VSLIDEUP (R176): Slides va up, filling from vb. -/
  | vslideup (o : OpV)
  /-- VSLIDEDN (R176): Slides va down, filling from vb. -/
  | vslidedn (o : OpV)
  /-- VCOMPRESS (R176): Packs active elements of va, then fills from vb. -/
  | vcompress (o : OpV)
  /-- VEXPAND (R176): Spreads consecutive elements of va over the active lanes. -/
  | vexpand (o : OpV)
  /-- VREV (R176): Reverses the element order of va. -/
  | vrev (o : OpV)
  /-- VFCMP (R177): Floating compare setting predicate bits. -/
  | vfcmp (o : OpV)
  /-- VICMP (R177): Integer compare setting predicate bits. -/
  | vicmp (o : OpV)
  /-- KAND (R178): ANDs two predicates. -/
  | kand (o : OpV)
  /-- KOR (R178): ORs two predicates. -/
  | kor (o : OpV)
  /-- KXOR (R178): XORs two predicates. -/
  | kxor (o : OpV)
  /-- KANDN (R178): ANDs a predicate with the complement of another. -/
  | kandn (o : OpV)
  /-- KNOT (R178): Complements a predicate. -/
  | knot (o : OpV)
  /-- KPOPC (R179): Counts active lanes whose predicate bit is set into a g register. -/
  | kpopc (o : OpV)
  /-- KFIRST (R179): Writes the least active lane whose predicate bit is set. -/
  | kfirst (o : OpV)
  /-- VEXP2 (R180): Correctly rounded 2^a per element. -/
  | vexp2 (o : OpV)
  /-- VLOG2 (R180): Correctly rounded log2 a per element. -/
  | vlog2 (o : OpV)
  /-- VRCP (R180): Correctly rounded reciprocal per element. -/
  | vrcp (o : OpV)
  /-- VRSQRT (R180): Correctly rounded reciprocal square root per element. -/
  | vrsqrt (o : OpV)
  /-- VTANH (R180): Correctly rounded tanh per element. -/
  | vtanh (o : OpV)
  /-- VSIGM (R180): Correctly rounded sigmoid per element. -/
  | vsigm (o : OpV)
  /-- VSUM (R181): Sends a grouped sum to the cluster's reduction tile and writes it to element 0. -/
  | vsum (o : OpV)
  /-- VSCAN (R181): Sends an inclusive grouped scan to the reduction tile. -/
  | vscan (o : OpV)
  /-- VRMAX (R182): Reduces active lanes to their maximum. -/
  | vrmax (o : OpV)
  /-- VRMIN (R182): Reduces active lanes to their minimum. -/
  | vrmin (o : OpV)
  /-- VLD (R183): Loads 512 contiguous bytes into vd. -/
  | vld (o : OpV)
  /-- VST (R183): Stores active elements of vd to 512 contiguous bytes. -/
  | vst (o : OpV)
  /-- VLDS (R183): Strided vector load, serialising. -/
  | vlds (o : OpV)
  /-- VSTS (R183): Strided vector store, serialising. -/
  | vsts (o : OpV)
  /-- VLDX (R183): Indexed vector load, serialising. -/
  | vldx (o : OpV)
  /-- VSTX (R183): Indexed vector store, serialising. -/
  | vstx (o : OpV)
  /-- QLD (R169): Appends a 512-byte Pending entry to an operand queue. -/
  | qld (o : OpV)
  /-- VLSLD (R186): Loads one word per lane from its lane-private slice. -/
  | vlsld (o : OpV)
  /-- VLSST (R186): Stores one word per lane to its lane-private slice. -/
  | vlsst (o : OpV)
  /-- PQ (R76): Prefix that supplies predicate, zeroing, rounding, policies and saturation to the following vector word, executing with it as one instruction. -/
  | pq (p : Pre) (second : IWord)
  /-- FLEASE (R212): Requests a fragment lease from the die allocator and waits for a grant or deadline. -/
  | flease (o : OpE)
  /-- FLEASE_FIX (R212): Requests a fragment lease at a fixed origin. -/
  | fleaseFix (o : OpE)
  /-- FFREE (R213): Releases a lease after removing its links and performing its table's writes. -/
  | ffree (o : OpE)
  /-- FSPLIT (R214): Splits a fragment in two once its drain rule holds. -/
  | fsplit (o : OpE)
  /-- FSPLIT_DISCARD (R214): Splits a fragment at once, discarding its bank. -/
  | fsplitDiscard (o : OpE)
  /-- FFUSE (R215): Fuses two equal adjacent fragments once the drain rule holds. -/
  | ffuse (o : OpE)
  /-- FFUSE_DISCARD (R215): Fuses two fragments at once, discarding their banks. -/
  | ffuseDiscard (o : OpE)
  /-- FCHAIN (R216): Creates a cascade link from one fragment to an adjacent one. -/
  | fchain (o : OpE)
  /-- FUNCHAIN (R216): Removes a fragment's outgoing link once it is empty. -/
  | funchain (o : OpE)
  /-- FQUERY (R217): Delivers the handle's state, links and deckle. -/
  | fquery (o : OpE)
  /-- TLOAD (R250): Loads and checks a table image, setting shadow counts from its header. -/
  | tload (o : OpE)
  /-- TLOAD_KEEP (R250): Loads a table image keeping the shadow counts. -/
  | tloadKeep (o : OpE)
  /-- TNEST (R251): Writes a shadow configuration register of a table. -/
  | tnest (o : OpE)
  /-- TGO (R254): Starts one table as FORK would. -/
  | tgo (o : OpE)
  /-- TSTOP (R255): Stops a running table after its steps in flight. -/
  | tstop (o : OpE)
  /-- TSTOP_MARK (R255): Stops a running table at its next checkpoint. -/
  | tstopMark (o : OpE)
  /-- TBASE (R252): Writes a shadow generator base. -/
  | tbase (o : OpE)
  /-- TBASE_NOW (R252): Writes a generator base that a running table takes at its next checkpoint. -/
  | tbaseNow (o : OpE)
  /-- TRESTART (R253): Sets a table's restart label to a TSTART. -/
  | trestart (o : OpE)
  /-- TSTAT (R256): Delivers the table's status word. -/
  | tstat (o : OpE)
  /-- TSTAT_IDX0 (R256): Delivers nest counters idx0 to idx3. -/
  | tstatIdx0 (o : OpE)
  /-- TSTAT_IDX4 (R256): Delivers nest counters idx4 and idx5. -/
  | tstatIdx4 (o : OpE)
  /-- TSTAT_ESEQ (R256): Delivers the table's ESEQ. -/
  | tstatEseq (o : OpE)
  /-- TSTAT_EHW (R256): Delivers the table's EHW. -/
  | tstatEhw (o : OpE)
  /-- TSTAT_CLR (R256): Delivers the status word and clears the fragment flags. -/
  | tstatClr (o : OpE)
  /-- CHOPEN (R353): Opens a copy channel with an optional watermark range. -/
  | chopen (o : OpE)
  /-- CHOPEN_RX (R353): Opens a multicast receiving channel naming a sender channel. -/
  | chopenRx (o : OpE)
  /-- CPY (R354): Checks and enqueues a timed copy command. -/
  | cpy (o : OpE) (cb : Bool) (sum : BitVec 2)
  /-- CPYM (R346): Enqueues a multicast copy to the masked receivers' buffers. -/
  | cpym (o : OpE) (sum : BitVec 2)
  /-- GTH (R347): Enqueues an indexed row gather. -/
  | gth (o : OpE) (cb : Bool) (sum : BitVec 2)
  /-- CHWM (R355): Delivers the channel watermark. -/
  | chwm (o : OpE)
  /-- CHWAIT (R356): Waits until the watermark covers an address. -/
  | chwait (o : OpE)
  /-- CHSUM (R357): Delivers RSUM. -/
  | chsum (o : OpE)
  /-- CHSUM_EXP (R357): Sets EXP and delivers RSUM. -/
  | chsumExp (o : OpE)
  /-- CHSUM_CLR (R357): Clears RSUM and delivers its old value. -/
  | chsumClr (o : OpE)
  /-- CHSUM_STAT (R357): Delivers the channel status word. -/
  | chsumStat (o : OpE)
  /-- CHSUM_SLIP (R357): Delivers the SLIP counter. -/
  | chsumSlip (o : OpE)
  /-- CHSUM_SEQ (R357): Delivers completed and enqueued sequence numbers. -/
  | chsumSeq (o : OpE)
  /-- CHCLOSE (R358): Waits for remaining commands and closes the channel. -/
  | chclose (o : OpE)
  /-- CHCLOSE_DISCARD (R358): Discards unbegun commands and closes the channel. -/
  | chcloseDiscard (o : OpE)
  /-- CBCFG (R343): Configures the channel's circular buffer and its consumers. -/
  | cbcfg (o : OpE)
  /-- CBPOP (R345): Claims filled slots or frees claimed slots for the strand. -/
  | cbpop (o : OpE)
  /-- WOPEN_EXP (R489): Exports a window over global pages or shared banks. -/
  | wopenExp (o : OpE)
  /-- WOPEN_IMP (R489): Imports a far package's window after one round trip. -/
  | wopenImp (o : OpE)
  /-- WWR (R490): Enqueues a one-sided window write or reduction. -/
  | wwr (o : OpE) (red : BitVec 2)
  /-- WWRS (R490): Enqueues a signalled window write ordered after earlier operations. -/
  | wwrs (o : OpE) (red : BitVec 2)
  /-- WATOM (R491): Sends an atomic to a window offset without a return value. -/
  | watom (o : OpE) (wide : Bool) (op : BitVec 3)
  /-- WCNT_SENT (R492): Delivers SENT of an import handle. -/
  | wcntSent (o : OpE)
  /-- WCNT_ACKD (R492): Delivers ACKD of an import handle. -/
  | wcntAckd (o : OpE)
  /-- WCNT_RCVD (R492): Delivers RCVD of an export handle. -/
  | wcntRcvd (o : OpE)
  /-- WCNT_SIG (R492): Delivers SIG of an export handle. -/
  | wcntSig (o : OpE)
  /-- WCNT_STAT (R492): Delivers the window status word. -/
  | wcntStat (o : OpE)
  /-- WWAIT_ACKD (R493): Waits until ACKD reaches a count. -/
  | wwaitAckd (o : OpE)
  /-- WWAIT_RCVD (R493): Waits until RCVD reaches a count and acquires the window. -/
  | wwaitRcvd (o : OpE)
  /-- WWAIT_SIG (R493): Waits until SIG reaches a count and acquires the window. -/
  | wwaitSig (o : OpE)
  /-- WCLOSE (R494): Closes an import or export handle after its operations settle. -/
  | wclose (o : OpE)
  /-- RNGJOIN (R510): Joins a rotation ring from a descriptor and binds a channel. -/
  | rngjoin (o : OpE)
  /-- RNGSEND (R511): Accepts the member's next own block for transmission. -/
  | rngsend (o : OpE)
  /-- RNGWAIT (R513): Waits until ARR reaches a count. -/
  | rngwait (o : OpE)
  /-- RNGWAIT_OUT (R513): Waits until OUT reaches a count. -/
  | rngwaitOut (o : OpE)
  /-- RNGWAIT_STAT (R513): Delivers the ring's status word. -/
  | rngwaitStat (o : OpE)
  /-- RNGWAIT_OWN (R513): Delivers OWN. -/
  | rngwaitOwn (o : OpE)
  /-- RNGDONE (R512): Sets the ring's round limit. -/
  | rngdone (o : OpE)
  /-- RNGLEAVE (R514): Leaves the ring, breaking it if not Done, and unbinds the channel. -/
  | rngleave (o : OpE)
  /-- MFENCE (R324): Pushes markers into named command queues and waits for them to reach the heads. -/
  | mfence (o : OpE)
  /-- PFENCE (R325): Orders performance of earlier accesses of from-paths before later ones of to-paths. -/
  | pfence (o : OpE)
  /-- REL (R307): Publishes the core's log at a scope and waits as the scope requires. -/
  | rel (scope : BitVec 3)
  /-- ACQ (R310): Acquires the named logs and optionally a window. -/
  | acq (o : OpE) (scope : BitVec 3)
  /-- ACQ_H (R310): Acquires with the home-atomics bit, raising the home floor of every line. -/
  | acqH (o : OpE) (scope : BitVec 3)
  /-- LOGQ (R311): Delivers one counter of one log. -/
  | logq (o : OpE)
  /-- BINIT (R374): Configures, reconfigures or frees a barrier cell or tag. -/
  | binit (o : OpE)
  /-- BARR (R375): Releases at the cell's scope and arrives on the cell. -/
  | barr (o : OpE)
  /-- BWAIT (R375): Waits for the recorded generation of a cell to complete. -/
  | bwait (o : OpE)
  /-- BARW (R375): Arrives and waits on a cell as one instruction. -/
  | barw (o : OpE)
  /-- BMASK (R376): Sets the mask that takes effect at the next completion. -/
  | bmask (o : OpE)
  /-- BPEND (R377): Adds a signed amount to the cell's pending-byte counter. -/
  | bpend (o : OpE)
  /-- BQ (R378): Delivers the cell's status word. -/
  | bq (o : OpE)
  /-- FORK (R130): Checks and starts every named table in one tick. -/
  | fork (o : OpE)
  /-- RDV (R131): Waits until every named table is out of running and reports faults. -/
  | rdv (o : OpE)
  /-- FPOP (R391): Takes one flume record into the own scratchpad, stealing from other dies. -/
  | fpop (o : OpE)
  /-- GRANK (R392): Delivers the strand's rank. -/
  | grank (o : OpE)
  /-- GRANK_SIZE (R392): Delivers the group size. -/
  | grankSize (o : OpE)
  /-- GRANK_NUM (R392): Delivers the group number. -/
  | grankNum (o : OpE)
  /-- GRANK_CORES (R392): Delivers the group's leaf mask on the strand's die. -/
  | grankCores (o : OpE)
  /-- GRANK_DIES (R392): Delivers the dies holding strands of the group. -/
  | grankDies (o : OpE)
  /-- GEXIT (R393): Ends the strand and its whole group with every strand Done. -/
  | gexit
  /-- NOP (R140): Has no effect. -/
  | nop
  /-- HALT (R139): Joins started tables, drains vectors, publishes the log, releases leases and ends the strand. -/
  | halt
  /-- SLEEP (R138): Waits for a wake event or a package-time deadline. -/
  | sleep (o : OpA)
  /-- TIME (R136): Writes c.PTIME at issue to gd. -/
  | time (o : OpA)
  /-- FEAT (R134): Delivers feature word n. -/
  | feat (o : OpA)
  /-- LOCQ (R135): Reports where an address lives without trapping. -/
  | locq (o : OpA)
  /-- CGET (R137): Reads a control register. -/
  | cget (o : OpA)
  /-- CSET (R137): Writes a control register. -/
  | cset (o : OpA)
  /-- SPFMT (R275): Writes the format register of the bank holding an address. -/
  | spfmt (o : OpA)
  /-- ERET (R142): Returns from an F-mode trap to c.EPC and the saved mode. -/
  | eret
  /-- SPFMTQ (R276): Delivers the format register of the bank holding an address. -/
  | spfmtq (o : OpA)
  /-- TRAP (R141): Raises cause TRAP with a code. -/
  | trap (code : BitVec 12)
  /-- SYSC (R141): Raises cause SYSC to request a firmware service. -/
  | sysc (code : BitVec 12)
  /-- BRK (R141): Raises cause BRK for a debugger. -/
  | brk (code : BitVec 12)
  /-- NOPT (R235): Micro-order idling n + 1 ticks. -/
  | nopt (n : BitVec 10)
  /-- WLD (R230): Micro-order loading weights into a plane. -/
  | wld (shape : BitVec 5) (ty : BitVec 3) (active : Bool) (gen : BitVec 2) (col : BitVec 4)
  /-- WSWAP (R235): Micro-order exchanging the standby and active planes. -/
  | wswap
  /-- MMA (R235): Micro-order multiplying A rows by the active plane into bank rows. -/
  | mma (shape : BitVec 5) (ty : BitVec 3) (acc : BitVec 2) (gen : BitVec 2) (src : BitVec 2) (brow : BitVec 8) (bcol : BitVec 4)
  /-- ACLR (R235): Micro-order clearing bank rows. -/
  | aclr (base : BitVec 9) (rows : BitVec 9)
  /-- DRAIN (R238): Micro-order reading bank rows through the epilogue to the window or cascade. -/
  | drain (gen : BitVec 2) (link : Bool) (ty : BitVec 3) (base : BitVec 9) (rows : BitVec 9)
  /-- EPI (R237): Micro-order setting the epilogue state. -/
  | epi (act : BitVec 3) (bi sc bs : Bool) (rm : BitVec 3) (sat : Bool) (thr : BitVec 8)
  /-- TSTART (R242): Micro-order tile-start marker that may record a checkpoint. -/
  | tstart
  /-- PROOF (R240): Micro-order computing a known-answer tile and comparing it with its literal word. -/
  | proof (seed : BitVec 8) (bf : Bool) (literal : IWord)
  /-- CBWAIT (R241): Micro-order waiting for and claiming filled circular-buffer slots. -/
  | cbwait (ch : BitVec 3) (n : BitVec 8)
  /-- CBFREE (R241): Micro-order marking claimed slots for release at the next checkpoint. -/
  | cbfree (ch : BitVec 3) (n : BitVec 8)
  /-- WMWAIT (R235): Micro-order waiting until a channel watermark covers an address. -/
  | wmwait (ch : BitVec 3) (gen : BitVec 2) (l : BitVec 16)
  /-- SIGB (R235): Micro-order arriving on a barrier cell for the strand. -/
  | sigb (cell : BitVec 9)
  /-- NEST (R235): Micro-order advancing a nest counter and branching. -/
  | nest (level : BitVec 3) (target : BitVec 8)
  /-- JMPT (R235): Micro-order jumping to a table word. -/
  | jmpt (target : BitVec 8)
  /-- HALTT (R235): Micro-order halting the table after earlier steps complete. -/
  | haltt
  /-- CPO (R361): Copy order enqueuing a CPY from generator addresses. -/
  | cpo (sg dg : BitVec 2) (sum : BitVec 2) (cb : Bool)
  /-- CPOT (R361): Copy order enqueuing a timed CPY. -/
  | cpot (sg dg : BitVec 2) (sum : BitVec 2) (cb : Bool)
  /-- GTO (R361): Copy order enqueuing a gather. -/
  | gto (sg dg : BitVec 2) (sum : BitVec 2) (cb : Bool) (xg : BitVec 2)
  /-- SUMCHK (R361): Copy order closing a copy-sum chain with a zero sum. -/
  | sumchk
  /-- PRODUCER_DELIVERY (R66): A Pending producer delivers its value and the destination becomes Full, or Idle on error. -/
  | producerDelivery (core n : Nat)
  /-- STALL_RELEASE (R104): A stalled strand's waiting condition is met and it resumes issue. -/
  | stallRelease (core : Nat)
  /-- TRAP_DISPOSITION (R122): Firmware decides the disposition of a trapped strand. -/
  | trapDisposition (core : Nat)
  /-- SLEEP_DEADLINE (R138): The deadline of a SLEEP in progress passes and sets the wake latch. -/
  | sleepDeadline (core : Nat)
  /-- SLEEP_WAKE (R138): A wake event ends a Sleeping strand. -/
  | sleepWake (core : Nat)
  /-- VECTOR_COMMAND_START (R160): The vector unit starts the next command in send order. -/
  | vectorCommandStart (core : Nat)
  /-- QLD_READ (R170): A QLD's read is performed and its entry becomes Full. -/
  | qldRead (core : Nat)
  /-- REDUCTION_ACCEPT (R181): The reduction tile accepts a waiting VSUM or VSCAN round-robin. -/
  | reductionAccept (cluster : Nat)
  /-- FLOAT_LAUNCH (R114): A producer blocked 4,096 ticks on a full bounded queue launches a float. -/
  | floatLaunch (agent : Agent)
  /-- FLOAT_HOP (R114): A float reaches an agent and is forwarded, discarded or returns to its origin. -/
  | floatHop (n : Nat) (dst : Agent)
  /-- TABLE_COMMAND_APPLY (R249): A queued TNEST, TBASE, TRESTART, TGO or TSTOP applies to its table. -/
  | tableCommandApply (core handle : Nat)
  /-- TABLE_REWIND (R244): A table rewinds to its checkpoint or restart label after a consumed error or restore. -/
  | tableRewind (core handle : Nat)
  /-- ALLOCATOR_ARBITRATION (R198): The die allocator grants placeable lease requests in priority order. -/
  | allocatorArbitration (die : Nat)
  /-- LEASE_GRANT (R200): A lease grant takes effect with zeroed planes and an empty bank. -/
  | leaseGrant (core : Nat)
  /-- RESERVATION (R199): A request pending 65,536 ticks becomes eligible and may receive the die's reservation. -/
  | reservation (die : Nat)
  /-- FLEASE_DEADLINE (R212): A lease request's deadline passes and it is withdrawn. -/
  | fleaseDeadline (core : Nat)
  /-- SCRUB_COMPLETE (R200): Released tiles finish 256 ticks of Scrubbing and become Free or Suspect. -/
  | scrubComplete (die : Nat)
  /-- RESHAPE_COMPLETE (R201): The drain rule holds and a waiting split, fuse or unchain completes. -/
  | reshapeComplete (core : Nat)
  /-- PUBLICATION_POINT_ARRIVAL (R293): A publication point reaches a die and becomes countable there. -/
  | publicationPointArrival (core die : Nat)
  /-- PRESS_RECORD (R294): A published record is applied or refused at its home and acknowledged. -/
  | pressRecord (core : Nat)
  /-- APPEND_RELEASE (R301): Pressing frees units and a waiting append proceeds. -/
  | appendRelease (core : Nat)
  /-- ATOM_HOME_EXECUTE (R295): A global atomic arrives at its home, presses published records and executes. -/
  | atomHomeExecute (core : Nat)
  /-- LINE_RECALL (R320): A request recalls an L1-owned line to its home. -/
  | lineRecall (line : Nat)
  /-- QUEUE_HEAD_ENTRY (R337): A channel's queue head takes a time-sorted buffer entry. -/
  | queueHeadEntry (core ch : Nat)
  /-- COMMAND_BEGIN (R338): The engine begins a command from the time-sorted buffer. -/
  | commandBegin (core ch : Nat)
  /-- COPY_LINE_TRANSFER (R340): The engine performs a command's line reads and writes. -/
  | copyLineTransfer (core ch seq : Nat)
  /-- COMMAND_COMPLETE (R348): A copy command completes and updates its copy sum and slots. -/
  | commandComplete (core ch seq : Nat)
  /-- MULTICAST_CREDIT (R346): A freed receiver slot returns a credit to the sender's counter. -/
  | multicastCredit (core ch receiver : Nat)
  /-- CHANNEL_QUEUE_APPLY (R352): A queued CHSUM, CHWM or CBCFG applies at the channel. -/
  | channelQueueApply (core ch : Nat)
  /-- ARRIVAL_COUNTED (R368): An arrival is counted at a barrier cell. -/
  | arrivalCounted (n : Nat)
  /-- CHILD_ARRIVAL (R368): A child's condition reaches its root as an arrival. -/
  | childArrival (die cell : Nat)
  /-- TAG_COMPLETE (R368): A route tag completes 48 ticks after its last child's condition. -/
  | tagComplete (tag : Nat)
  /-- ROOT_COMPLETION_DELIVERY (R368): A root cell's completion reaches a child. -/
  | rootCompletionDelivery (die cell : Nat)
  /-- GROUP_PLACEMENT (R385): A Waiting group is placed on available cores and its strands start. -/
  | groupPlacement (group : Nat)
  /-- GROUP_STARVATION_HOLD (R385): A group waiting 2^24 ticks holds back later groups of equal or lower priority. -/
  | groupStarvationHold (group : Nat)
  /-- PREEMPT_SAVE (R445): Firmware saves a whole group into save images. -/
  | preemptSave (group : Nat)
  /-- STRAND_RESTORE (R448): Firmware restores a Saved group onto its cores. -/
  | strandRestore (group : Nat)
  /-- LEASE_RECLAIM (R209): Firmware reclaims the leases of a Saved strand. -/
  | leaseReclaim (core : Nat)
  /-- WATCHDOG_EXPIRY (R443): A group without progress for WDOG ticks is killed. -/
  | watchdogExpiry (group : Nat)
  /-- DOORBELL (R423): A host write to QDB announces packets, or is dropped, or overruns the ring. -/
  | doorbell (qid : Nat) (value : Word)
  /-- QUEUE_ENABLE (R421): Setting QCFG.EN checks the configuration and enables the queue. -/
  | queueEnable (qid : Nat) (value : Word)
  /-- QUEUE_DISABLE (R433): Clearing QCFG.EN starts a queue reset. -/
  | queueDisable (qid : Nat) (value : Word)
  /-- QUEUE_RESET_COMPLETE (R434): A queue reset completes and the queue reads Disabled. -/
  | queueResetComplete (qid : Nat)
  /-- PACKET_FETCH (R432): The front end fetches a packet for one mapped slot. -/
  | packetFetch
  /-- LAUNCH (R406): A LAUNCH packet is checked and its groups become Waiting. -/
  | launch (qid : Nat)
  /-- FEED (R427): A FEED packet appends records to flumes. -/
  | feed (qid : Nat)
  /-- FEED_RECORD_APPEND (R388): A flume gains room and the next FEED record is appended, setting wake latches. -/
  | feedRecordAppend (qid : Nat)
  /-- RETIRE (R408): A RETIRE packet closes the kernel's feed. -/
  | retire (qid : Nat)
  /-- KERNEL_RETIRED (R408): The last group ends and the RETIRE completes, freeing the flumes. -/
  | kernelRetired (kernel : Nat)
  /-- COPY (R426): A COPY packet begins a copy command. -/
  | copy (qid : Nat)
  /-- SIGNAL (R426): A SIGNAL packet stores to or adds to a signal word. -/
  | signal (qid : Nat)
  /-- WAIT_ALL (R430): A WAIT_ALL packet holds until every listed signal condition holds. -/
  | waitAll (qid : Nat)
  /-- WAIT_ANY (R430): A WAIT_ANY packet holds until one listed signal condition holds. -/
  | waitAny (qid : Nat)
  /-- WAIT_EVALUATION (R430): A held WAIT packet acquires, loads its signals and applies its compares. -/
  | waitEvaluation (qid : Nat)
  /-- GRAPH (R416): A GRAPH packet takes a parameter buffer and starts a replay. -/
  | graph (qid : Nat)
  /-- GRAPH_NODE_ISSUE (R413): A ready graph node acquires and issues its packet or is skipped. -/
  | graphNodeIssue (replay node : Nat)
  /-- TIMESTAMP (R426): A TIMESTAMP packet writes c.PTIME to DEST. -/
  | timestamp (qid : Nat)
  /-- NOP_PACKET (R426): A NOP packet completes at issue. -/
  | nopPacket (qid : Nat)
  /-- PACKET_COMPLETE (R424): A packet completes: result record, signal add and MSI. -/
  | packetComplete (n : Nat)
  /-- RUN_LIST_TURN (R431): A quantum ends and firmware maps the queues of the next turn. -/
  | runListTurn
  /-- CREATE (R440): Binds the lowest free ASID to a PASID as a Live context. -/
  | create (value : Word) (secure : Bool)
  /-- KILL (R440): Kills every group of a context and resets its queues. -/
  | kill (value : Word) (secure : Bool)
  /-- DESTROY (R472): Tears down a context's PASID. -/
  | destroy (value : Word) (secure : Bool)
  /-- KILLG (R440): Kills one group of a context. -/
  | killg (value : Word) (secure : Bool)
  /-- QUANTUM (R440): Sets a context's run-list quantum. -/
  | quantum (value : Word) (secure : Bool)
  /-- WDOG (R440): Sets a context's watchdog bound. -/
  | wdog (value : Word) (secure : Bool)
  /-- READIMG (R440): Copies a Saved strand's image into the context. -/
  | readimg (value : Word) (secure : Bool)
  /-- TRESET (R440): Kills the contexts of a tenant that the path may name. -/
  | treset (value : Word) (secure : Bool)
  /-- QUERY (R440): Returns a context's state, world and tenant. -/
  | query (value : Word) (secure : Bool)
  /-- CONTEXT_TEARDOWN_COMPLETE (R472): Outstanding PASID requests return and the context becomes Free. -/
  | contextTeardownComplete (asid : Nat)
  /-- INFO (R442): SYSC service returning the context's identifiers. -/
  | info (core : Nat)
  /-- BANKGRANT (R442): SYSC service scrubbing and granting shared banks. -/
  | bankgrant (core : Nat)
  /-- BANKFREE (R442): SYSC service freeing granted banks. -/
  | bankfree (core : Nat)
  /-- CELLGRANT (R442): SYSC service granting consecutive barrier cells. -/
  | cellgrant (core : Nat)
  /-- CELLFREE (R442): SYSC service freeing barrier cells. -/
  | cellfree (core : Nat)
  /-- TAGGRANT (R442): SYSC service granting a route tag. -/
  | taggrant (core : Nat)
  /-- TAGFREE (R442): SYSC service freeing a route tag. -/
  | tagfree (core : Nat)
  /-- YIELD (R442): SYSC service ending the current run-list turn. -/
  | yield (core : Nat)
  /-- TINV_GO (R464): A write of GO starts invalidation of a virtual range. -/
  | tinvGo (asid : Nat) (value : Word)
  /-- TROOT_WRITE (R463): A write to TROOT sets the root and invalidates the whole space. -/
  | trootWrite (asid : Nat) (value : Word)
  /-- INVALIDATION_COMPLETE (R464): Pins drain and records press, and the invalidation's BUSY clears. -/
  | invalidationComplete (asid : Nat)
  /-- PRI_RESPONSE (R465): A PRI page response arrives and the walk retries or raises PAGE. -/
  | priResponse (core : Nat) (ok : Bool)
  /-- PRI_TIMEOUT (R465): A PRI request waits 4 ms and raises PAGE. -/
  | priTimeout (core : Nat)
  /-- ATS_INVALIDATE (R465): The host invalidates an ATS translation held by the device. -/
  | atsInvalidate (asid : Nat) (addr : Nat)
  /-- LINK_RESET_RELEASE (R476): Reset is released and a link begins training. -/
  | linkResetRelease (link : Nat)
  /-- LINK_TRAINING_RESULT (R476): Training ends Up, Narrow or Dead. -/
  | linkTrainingResult (link : Nat) (result : Training)
  /-- LANE_FAILURE (R476): A lane fails and the link retrains at half width. -/
  | laneFailure (link : Nat)
  /-- RETRY_TIMEOUT (R479): An unacknowledged operation's timer expires and it is resent or its flow dies. -/
  | retryTimeout (flow : FlowId) (sq : Nat)
  /-- OPERATION_ARRIVAL (R480): An operation arrives and is performed once or suppressed as a duplicate. -/
  | operationArrival (src : Nat) (target : Nat) (sq : Nat) (op : Inbound)
  /-- ACK_ARRIVAL (R479): An acknowledgement returns and the sender drops its copy. -/
  | ackArrival (flow : FlowId) (sq : Nat)
  /-- TIME_EXCHANGE (R481): The periodic time exchange runs and slews c.PTIME. -/
  | timeExchange (die : Nat) (slew : Slew) (path : Option (List (Nat × BitVec 32)))
  /-- WINDOW_OP_SEND (R490): A queued window operation reads its source and is sent. -/
  | windowOpSend (die : Nat)
  /-- RING_NEIGHBOUR_CONFIRM (R502): Neighbours confirm a joining ring entry and it becomes Live. -/
  | ringNeighbourConfirm (ring : Nat) (prev next : RingPeer)
  /-- RING_GRANT (R505): A member grants an inbound entry to its predecessor. -/
  | ringGrant (ring k : Nat) (mine : Bool)
  /-- RING_TRANSMIT (R504): A member transmits its next outbound entry under a grant. -/
  | ringTransmit (ring : Nat)
  /-- RING_ARRIVAL (R506): An inbound entry lands in its slot and fills it in order. -/
  | ringArrival (ring : Nat) (e : RingInbound)
  /-- RING_BREAK_NOTICE (R508): A break notice reaches a member and breaks its ring and bound channel. -/
  | ringBreakNotice (ring : Nat) (cause : BitVec 8)
  /-- POWER_ON (R517): Input power comes within limits and the boot stages run. -/
  | powerOn (boot : Boot)
  /-- WARM_RESET (R518): A warm reset runs the boot stages from stage 2. -/
  | warmReset (boot : Boot)
  /-- RSTCTL (R526): A keyed host write to RSTCTL starts a warm reset. -/
  | rstctl (value : Word) (boot : Boot)
  /-- BLOCK_THROTTLE (R523): A block at its budget or 95 °C slows its clock. -/
  | blockThrottle (block : Block)
  /-- THERMAL_STOP (R523): A block at 110 °C stops its clocks and a warm reset is requested. -/
  | thermalStop (block : Block)
  /-- POWER_REFRESH (R526): PWR.POWER is refreshed every 1 ms. -/
  | powerRefresh (blocks : List Nat)
  /-- PLDM_UPDATE (R525): A management firmware update is taken for the next warm reset. -/
  | pldmUpdate (digest : BitVec 256)
  /-- ATTESTATION_REQUEST (R522): The report is re-signed with the requester's nonce and returned. -/
  | attestationRequest (nonce : BitVec 256)
  /-- MANAGEMENT_RESET (R525): A management reset command starts a warm reset. -/
  | managementReset (boot : Boot)
  /-- MANAGEMENT_READING (R525): Management returns power and temperature readings. -/
  | managementReading
  /-- BAR0_NARROW_WRITE (R550): A 1-, 2- or 4-byte BAR 0 write is ignored, setting DROP on a doorbell page. -/
  | bar0NarrowWrite (offset : Nat) (size : Nat)
  /-- BAR2_ACCESS (R550): A host access to the shared-scratchpad aperture reads or writes scratchpad bytes. -/
  | bar2Access (write : Bool) (offset : Nat) (data : List Byte)
  /-- REGISTER_WRITE (R14): A host write to a register with no row of its own acts by its access code. -/
  | registerWrite (offset : Nat) (value : Word)
  /-- UNDEF_INSTRUCTION (R91): A fetched word, or PQ pair, that matches no defined encoding raises UNDEF precisely at its PC. -/
  | undefInstruction (tval : Word)
  /-- INSTRUCTION_FETCH_FAULT (R107): The fetch of the next word faults with PAGE, PROTECT, ABSENT or INTEGRITY and the strand traps at the target. -/
  | instructionFetchFault (cause : BitVec 8) (addr : Word)
  /-- DEBUGGER_RESUME (R122): A debugger attached to the context resumes a strand held Trapped for inspection at the place it names. -/
  | debuggerResume (core : Nat) (pc : Word)
  /-- FIRMWARE_TIMER (R453): A firmware core's own timer expires and posts a timer event to its event queue. -/
  | firmwareTimer (die : Nat)
  /-- ATS_TRANSLATION_COMPLETION (R465): A PCIe ATS translation completion arrives from the host and is cached, or is discarded for a dead PASID. -/
  | atsTranslationCompletion (asid : Nat) (addr : Nat) (dst : Nat)
  /-- INPUT_POWER_LOSS (R517): The 48 V input leaves its limits and the package loses power, after which only power-on restores Reset values, RWS fields included. -/
  | inputPowerLoss
  /-- THROTTLE_RECOVERY (R523): A throttled block is back within its budget and below 95 °C and resumes its full clock. -/
  | throttleRecovery (block : Block)
  deriving DecidableEq, Repr

end Sys2Proof
end

