-- ==== Sys2Proof/WellFormed.lean ====
section
/-! DEFINITION. Which instructions have a word (R74 to R90, R95, R96, R165, R166, R173 to R186, R228,
R234): the vector functions with their field rules, and `Instr.wf`, which is false for the field
values that R90 and R96 call UNDEF. A step or event without a word is always well formed. -/

namespace Sys2Proof

/-- The vector functions of majors 0x20 to 0x26 (R84). -/
inductive VOp where
  | vadd | vsub | vmul | vmulh | vimin | vimax | vand | vor | vxor | vshl | vshr | vsar | vabs
    | vfadd | vfsub | vfmul | vfma | vfms | vdiv | vsqrt | vmin | vmax | vminn | vmaxn | vfabs
    | vfneg | vcvt | vcvtw | vcvtn | venc4 | vdec4 | vmov | vsplat | viota | vget | vset | vperm
    | vzip | vunzip | vrot | vslideup | vslidedn | vcompress | vexpand | vrev | vfcmp | vicmp
    | kand | kor | kxor | kandn | knot | kpopc | kfirst | vexp2 | vlog2 | vrcp | vrsqrt | vtanh
    | vsigm | vsum | vscan | vrmax | vrmin | vld | vst | vlds | vsts | vldx | vstx | qld | vlsld
    | vlsst
  deriving DecidableEq, Repr

/-- The function that a major and fn value name (R84). -/
def VOp.ofCode (major fn : Nat) : Option VOp :=
  match major with
  | 0x20 => match fn with
    | 0 => some .vadd | 1 => some .vsub | 2 => some .vmul | 3 => some .vmulh | 4 => some .vimin
    | 5 => some .vimax | 6 => some .vand | 7 => some .vor | 8 => some .vxor | 9 => some .vshl
    | 10 => some .vshr | 11 => some .vsar | 12 => some .vabs | _ => none
  | 0x21 => match fn with
    | 0 => some .vfadd | 1 => some .vfsub | 2 => some .vfmul | 3 => some .vfma | 4 => some .vfms
    | 5 => some .vdiv | 6 => some .vsqrt | 7 => some .vmin | 8 => some .vmax | 9 => some .vminn
    | 10 => some .vmaxn | 11 => some .vfabs | 12 => some .vfneg | _ => none
  | 0x22 => match fn with
    | 0 => some .vcvt | 1 => some .vcvtw | 2 => some .vcvtn | 3 => some .venc4 | 4 => some .vdec4
    | 5 => some .vmov | 6 => some .vsplat | 7 => some .viota | 8 => some .vget | 9 => some .vset | _ => none
  | 0x23 => match fn with
    | 0 => some .vperm | 1 => some .vzip | 2 => some .vunzip | 3 => some .vrot
    | 4 => some .vslideup | 5 => some .vslidedn | 6 => some .vcompress | 7 => some .vexpand
    | 8 => some .vrev | _ => none
  | 0x24 => match fn with
    | 0 => some .vfcmp | 1 => some .vicmp | 2 => some .kand | 3 => some .kor | 4 => some .kxor
    | 5 => some .kandn | 6 => some .knot | 7 => some .kpopc | 8 => some .kfirst | _ => none
  | 0x25 => match fn with
    | 0 => some .vexp2 | 1 => some .vlog2 | 2 => some .vrcp | 3 => some .vrsqrt | 4 => some .vtanh
    | 5 => some .vsigm | 6 => some .vsum | 7 => some .vscan | 8 => some .vrmax | 9 => some .vrmin | _ => none
  | 0x26 => match fn with
    | 0 => some .vld | 1 => some .vst | 2 => some .vlds | 3 => some .vsts | 4 => some .vldx
    | 5 => some .vstx | 6 => some .qld | 7 => some .vlsld | 8 => some .vlsst | _ => none
  | _ => none

/-- The element width in bits of a type code (R74, R165). -/
def tyWidth (ty : BitVec 3) : Nat :=
  match ty.toNat with
  | 0 | 1 => 8
  | 2 | 4 | 5 => 16
  | 3 | 6 => 32
  | _ => 4

/-- A vector destination, or a vector that is both read and written (R58): v0 to v27. -/
def vdst (r : Reg) : Bool := r.toNat < 28

/-- A group of m consecutive registers (R166): a multiple of m, at most 27 - (m - 1). -/
def vgroup (m : Nat) (r : Reg) : Bool := r.toNat % m == 0 && decide (r.toNat + m ≤ 28)

/-- A field that names a predicate (R85). -/
def kfield (r : Reg) : Bool := r.toNat < 8

/-- Type codes of the integer functions. -/
def tyInt (ty : BitVec 3) : Bool := ty.toNat < 4
/-- Type codes of the floating-point functions. -/
def tyFloat (ty : BitVec 3) : Bool := ty == 4 || ty == 5 || ty == 6

/-- The pairs of VCVT (R173): equal widths, different types. -/
def sameWidth (s d : BitVec 3) : Bool := tyWidth s == tyWidth d && s != d

/-- The destination type of a conversion, in vb (R85). -/
def cvtTy (o : OpV) : BitVec 3 := o.vb.extractLsb' 0 3

/-- m of R173: how many registers the wider side of a conversion takes; 0 where the pair is UNDEF. -/
def ratio (narrow wide : BitVec 3) : Nat :=
  if tyWidth wide = 2 * tyWidth narrow then 2 else if tyWidth wide = 4 * tyWidth narrow then 4 else 0

/-- The registers of VENC4's and VDEC4's wide side (R174). -/
def wideRegs (ty : BitVec 3) : Nat := if ty = 6 then 4 else 2

/-- The registers of VSCAN's destination (R181). -/
def scanRegs (ty : BitVec 3) : Nat := 32 / tyWidth ty

/-- The shared shapes of the vector field rules (R74, R84, R85): no pair, three registers. -/
def v3 (o : OpV) (ok : Bool) : Bool := vdst o.vd && o.gp == 15 && ok
/-- A unary function (R85). -/
def v2 (o : OpV) (ok : Bool) : Bool := v3 o (o.vb == 0 && ok)
/-- A predicate operation (R178). -/
def kop (o : OpV) (ok : Bool) : Bool :=
  kfield o.vd && kfield o.va && o.gp == 15 && o.ty == 0 && ok
/-- A vector memory form (R183): a pair, va reserved, vb reserved. -/
def vmem (o : OpV) (ok : Bool) : Bool := o.va == 0 && o.vb == 0 && o.gp != 15 && ok
/-- An indexed vector memory form (R183). -/
def vmemx (o : OpV) (ok : Bool) : Bool :=
  o.va == 0 && o.gp != 15 && decide (2 ≤ o.ty.toNat) && o.ty != 7 && ok

/-- The field rules of each vector function (R74, R84, R85, R165, R166, R169, R173 to R183, R186). VROT's unused vb must be
zero, as a unary function's: DESIGN CHOICE, unsafe (log 88). -/
def VOp.fieldsOk (op : VOp) (o : OpV) : Bool :=
  match op with
  | .vadd | .vsub | .vmul | .vmulh | .vimin | .vimax => v3 o (tyInt o.ty)
  | .vand | .vor | .vxor | .vshl | .vshr | .vsar => v3 o (tyInt o.ty)
  | .vabs => v2 o (tyInt o.ty)
  | .vfadd | .vfsub | .vfmul | .vfma | .vfms | .vdiv => v3 o (tyFloat o.ty)
  | .vmin | .vmax | .vminn | .vmaxn => v3 o (tyFloat o.ty)
  | .vsqrt | .vfabs | .vfneg => v2 o (tyFloat o.ty)
  | .vcvt => v3 o (o.vb.toNat < 8 && sameWidth o.ty (cvtTy o))
  | .vcvtw => 
      o.gp == 15 && o.vb.toNat < 8 && ratio o.ty (cvtTy o) != 0 && vgroup (ratio o.ty (cvtTy o)) o.vd
  | .vcvtn => 
      v3 o (o.vb.toNat < 8 && ratio (cvtTy o) o.ty != 0 && vgroup (ratio (cvtTy o) o.ty) o.va)
  | .venc4 => v3 o (tyFloat o.ty && vgroup (wideRegs o.ty) o.va)
  | .vdec4 => o.gp == 15 && tyFloat o.ty && vgroup (wideRegs o.ty) o.vd
  | .vmov => v2 o true
  | .vsplat | .vset => vdst o.vd && o.va == 0 && o.vb == 0 && o.gp != 15
  | .viota => v2 o (o.va == 0 && o.ty != 7)
  | .vget => o.vb == 0 && o.gp != 15
  | .vperm | .vzip | .vunzip | .vcompress => v3 o true
  | .vexpand | .vrev => v2 o true
  | .vrot => vdst o.vd && o.vb == 0 && o.gp != 15
  | .vslideup | .vslidedn => vdst o.vd && o.gp != 15
  | .vfcmp => kfield o.vd && tyFloat o.ty && o.gp.toNat < 8
  | .vicmp => kfield o.vd && tyInt o.ty && o.gp.toNat < 6
  | .kand | .kor | .kxor | .kandn => kop o (kfield o.vb)
  | .knot => kop o (o.vb == 0)
  | .kpopc | .kfirst => kfield o.va && o.vb == 0 && o.gp == 15
  | .vexp2 | .vlog2 | .vrcp | .vrsqrt | .vtanh | .vsigm => v2 o (tyFloat o.ty)
  | .vsum => v2 o (o.ty == 0 || o.ty == 1 || tyFloat o.ty)
  | .vscan => 
      o.vb == 0 && o.gp == 15 && (o.ty == 0 || o.ty == 1 || tyFloat o.ty) && vgroup (scanRegs o.ty) o.vd
  | .vrmax | .vrmin => v2 o (o.ty != 7)
  | .vld | .vlds => vmem o (vdst o.vd)
  | .vst | .vsts => vmem o true
  | .vldx => vmemx o (vdst o.vd)
  | .vstx => vmemx o true
  | .qld => vmem o (decide (28 ≤ o.vd.toNat))
  | .vlsld => vmem o (vdst o.vd && (o.ty == 3 || o.ty == 6))
  | .vlsst => vmem o (o.ty == 3 || o.ty == 6)

/-- The fields of a V-format word (R73). -/
def opVOf (w : IWord) : OpV :=
  ⟨w.extractLsb' 21 5, w.extractLsb' 16 5, w.extractLsb' 11 5, w.extractLsb' 7 4, w.extractLsb' 4 3⟩

/-- The vector function and operands of a defined word of majors 0x20 to 0x26 (R84). -/
def vectorOf (w : IWord) : Option (VOp × OpV) :=
  match VOp.ofCode (w.extractLsb' 26 6).toNat (w.extractLsb' 0 4).toNat with
  | some op => if op.fieldsOk (opVOf w) then some (op, opVOf w) else none
  | none => none

/-- A word that may follow a PQ (R76). -/
def isVectorWord (w : IWord) : Bool := (vectorOf w).isSome

/-- Handles of major 0x29 (R86): 0 to 3 for fragment tables, 8 to 15 for channel tables. -/
def tableHandle (h : Reg) : Bool := h.toNat < 4 || (decide (8 ≤ h.toNat) && decide (h.toNat < 16))

/-- A register and the one above it, as CPY, CPYM and GTH name them (R352). -/
def evenPair (r : Reg) : Bool := r.toNat % 2 == 0 && r != 30

/-- The c-space number of CGET and CSET (R88). -/
def cnum (a b : Reg) : Nat := 32 * a.toNat + b.toNat

/-- The numbers that R70 lists, and the range of R71, whose numbers the mode decides. -/
def controlNumber (a b : Reg) : Bool :=
  (cnum a b ∈ [0x000, 0x001, 0x002, 0x003, 0x004, 0x008, 0x009, 0x010, 0x011, 0x012, 0x020, 0x021,
    0x030, 0x031, 0x032, 0x033, 0x034]) || (decide (0x100 ≤ cnum a b) && decide (cnum a b < 0x200))

/-- The shape list of a type (R228): every code, but for the FP4 block format only codes 16 to 31. -/
def shapeListed (ty : BitVec 3) (shape : BitVec 5) : Bool := ty != 0 || decide (16 ≤ shape.toNat)

/-- The operand values that the encoding rules allow (R74 to R90, R96, R234). In the E format a policy bit over a field that is
not a source must be zero: over a field of role D (CHWM, CHSUM, WCNT, RNGWAIT, BQ), and over a field of role 0 of major
0x2E and of FORK and RDV, no rule says so: DESIGN CHOICE, unsafe (log 87). -/
def Instr.wf (i : Instr) : Bool :=
  match i with
  | .add _ => true
  | .addW _ => true
  | .sub _ => true
  | .subW _ => true
  | .and _ => true
  | .andW _ => true
  | .or _ => true
  | .orW _ => true
  | .xor _ => true
  | .xorW _ => true
  | .andn _ => true
  | .andnW _ => true
  | .shl _ => true
  | .shlW _ => true
  | .shr _ => true
  | .shrW _ => true
  | .sar _ => true
  | .sarW _ => true
  | .rol _ => true
  | .rolW _ => true
  | .ror _ => true
  | .rorW _ => true
  | .min _ => true
  | .minW _ => true
  | .max _ => true
  | .maxW _ => true
  | .minn _ => true
  | .minnW _ => true
  | .maxn _ => true
  | .maxnW _ => true
  | .clz o => o.b == 0 && !o.eb
  | .clzW o => o.b == 0 && !o.eb
  | .ctz o => o.b == 0 && !o.eb
  | .ctzW o => o.b == 0 && !o.eb
  | .popc o => o.b == 0 && !o.eb
  | .popcW o => o.b == 0 && !o.eb
  | .bswap o => o.b == 0 && !o.eb
  | .bswapW o => o.b == 0 && !o.eb
  | .addi _ => true
  | .addiW _ => true
  | .andi _ => true
  | .ori _ => true
  | .xori _ => true
  | .andni _ => true
  | .shli _ => true
  | .shliW o => o.amt.toNat < 32
  | .shri _ => true
  | .shriW o => o.amt.toNat < 32
  | .sari _ => true
  | .sariW o => o.amt.toNat < 32
  | .roli _ => true
  | .roliW o => o.amt.toNat < 32
  | .rori _ => true
  | .roriW o => o.amt.toNat < 32
  | .slti _ => true
  | .sltni _ => true
  | .seqi _ => true
  | .snei _ => true
  | .mini _ => true
  | .maxi _ => true
  | .minni _ => true
  | .maxni _ => true
  | .lui _ _ => true
  | .bfx _ => true
  | .bfxn _ => true
  | .bfi _ => true
  | .bfxReg _ => true
  | .bfxnReg _ => true
  | .bfiReg _ => true
  | .mul _ => true
  | .mulW _ => true
  | .mulh _ => true
  | .mulhW _ => true
  | .mulhn _ => true
  | .mulhnW _ => true
  | .div _ => true
  | .divW _ => true
  | .divn _ => true
  | .divnW _ => true
  | .rem _ => true
  | .remW _ => true
  | .remn _ => true
  | .remnW _ => true
  | .lea _ _ => true
  | .slt _ => true
  | .sltW _ => true
  | .sltn _ => true
  | .sltnW _ => true
  | .seq _ => true
  | .seqW _ => true
  | .sne _ => true
  | .sneW _ => true
  | .sel _ => true
  | .beq _ => true
  | .bne _ => true
  | .blt _ => true
  | .bge _ => true
  | .bltn _ => true
  | .bgen _ => true
  | .j _ => true
  | .jal _ => true
  | .jr o => o.d == 0 && o.b == 0 && !o.eb
  | .jalr o => o.b == 0 && !o.eb
  | .loop o => o.b == 0 && !o.eb
  | .ld o => o.sz != 7 && o.scope != 7
  | .st o => o.sz.toNat < 4 && o.scope != 7
  | .atom o => o.ty.toNat < 5 && o.scope != 7 && (o.ty != 4 || !(o.op == 3 || o.op == 4 || o.op == 5))
  | .femark file o => o.a == 0 && o.b == 0 && !o.ea && !o.eb && (!file || o.d.toNat < 28)
  | .fetest file o => o.b == 0 && !o.ea && !o.eb && (!file || o.a.toNat < 28)
  | .fewait file o => o.d == 0 && o.b == 0 && !o.ea && !o.eb && (!file || o.a.toNat < 28)
  | .vadd o => VOp.fieldsOk .vadd o
  | .vsub o => VOp.fieldsOk .vsub o
  | .vmul o => VOp.fieldsOk .vmul o
  | .vmulh o => VOp.fieldsOk .vmulh o
  | .vimin o => VOp.fieldsOk .vimin o
  | .vimax o => VOp.fieldsOk .vimax o
  | .vand o => VOp.fieldsOk .vand o
  | .vor o => VOp.fieldsOk .vor o
  | .vxor o => VOp.fieldsOk .vxor o
  | .vshl o => VOp.fieldsOk .vshl o
  | .vshr o => VOp.fieldsOk .vshr o
  | .vsar o => VOp.fieldsOk .vsar o
  | .vabs o => VOp.fieldsOk .vabs o
  | .vfadd o => VOp.fieldsOk .vfadd o
  | .vfsub o => VOp.fieldsOk .vfsub o
  | .vfmul o => VOp.fieldsOk .vfmul o
  | .vfma o => VOp.fieldsOk .vfma o
  | .vfms o => VOp.fieldsOk .vfms o
  | .vdiv o => VOp.fieldsOk .vdiv o
  | .vsqrt o => VOp.fieldsOk .vsqrt o
  | .vmin o => VOp.fieldsOk .vmin o
  | .vmax o => VOp.fieldsOk .vmax o
  | .vminn o => VOp.fieldsOk .vminn o
  | .vmaxn o => VOp.fieldsOk .vmaxn o
  | .vfabs o => VOp.fieldsOk .vfabs o
  | .vfneg o => VOp.fieldsOk .vfneg o
  | .vcvt o => VOp.fieldsOk .vcvt o
  | .vcvtw o => VOp.fieldsOk .vcvtw o
  | .vcvtn o => VOp.fieldsOk .vcvtn o
  | .venc4 o => VOp.fieldsOk .venc4 o
  | .vdec4 o => VOp.fieldsOk .vdec4 o
  | .vmov o => VOp.fieldsOk .vmov o
  | .vsplat o => VOp.fieldsOk .vsplat o
  | .viota o => VOp.fieldsOk .viota o
  | .vget o => VOp.fieldsOk .vget o
  | .vset o => VOp.fieldsOk .vset o
  | .vperm o => VOp.fieldsOk .vperm o
  | .vzip o => VOp.fieldsOk .vzip o
  | .vunzip o => VOp.fieldsOk .vunzip o
  | .vrot o => VOp.fieldsOk .vrot o
  | .vslideup o => VOp.fieldsOk .vslideup o
  | .vslidedn o => VOp.fieldsOk .vslidedn o
  | .vcompress o => VOp.fieldsOk .vcompress o
  | .vexpand o => VOp.fieldsOk .vexpand o
  | .vrev o => VOp.fieldsOk .vrev o
  | .vfcmp o => VOp.fieldsOk .vfcmp o
  | .vicmp o => VOp.fieldsOk .vicmp o
  | .kand o => VOp.fieldsOk .kand o
  | .kor o => VOp.fieldsOk .kor o
  | .kxor o => VOp.fieldsOk .kxor o
  | .kandn o => VOp.fieldsOk .kandn o
  | .knot o => VOp.fieldsOk .knot o
  | .kpopc o => VOp.fieldsOk .kpopc o
  | .kfirst o => VOp.fieldsOk .kfirst o
  | .vexp2 o => VOp.fieldsOk .vexp2 o
  | .vlog2 o => VOp.fieldsOk .vlog2 o
  | .vrcp o => VOp.fieldsOk .vrcp o
  | .vrsqrt o => VOp.fieldsOk .vrsqrt o
  | .vtanh o => VOp.fieldsOk .vtanh o
  | .vsigm o => VOp.fieldsOk .vsigm o
  | .vsum o => VOp.fieldsOk .vsum o
  | .vscan o => VOp.fieldsOk .vscan o
  | .vrmax o => VOp.fieldsOk .vrmax o
  | .vrmin o => VOp.fieldsOk .vrmin o
  | .vld o => VOp.fieldsOk .vld o
  | .vst o => VOp.fieldsOk .vst o
  | .vlds o => VOp.fieldsOk .vlds o
  | .vsts o => VOp.fieldsOk .vsts o
  | .vldx o => VOp.fieldsOk .vldx o
  | .vstx o => VOp.fieldsOk .vstx o
  | .qld o => VOp.fieldsOk .qld o
  | .vlsld o => VOp.fieldsOk .vlsld o
  | .vlsst o => VOp.fieldsOk .vlsst o
  | .pq _ second => isVectorWord second
  | .flease o => o.h.toNat < 4
  | .fleaseFix o => o.h.toNat < 4
  | .ffree o => o.a == 0 && o.b == 0 && !o.ea && !o.eb && o.h.toNat < 4
  | .fsplit o => !o.eb && o.h.toNat < 4
  | .fsplitDiscard o => !o.eb && o.h.toNat < 4
  | .ffuse o => !o.eb && o.h.toNat < 4
  | .ffuseDiscard o => !o.eb && o.h.toNat < 4
  | .fchain o => o.b == 0 && !o.eb && o.h.toNat < 4
  | .funchain o => o.a == 0 && o.b == 0 && !o.ea && !o.eb && o.h.toNat < 4
  | .fquery o => o.a == 0 && !o.ea && !o.eb && o.h.toNat < 4
  | .tload o => tableHandle o.h
  | .tloadKeep o => tableHandle o.h
  | .tnest o => tableHandle o.h
  | .tgo o => o.a == 0 && o.b == 0 && !o.ea && !o.eb && tableHandle o.h
  | .tstop o => o.a == 0 && o.b == 0 && !o.ea && !o.eb && tableHandle o.h
  | .tstopMark o => o.a == 0 && o.b == 0 && !o.ea && !o.eb && tableHandle o.h
  | .tbase o => tableHandle o.h
  | .tbaseNow o => tableHandle o.h
  | .trestart o => o.b == 0 && !o.eb && tableHandle o.h
  | .tstat o => o.a == 0 && !o.ea && !o.eb && tableHandle o.h
  | .tstatIdx0 o => o.a == 0 && !o.ea && !o.eb && tableHandle o.h
  | .tstatIdx4 o => o.a == 0 && !o.ea && !o.eb && tableHandle o.h
  | .tstatEseq o => o.a == 0 && !o.ea && !o.eb && tableHandle o.h
  | .tstatEhw o => o.a == 0 && !o.ea && !o.eb && tableHandle o.h
  | .tstatClr o => o.a == 0 && !o.ea && !o.eb && tableHandle o.h
  | .chopen o => o.h.toNat < 8
  | .chopenRx o => o.h.toNat < 8
  | .cpy o _ _ => o.h.toNat < 8 && evenPair o.a && evenPair o.b
  | .cpym o _ => o.h.toNat < 8 && evenPair o.a && evenPair o.b
  | .gth o _ _ => o.h.toNat < 8 && evenPair o.a && evenPair o.b
  | .chwm o => o.a == 0 && !o.ea && !o.eb && o.h.toNat < 8
  | .chwait o => o.b == 0 && !o.eb && o.h.toNat < 8
  | .chsum o => !o.eb && o.h.toNat < 8
  | .chsumExp o => !o.eb && o.h.toNat < 8
  | .chsumClr o => !o.eb && o.h.toNat < 8
  | .chsumStat o => !o.eb && o.h.toNat < 8
  | .chsumSlip o => !o.eb && o.h.toNat < 8
  | .chsumSeq o => !o.eb && o.h.toNat < 8
  | .chclose o => o.a == 0 && o.b == 0 && !o.ea && !o.eb && o.h.toNat < 8
  | .chcloseDiscard o => o.a == 0 && o.b == 0 && !o.ea && !o.eb && o.h.toNat < 8
  | .cbcfg o => o.h.toNat < 8
  | .cbpop o => o.b == 0 && !o.eb && o.h.toNat < 8
  | .wopenExp _ => true
  | .wopenImp _ => true
  | .wwr _ _ => true
  | .wwrs _ _ => true
  | .watom _ _ op => op != 7
  | .wcntSent o => o.a == 0 && !o.ea && !o.eb
  | .wcntAckd o => o.a == 0 && !o.ea && !o.eb
  | .wcntRcvd o => o.a == 0 && !o.ea && !o.eb
  | .wcntSig o => o.a == 0 && !o.ea && !o.eb
  | .wcntStat o => o.a == 0 && !o.ea && !o.eb
  | .wwaitAckd o => o.b == 0 && !o.eb
  | .wwaitRcvd o => o.b == 0 && !o.eb
  | .wwaitSig o => o.b == 0 && !o.eb
  | .wclose o => o.a == 0 && o.b == 0 && !o.ea && !o.eb
  | .rngjoin _ => true
  | .rngsend _ => true
  | .rngwait o => !o.eb
  | .rngwaitOut o => !o.eb
  | .rngwaitStat o => !o.eb
  | .rngwaitOwn o => !o.eb
  | .rngdone o => o.b == 0 && !o.eb
  | .rngleave o => o.a == 0 && o.b == 0 && !o.ea && !o.eb
  | .mfence o => o.a == 0 && o.b == 0 && !o.ea && !o.eb
  | .pfence o => o.b == 0 && !o.ea && !o.eb
  | .rel scope => scope != 7
  | .acq o scope => o.b == 0 && !o.eb && scope != 7
  | .acqH o scope => o.b == 0 && !o.eb && scope != 7
  | .logq o => o.b == 0 && !o.eb
  | .binit _ => true
  | .barr o => o.a == 0 && o.b == 0 && !o.ea && !o.eb
  | .bwait o => o.a == 0 && o.b == 0 && !o.ea && !o.eb
  | .barw o => o.a == 0 && o.b == 0 && !o.ea && !o.eb
  | .bmask o => o.b == 0 && !o.eb
  | .bpend o => o.b == 0 && !o.eb
  | .bq o => o.a == 0 && !o.ea && !o.eb
  | .fork o => o.a == 0 && o.b == 0 && !o.ea && !o.eb
  | .rdv o => o.a == 0 && o.b == 0 && !o.ea && !o.eb
  | .fpop o => o.b == 0 && !o.eb
  | .grank o => o.a == 0 && o.b == 0 && !o.ea && !o.eb
  | .grankSize o => o.a == 0 && o.b == 0 && !o.ea && !o.eb
  | .grankNum o => o.a == 0 && o.b == 0 && !o.ea && !o.eb
  | .grankCores o => o.a == 0 && o.b == 0 && !o.ea && !o.eb
  | .grankDies o => o.a == 0 && o.b == 0 && !o.ea && !o.eb
  | .gexit => true
  | .nop => true
  | .halt => true
  | .sleep o => o.d == 0 && o.b == 0 && !o.eb
  | .time o => o.a == 0 && o.b == 0 && !o.ea && !o.eb
  | .feat o => o.a == 0 && !o.ea && !o.eb && o.b.toNat < 16
  | .locq o => o.b == 0 && !o.eb
  | .cget o => !o.ea && !o.eb && controlNumber o.a o.b
  | .cset o => !o.eb && controlNumber o.a o.b
  | .spfmt o => o.d == 0
  | .eret => true
  | .spfmtq o => o.b == 0 && !o.eb
  | .trap _ => true
  | .sysc _ => true
  | .brk _ => true
  | .nopt _ => true
  | .wld shape ty _ _ _ => shapeListed ty shape
  | .wswap => true
  | .mma shape ty acc _ src _ _ => shapeListed ty shape && acc != 3 && src != 3
  | .aclr _ _ => true
  | .drain _ _ _ _ _ => true
  | .epi act _ _ _ _ _ _ => act.toNat < 4
  | .tstart => true
  | .proof _ _ _ => true
  | .cbwait _ _ => true
  | .cbfree _ _ => true
  | .wmwait _ _ _ => true
  | .sigb _ => true
  | .nest level _ => level.toNat < 6
  | .jmpt _ => true
  | .haltt => true
  | .cpo _ _ _ _ => true
  | .cpot _ _ _ _ => true
  | .gto _ _ _ _ _ => true
  | .sumchk => true
  | .producerDelivery _ _ => true
  | .stallRelease _ => true
  | .trapDisposition _ => true
  | .sleepDeadline _ => true
  | .sleepWake _ => true
  | .vectorCommandStart _ => true
  | .qldRead _ => true
  | .reductionAccept _ => true
  | .floatLaunch _ => true
  | .floatHop _ _ => true
  | .tableCommandApply _ _ => true
  | .tableRewind _ _ => true
  | .allocatorArbitration _ => true
  | .leaseGrant _ => true
  | .reservation _ => true
  | .fleaseDeadline _ => true
  | .scrubComplete _ => true
  | .reshapeComplete _ => true
  | .publicationPointArrival _ _ => true
  | .pressRecord _ => true
  | .appendRelease _ => true
  | .atomHomeExecute _ => true
  | .lineRecall _ => true
  | .queueHeadEntry _ _ => true
  | .commandBegin _ _ => true
  | .copyLineTransfer _ _ _ => true
  | .commandComplete _ _ _ => true
  | .multicastCredit _ _ _ => true
  | .channelQueueApply _ _ => true
  | .arrivalCounted _ => true
  | .childArrival _ _ => true
  | .tagComplete _ => true
  | .rootCompletionDelivery _ _ => true
  | .groupPlacement _ => true
  | .groupStarvationHold _ => true
  | .preemptSave _ => true
  | .strandRestore _ => true
  | .leaseReclaim _ => true
  | .watchdogExpiry _ => true
  | .doorbell _ _ => true
  | .queueEnable _ _ => true
  | .queueDisable _ _ => true
  | .queueResetComplete _ => true
  | .packetFetch => true
  | .launch _ => true
  | .feed _ => true
  | .feedRecordAppend _ => true
  | .retire _ => true
  | .kernelRetired _ => true
  | .copy _ => true
  | .signal _ => true
  | .waitAll _ => true
  | .waitAny _ => true
  | .waitEvaluation _ => true
  | .graph _ => true
  | .graphNodeIssue _ _ => true
  | .timestamp _ => true
  | .nopPacket _ => true
  | .packetComplete _ => true
  | .runListTurn => true
  | .create _ _ => true
  | .kill _ _ => true
  | .destroy _ _ => true
  | .killg _ _ => true
  | .quantum _ _ => true
  | .wdog _ _ => true
  | .readimg _ _ => true
  | .treset _ _ => true
  | .query _ _ => true
  | .contextTeardownComplete _ => true
  | .info _ => true
  | .bankgrant _ => true
  | .bankfree _ => true
  | .cellgrant _ => true
  | .cellfree _ => true
  | .taggrant _ => true
  | .tagfree _ => true
  | .yield _ => true
  | .tinvGo _ _ => true
  | .trootWrite _ _ => true
  | .invalidationComplete _ => true
  | .priResponse _ _ => true
  | .priTimeout _ => true
  | .atsInvalidate _ _ => true
  | .linkResetRelease _ => true
  | .linkTrainingResult _ _ => true
  | .laneFailure _ => true
  | .retryTimeout _ _ => true
  | .operationArrival _ _ _ _ => true
  | .ackArrival _ _ => true
  | .timeExchange _ _ _ => true
  | .windowOpSend _ => true
  | .ringNeighbourConfirm _ _ _ => true
  | .ringGrant _ _ _ => true
  | .ringTransmit _ => true
  | .ringArrival _ _ => true
  | .ringBreakNotice _ _ => true
  | .powerOn _ => true
  | .warmReset _ => true
  | .rstctl _ _ => true
  | .blockThrottle _ => true
  | .thermalStop _ => true
  | .powerRefresh _ => true
  | .pldmUpdate _ => true
  | .attestationRequest _ => true
  | .managementReset _ => true
  | .managementReading => true
  | .bar0NarrowWrite _ _ => true
  | .bar2Access _ _ _ => true
  | .registerWrite _ _ => true
  | .undefInstruction _ => true
  | .instructionFetchFault _ _ => true
  | .debuggerResume _ _ => true
  | .firmwareTimer _ => true
  | .atsTranslationCompletion _ _ _ => true
  | .inputPowerLoss => true
  | .throttleRecovery _ => true

end Sys2Proof
end

