-- ==== Sys2Proof/Decode.lean ====
section
/-! DEFINITION. The encodings (R72 to R96, R234, R361): the encoder of every instruction and
micro-order that has a word, the decoder of words and of bytes, and the table-word reading of
spec/opcode_table.json. The decoder reads the operation and its fields, and then refuses every word
that is not the word of a well-formed instruction, so that a reserved field that is not zero, or a
field value outside its range, is UNDEF (R90). -/

namespace Sys2Proof

/-- One bit. -/
def bit (b : Bool) : BitVec 1 := BitVec.ofBool b

/-- A format (R73). -/
def encA (major : BitVec 6) (o : OpA) (fn : BitVec 9) : IWord :=
  major ++ o.d ++ o.a ++ o.b ++ bit o.ea ++ bit o.eb ++ fn
/-- I format (R73). -/
def encI (major : BitVec 6) (o : OpI) : IWord := major ++ o.d ++ o.a ++ bit o.ea ++ o.imm
/-- I format with its operation in imm[14:13] (R79). -/
def encI13 (major : BitVec 6) (sel : BitVec 2) (o : OpI13) : IWord :=
  major ++ o.d ++ o.a ++ bit o.ea ++ sel ++ o.imm
/-- The shift immediates (R79): operation, .w bit, reserved imm[10:6], amount. -/
def encSh (sel : BitVec 3) (w : Bool) (o : OpSh) : IWord :=
  0x05#6 ++ o.d ++ o.a ++ bit o.ea ++ sel ++ bit w ++ 0#5 ++ o.amt
/-- F format, immediate form (R73). -/
def encF (op : BitVec 2) (o : OpF) : IWord :=
  0x09#6 ++ o.d ++ o.a ++ bit o.ea ++ op ++ o.wid ++ o.off
/-- F format, register form (R73, R80). -/
def encFR (sub : BitVec 2) (o : OpFR) : IWord :=
  0x09#6 ++ o.d ++ o.a ++ bit o.ea ++ 3#2 ++ o.b ++ sub ++ bit o.eb ++ 0#5
/-- B format (R73). -/
def encB (major : BitVec 6) (o : OpB) : IWord :=
  major ++ o.a ++ o.b ++ bit o.ea ++ bit o.eb ++ o.off
/-- J format (R73). -/
def encJ (major : BitVec 6) (off : BitVec 26) : IWord := major ++ off
/-- M format (R73). -/
def encM (major : BitVec 6) (o : OpM) : IWord :=
  major ++ o.d ++ o.a ++ bit o.ea ++ o.sz ++ o.scope ++ o.off
/-- X format (R73). -/
def encX (o : OpX) : IWord :=
  0x1C#6 ++ o.d ++ o.a ++ o.b ++ bit o.ea ++ bit o.eb ++ o.op ++ o.ty ++ o.scope
/-- V format (R73). -/
def encV (major : BitVec 6) (o : OpV) (fn : BitVec 4) : IWord :=
  major ++ o.vd ++ o.va ++ o.vb ++ o.gp ++ o.ty ++ fn
/-- E format (R73). -/
def encE (major : BitVec 6) (o : OpE) (fn : BitVec 5) (q : BitVec 4) : IWord :=
  major ++ o.h ++ o.a ++ o.b ++ bit o.ea ++ bit o.eb ++ fn ++ q
/-- The PQ prefix (R75). -/
def encPq (p : Pre) : IWord :=
  0x27#6 ++ p.k ++ bit p.zm ++ p.rm ++ bit p.ta ++ bit p.tb ++ bit p.sat ++ 0#16

/-- The words of an instruction or a micro-order, in address order; none for a step or event, which
has no encoding. -/
def encode (i : Instr) : List IWord :=
  match i with
  | .add o => [encA 0x01 o 0x000]
  | .addW o => [encA 0x01 o 0x100]
  | .sub o => [encA 0x01 o 0x001]
  | .subW o => [encA 0x01 o 0x101]
  | .and o => [encA 0x01 o 0x002]
  | .andW o => [encA 0x01 o 0x102]
  | .or o => [encA 0x01 o 0x003]
  | .orW o => [encA 0x01 o 0x103]
  | .xor o => [encA 0x01 o 0x004]
  | .xorW o => [encA 0x01 o 0x104]
  | .andn o => [encA 0x01 o 0x005]
  | .andnW o => [encA 0x01 o 0x105]
  | .shl o => [encA 0x01 o 0x006]
  | .shlW o => [encA 0x01 o 0x106]
  | .shr o => [encA 0x01 o 0x007]
  | .shrW o => [encA 0x01 o 0x107]
  | .sar o => [encA 0x01 o 0x008]
  | .sarW o => [encA 0x01 o 0x108]
  | .rol o => [encA 0x01 o 0x009]
  | .rolW o => [encA 0x01 o 0x109]
  | .ror o => [encA 0x01 o 0x00A]
  | .rorW o => [encA 0x01 o 0x10A]
  | .min o => [encA 0x01 o 0x00B]
  | .minW o => [encA 0x01 o 0x10B]
  | .max o => [encA 0x01 o 0x00C]
  | .maxW o => [encA 0x01 o 0x10C]
  | .minn o => [encA 0x01 o 0x00D]
  | .minnW o => [encA 0x01 o 0x10D]
  | .maxn o => [encA 0x01 o 0x00E]
  | .maxnW o => [encA 0x01 o 0x10E]
  | .clz o => [encA 0x01 o 0x00F]
  | .clzW o => [encA 0x01 o 0x10F]
  | .ctz o => [encA 0x01 o 0x010]
  | .ctzW o => [encA 0x01 o 0x110]
  | .popc o => [encA 0x01 o 0x011]
  | .popcW o => [encA 0x01 o 0x111]
  | .bswap o => [encA 0x01 o 0x012]
  | .bswapW o => [encA 0x01 o 0x112]
  | .addi o => [encI 0x02 o]
  | .addiW o => [encI 0x03 o]
  | .andi o => [encI13 0x04 0 o]
  | .ori o => [encI13 0x04 1 o]
  | .xori o => [encI13 0x04 2 o]
  | .andni o => [encI13 0x04 3 o]
  | .shli o => [encSh 0 false o]
  | .shliW o => [encSh 0 true o]
  | .shri o => [encSh 1 false o]
  | .shriW o => [encSh 1 true o]
  | .sari o => [encSh 2 false o]
  | .sariW o => [encSh 2 true o]
  | .roli o => [encSh 3 false o]
  | .roliW o => [encSh 3 true o]
  | .rori o => [encSh 4 false o]
  | .roriW o => [encSh 4 true o]
  | .slti o => [encI13 0x06 0 o]
  | .sltni o => [encI13 0x06 1 o]
  | .seqi o => [encI13 0x06 2 o]
  | .snei o => [encI13 0x06 3 o]
  | .mini o => [encI13 0x07 0 o]
  | .maxi o => [encI13 0x07 1 o]
  | .minni o => [encI13 0x07 2 o]
  | .maxni o => [encI13 0x07 3 o]
  | .lui d imm => [0x08#6 ++ d ++ imm]
  | .bfx o => [encF 0 o]
  | .bfxn o => [encF 1 o]
  | .bfi o => [encF 2 o]
  | .bfxReg o => [encFR 0 o]
  | .bfxnReg o => [encFR 1 o]
  | .bfiReg o => [encFR 2 o]
  | .mul o => [encA 0x0A o 0x000]
  | .mulW o => [encA 0x0A o 0x100]
  | .mulh o => [encA 0x0A o 0x001]
  | .mulhW o => [encA 0x0A o 0x101]
  | .mulhn o => [encA 0x0A o 0x002]
  | .mulhnW o => [encA 0x0A o 0x102]
  | .div o => [encA 0x0A o 0x003]
  | .divW o => [encA 0x0A o 0x103]
  | .divn o => [encA 0x0A o 0x004]
  | .divnW o => [encA 0x0A o 0x104]
  | .rem o => [encA 0x0A o 0x005]
  | .remW o => [encA 0x0A o 0x105]
  | .remn o => [encA 0x0A o 0x006]
  | .remnW o => [encA 0x0A o 0x106]
  | .lea o s => [encA 0x0B o (0#6 ++ s)]
  | .slt o => [encA 0x0C o 0x000]
  | .sltW o => [encA 0x0C o 0x100]
  | .sltn o => [encA 0x0C o 0x001]
  | .sltnW o => [encA 0x0C o 0x101]
  | .seq o => [encA 0x0C o 0x002]
  | .seqW o => [encA 0x0C o 0x102]
  | .sne o => [encA 0x0C o 0x003]
  | .sneW o => [encA 0x0C o 0x103]
  | .sel o => [encA 0x0C o 0x004]
  | .beq o => [encB 0x10 o]
  | .bne o => [encB 0x11 o]
  | .blt o => [encB 0x12 o]
  | .bge o => [encB 0x13 o]
  | .bltn o => [encB 0x14 o]
  | .bgen o => [encB 0x15 o]
  | .j off => [encJ 0x16 off]
  | .jal off => [encJ 0x17 off]
  | .jr o => [encA 0x18 o 0x000]
  | .jalr o => [encA 0x18 o 0x001]
  | .loop o => [encB 0x19 o]
  | .ld o => [encM 0x1A o]
  | .st o => [encM 0x1B o]
  | .atom o => [encX o]
  | .femark file o => [encA 0x1D o (bit file ++ 0#8)]
  | .fetest file o => [encA 0x1D o (bit file ++ 1#8)]
  | .fewait file o => [encA 0x1D o (bit file ++ 2#8)]
  | .vadd o => [encV 0x20 o 0]
  | .vsub o => [encV 0x20 o 1]
  | .vmul o => [encV 0x20 o 2]
  | .vmulh o => [encV 0x20 o 3]
  | .vimin o => [encV 0x20 o 4]
  | .vimax o => [encV 0x20 o 5]
  | .vand o => [encV 0x20 o 6]
  | .vor o => [encV 0x20 o 7]
  | .vxor o => [encV 0x20 o 8]
  | .vshl o => [encV 0x20 o 9]
  | .vshr o => [encV 0x20 o 10]
  | .vsar o => [encV 0x20 o 11]
  | .vabs o => [encV 0x20 o 12]
  | .vfadd o => [encV 0x21 o 0]
  | .vfsub o => [encV 0x21 o 1]
  | .vfmul o => [encV 0x21 o 2]
  | .vfma o => [encV 0x21 o 3]
  | .vfms o => [encV 0x21 o 4]
  | .vdiv o => [encV 0x21 o 5]
  | .vsqrt o => [encV 0x21 o 6]
  | .vmin o => [encV 0x21 o 7]
  | .vmax o => [encV 0x21 o 8]
  | .vminn o => [encV 0x21 o 9]
  | .vmaxn o => [encV 0x21 o 10]
  | .vfabs o => [encV 0x21 o 11]
  | .vfneg o => [encV 0x21 o 12]
  | .vcvt o => [encV 0x22 o 0]
  | .vcvtw o => [encV 0x22 o 1]
  | .vcvtn o => [encV 0x22 o 2]
  | .venc4 o => [encV 0x22 o 3]
  | .vdec4 o => [encV 0x22 o 4]
  | .vmov o => [encV 0x22 o 5]
  | .vsplat o => [encV 0x22 o 6]
  | .viota o => [encV 0x22 o 7]
  | .vget o => [encV 0x22 o 8]
  | .vset o => [encV 0x22 o 9]
  | .vperm o => [encV 0x23 o 0]
  | .vzip o => [encV 0x23 o 1]
  | .vunzip o => [encV 0x23 o 2]
  | .vrot o => [encV 0x23 o 3]
  | .vslideup o => [encV 0x23 o 4]
  | .vslidedn o => [encV 0x23 o 5]
  | .vcompress o => [encV 0x23 o 6]
  | .vexpand o => [encV 0x23 o 7]
  | .vrev o => [encV 0x23 o 8]
  | .vfcmp o => [encV 0x24 o 0]
  | .vicmp o => [encV 0x24 o 1]
  | .kand o => [encV 0x24 o 2]
  | .kor o => [encV 0x24 o 3]
  | .kxor o => [encV 0x24 o 4]
  | .kandn o => [encV 0x24 o 5]
  | .knot o => [encV 0x24 o 6]
  | .kpopc o => [encV 0x24 o 7]
  | .kfirst o => [encV 0x24 o 8]
  | .vexp2 o => [encV 0x25 o 0]
  | .vlog2 o => [encV 0x25 o 1]
  | .vrcp o => [encV 0x25 o 2]
  | .vrsqrt o => [encV 0x25 o 3]
  | .vtanh o => [encV 0x25 o 4]
  | .vsigm o => [encV 0x25 o 5]
  | .vsum o => [encV 0x25 o 6]
  | .vscan o => [encV 0x25 o 7]
  | .vrmax o => [encV 0x25 o 8]
  | .vrmin o => [encV 0x25 o 9]
  | .vld o => [encV 0x26 o 0]
  | .vst o => [encV 0x26 o 1]
  | .vlds o => [encV 0x26 o 2]
  | .vsts o => [encV 0x26 o 3]
  | .vldx o => [encV 0x26 o 4]
  | .vstx o => [encV 0x26 o 5]
  | .qld o => [encV 0x26 o 6]
  | .vlsld o => [encV 0x26 o 7]
  | .vlsst o => [encV 0x26 o 8]
  | .pq p second => [encPq p, second]
  | .flease o => [encE 0x28 o 0 0]
  | .fleaseFix o => [encE 0x28 o 0 1]
  | .ffree o => [encE 0x28 o 1 0]
  | .fsplit o => [encE 0x28 o 2 0]
  | .fsplitDiscard o => [encE 0x28 o 2 1]
  | .ffuse o => [encE 0x28 o 3 0]
  | .ffuseDiscard o => [encE 0x28 o 3 1]
  | .fchain o => [encE 0x28 o 4 0]
  | .funchain o => [encE 0x28 o 5 0]
  | .fquery o => [encE 0x28 o 6 0]
  | .tload o => [encE 0x29 o 0 0]
  | .tloadKeep o => [encE 0x29 o 0 1]
  | .tnest o => [encE 0x29 o 1 0]
  | .tgo o => [encE 0x29 o 2 0]
  | .tstop o => [encE 0x29 o 3 0]
  | .tstopMark o => [encE 0x29 o 3 1]
  | .tbase o => [encE 0x29 o 4 0]
  | .tbaseNow o => [encE 0x29 o 4 1]
  | .trestart o => [encE 0x29 o 5 0]
  | .tstat o => [encE 0x29 o 6 0]
  | .tstatIdx0 o => [encE 0x29 o 6 1]
  | .tstatIdx4 o => [encE 0x29 o 6 2]
  | .tstatEseq o => [encE 0x29 o 6 3]
  | .tstatEhw o => [encE 0x29 o 6 4]
  | .tstatClr o => [encE 0x29 o 6 8]
  | .chopen o => [encE 0x2A o 0 0]
  | .chopenRx o => [encE 0x2A o 0 1]
  | .cpy o cb sum => [encE 0x2A o 1 (0#1 ++ bit cb ++ sum)]
  | .cpym o sum => [encE 0x2A o 2 (0#2 ++ sum)]
  | .gth o cb sum => [encE 0x2A o 3 (0#1 ++ bit cb ++ sum)]
  | .chwm o => [encE 0x2A o 4 0]
  | .chwait o => [encE 0x2A o 5 0]
  | .chsum o => [encE 0x2A o 6 0]
  | .chsumExp o => [encE 0x2A o 6 1]
  | .chsumClr o => [encE 0x2A o 6 2]
  | .chsumStat o => [encE 0x2A o 6 3]
  | .chsumSlip o => [encE 0x2A o 6 4]
  | .chsumSeq o => [encE 0x2A o 6 5]
  | .chclose o => [encE 0x2A o 7 0]
  | .chcloseDiscard o => [encE 0x2A o 7 1]
  | .cbcfg o => [encE 0x2A o 8 0]
  | .cbpop o => [encE 0x2A o 9 0]
  | .wopenExp o => [encE 0x2B o 0 0]
  | .wopenImp o => [encE 0x2B o 0 1]
  | .wwr o red => [encE 0x2B o 1 (0#2 ++ red)]
  | .wwrs o red => [encE 0x2B o 2 (0#2 ++ red)]
  | .watom o wide op => [encE 0x2B o 3 (bit wide ++ op)]
  | .wcntSent o => [encE 0x2B o 4 0]
  | .wcntAckd o => [encE 0x2B o 4 1]
  | .wcntRcvd o => [encE 0x2B o 4 2]
  | .wcntSig o => [encE 0x2B o 4 3]
  | .wcntStat o => [encE 0x2B o 4 4]
  | .wwaitAckd o => [encE 0x2B o 5 1]
  | .wwaitRcvd o => [encE 0x2B o 5 2]
  | .wwaitSig o => [encE 0x2B o 5 3]
  | .wclose o => [encE 0x2B o 6 0]
  | .rngjoin o => [encE 0x2C o 0 0]
  | .rngsend o => [encE 0x2C o 1 0]
  | .rngwait o => [encE 0x2C o 2 0]
  | .rngwaitOut o => [encE 0x2C o 2 1]
  | .rngwaitStat o => [encE 0x2C o 2 2]
  | .rngwaitOwn o => [encE 0x2C o 2 3]
  | .rngdone o => [encE 0x2C o 3 0]
  | .rngleave o => [encE 0x2C o 4 0]
  | .mfence o => [encE 0x2D o 0 0]
  | .pfence o => [encE 0x2D o 1 0]
  | .rel scope => [encE 0x2D ⟨0, 0, 0, false, false⟩ 2 (0#1 ++ scope)]
  | .acq o scope => [encE 0x2D o 3 (bit false ++ scope)]
  | .acqH o scope => [encE 0x2D o 3 (bit true ++ scope)]
  | .logq o => [encE 0x2D o 4 0]
  | .binit o => [encE 0x2E o 0 0]
  | .barr o => [encE 0x2E o 1 0]
  | .bwait o => [encE 0x2E o 2 0]
  | .barw o => [encE 0x2E o 3 0]
  | .bmask o => [encE 0x2E o 4 0]
  | .bpend o => [encE 0x2E o 5 0]
  | .bq o => [encE 0x2E o 6 0]
  | .fork o => [encE 0x2F o 0 0]
  | .rdv o => [encE 0x2F o 1 0]
  | .fpop o => [encE 0x2F o 2 0]
  | .grank o => [encE 0x2F o 3 0]
  | .grankSize o => [encE 0x2F o 3 1]
  | .grankNum o => [encE 0x2F o 3 2]
  | .grankCores o => [encE 0x2F o 3 3]
  | .grankDies o => [encE 0x2F o 3 4]
  | .gexit => [0xBC000040]
  | .nop => [0xC0000000]
  | .halt => [0xC0000001]
  | .sleep o => [encA 0x30 o 0x002]
  | .time o => [encA 0x30 o 0x003]
  | .feat o => [encA 0x30 o 0x004]
  | .locq o => [encA 0x30 o 0x005]
  | .cget o => [encA 0x30 o 0x006]
  | .cset o => [encA 0x30 o 0x007]
  | .spfmt o => [encA 0x30 o 0x008]
  | .eret => [0xC0000009]
  | .spfmtq o => [encA 0x30 o 0x00A]
  | .trap code => [0x31#6 ++ 0#11 ++ 0#3 ++ code]
  | .sysc code => [0x31#6 ++ 0#11 ++ 1#3 ++ code]
  | .brk code => [0x31#6 ++ 0#11 ++ 2#3 ++ code]
  | .nopt n => [0x01#6 ++ n ++ 0#16]
  | .wld shape ty active gen col => [0x02#6 ++ shape ++ ty ++ bit active ++ gen ++ col ++ 0#11]
  | .wswap => [0x0C000000]
  | .mma shape ty acc gen src brow bcol => [0x04#6 ++ shape ++ ty ++ acc ++ gen ++ src ++ brow ++ bcol]
  | .aclr base rows => [0x05#6 ++ base ++ rows ++ 0#8]
  | .drain gen link ty base rows => [0x06#6 ++ gen ++ bit link ++ ty ++ base ++ rows ++ 0#2]
  | .epi act bi sc bs rm sat thr => [0x07#6 ++ act ++ bit bi ++ bit sc ++ bit bs ++ rm ++ bit sat ++ thr ++ 0#8]
  | .tstart => [0x20000000]
  | .proof seed bf literal => [0x09#6 ++ seed ++ bit bf ++ 0#17, literal]
  | .cbwait ch n => [0x0A#6 ++ ch ++ n ++ 0#15]
  | .cbfree ch n => [0x0B#6 ++ ch ++ n ++ 0#15]
  | .wmwait ch gen l => [0x0C#6 ++ ch ++ gen ++ l ++ 0#5]
  | .sigb cell => [0x0D#6 ++ cell ++ 0#17]
  | .nest level target => [0x0E#6 ++ level ++ target ++ 0#15]
  | .jmpt target => [0x0F#6 ++ target ++ 0#18]
  | .haltt => [0x40000000]
  | .cpo sg dg sum cb => [0x20#6 ++ sg ++ dg ++ sum ++ bit cb ++ 0#19]
  | .cpot sg dg sum cb => [0x21#6 ++ sg ++ dg ++ sum ++ bit cb ++ 0#19]
  | .gto sg dg sum cb xg => [0x22#6 ++ sg ++ dg ++ sum ++ bit cb ++ xg ++ 0#17]
  | .sumchk => [0x8C000000]
  | .producerDelivery _ _ => []
  | .stallRelease _ => []
  | .trapDisposition _ => []
  | .sleepDeadline _ => []
  | .sleepWake _ => []
  | .vectorCommandStart _ => []
  | .qldRead _ => []
  | .reductionAccept _ => []
  | .floatLaunch _ => []
  | .floatHop _ _ => []
  | .tableCommandApply _ _ => []
  | .tableRewind _ _ => []
  | .allocatorArbitration _ => []
  | .leaseGrant _ => []
  | .reservation _ => []
  | .fleaseDeadline _ => []
  | .scrubComplete _ => []
  | .reshapeComplete _ => []
  | .publicationPointArrival _ _ => []
  | .pressRecord _ => []
  | .appendRelease _ => []
  | .atomHomeExecute _ => []
  | .lineRecall _ => []
  | .queueHeadEntry _ _ => []
  | .commandBegin _ _ => []
  | .copyLineTransfer _ _ _ => []
  | .commandComplete _ _ _ => []
  | .multicastCredit _ _ _ => []
  | .channelQueueApply _ _ => []
  | .arrivalCounted _ => []
  | .childArrival _ _ => []
  | .tagComplete _ => []
  | .rootCompletionDelivery _ _ => []
  | .groupPlacement _ => []
  | .groupStarvationHold _ => []
  | .preemptSave _ => []
  | .strandRestore _ => []
  | .leaseReclaim _ => []
  | .watchdogExpiry _ => []
  | .doorbell _ _ => []
  | .queueEnable _ _ => []
  | .queueDisable _ _ => []
  | .queueResetComplete _ => []
  | .packetFetch => []
  | .launch _ => []
  | .feed _ => []
  | .feedRecordAppend _ => []
  | .retire _ => []
  | .kernelRetired _ => []
  | .copy _ => []
  | .signal _ => []
  | .waitAll _ => []
  | .waitAny _ => []
  | .waitEvaluation _ => []
  | .graph _ => []
  | .graphNodeIssue _ _ => []
  | .timestamp _ => []
  | .nopPacket _ => []
  | .packetComplete _ => []
  | .runListTurn => []
  | .create _ _ => []
  | .kill _ _ => []
  | .destroy _ _ => []
  | .killg _ _ => []
  | .quantum _ _ => []
  | .wdog _ _ => []
  | .readimg _ _ => []
  | .treset _ _ => []
  | .query _ _ => []
  | .contextTeardownComplete _ => []
  | .info _ => []
  | .bankgrant _ => []
  | .bankfree _ => []
  | .cellgrant _ => []
  | .cellfree _ => []
  | .taggrant _ => []
  | .tagfree _ => []
  | .yield _ => []
  | .tinvGo _ _ => []
  | .trootWrite _ _ => []
  | .invalidationComplete _ => []
  | .priResponse _ _ => []
  | .priTimeout _ => []
  | .atsInvalidate _ _ => []
  | .linkResetRelease _ => []
  | .linkTrainingResult _ _ => []
  | .laneFailure _ => []
  | .retryTimeout _ _ => []
  | .operationArrival _ _ _ _ => []
  | .ackArrival _ _ => []
  | .timeExchange _ _ _ => []
  | .windowOpSend _ => []
  | .ringNeighbourConfirm _ _ _ => []
  | .ringGrant _ _ _ => []
  | .ringTransmit _ => []
  | .ringArrival _ _ => []
  | .ringBreakNotice _ _ => []
  | .powerOn _ => []
  | .warmReset _ => []
  | .rstctl _ _ => []
  | .blockThrottle _ => []
  | .thermalStop _ => []
  | .powerRefresh _ => []
  | .pldmUpdate _ => []
  | .attestationRequest _ => []
  | .managementReset _ => []
  | .managementReading => []
  | .bar0NarrowWrite _ _ => []
  | .bar2Access _ _ _ => []
  | .registerWrite _ _ => []
  | .undefInstruction _ => []
  | .instructionFetchFault _ _ => []
  | .debuggerResume _ _ => []
  | .firmwareTimer _ => []
  | .atsTranslationCompletion _ _ _ => []
  | .inputPowerLoss => []
  | .throttleRecovery _ => []

/-- The major opcode (R72). -/
def fMajor (w : IWord) : Nat := (w.extractLsb' 26 6).toNat
/-- Bits [25:21]. -/
def fD (w : IWord) : Reg := w.extractLsb' 21 5
/-- Bits [20:16]. -/
def fA (w : IWord) : Reg := w.extractLsb' 16 5
/-- Bits [15:11]. -/
def fB (w : IWord) : Reg := w.extractLsb' 11 5
/-- One bit of a word. -/
def fBit (w : IWord) (n : Nat) : Bool := w.getLsbD n

/-- The fields of the A format (R73). -/
def opAOf (w : IWord) : OpA := ⟨fD w, fA w, fB w, fBit w 10, fBit w 9⟩
/-- The fields of the I format (R73). -/
def opIOf (w : IWord) : OpI := ⟨fD w, fA w, fBit w 15, w.extractLsb' 0 15⟩
/-- The fields of the I format with a 13-bit immediate (R79). -/
def opI13Of (w : IWord) : OpI13 := ⟨fD w, fA w, fBit w 15, w.extractLsb' 0 13⟩
/-- The fields of a shift immediate (R79). -/
def opShOf (w : IWord) : OpSh := ⟨fD w, fA w, fBit w 15, w.extractLsb' 0 6⟩
/-- The fields of the F format (R73). -/
def opFOf (w : IWord) : OpF := ⟨fD w, fA w, fBit w 15, w.extractLsb' 6 7, w.extractLsb' 0 6⟩
/-- The fields of the register form of the F format (R73). -/
def opFROf (w : IWord) : OpFR := ⟨fD w, fA w, fBit w 15, w.extractLsb' 8 5, fBit w 5⟩
/-- The fields of the B format (R73). -/
def opBOf (w : IWord) : OpB := ⟨fD w, fA w, fBit w 15, fBit w 14, w.extractLsb' 0 14⟩
/-- The fields of the M format (R73). -/
def opMOf (w : IWord) : OpM :=
  ⟨fD w, fA w, fBit w 15, w.extractLsb' 12 3, w.extractLsb' 9 3, w.extractLsb' 0 9⟩
/-- The fields of the X format (R73). -/
def opXOf (w : IWord) : OpX :=
  ⟨fD w, fA w, fB w, fBit w 10, fBit w 9, w.extractLsb' 6 3, w.extractLsb' 3 3, w.extractLsb' 0 3⟩
/-- The fields of the E format (R73). -/
def opEOf (w : IWord) : OpE := ⟨fD w, fA w, fB w, fBit w 10, fBit w 9⟩
/-- The fields of the PQ prefix (R75). -/
def preOf (w : IWord) : Pre :=
  ⟨w.extractLsb' 23 3, fBit w 22, w.extractLsb' 19 3, fBit w 18, fBit w 17, fBit w 16⟩
/-- fn of the A format. -/
def fFnA (w : IWord) : Nat := (w.extractLsb' 0 9).toNat
/-- fn of the E format. -/
def fFnE (w : IWord) : Nat := (w.extractLsb' 4 5).toNat
/-- q of the E format. -/
def fQ (w : IWord) : Nat := (w.extractLsb' 0 4).toNat
/-- imm[14:13] of the I format, and op of the F format. -/
def fSel (w : IWord) : Nat := (w.extractLsb' 13 2).toNat

/-- Major 0x01 (R78). -/
def readInteger (w : IWord) : Option Instr :=
  match fFnA w with
  | 0x000 => some (.add (opAOf w))
  | 0x100 => some (.addW (opAOf w))
  | 0x001 => some (.sub (opAOf w))
  | 0x101 => some (.subW (opAOf w))
  | 0x002 => some (.and (opAOf w))
  | 0x102 => some (.andW (opAOf w))
  | 0x003 => some (.or (opAOf w))
  | 0x103 => some (.orW (opAOf w))
  | 0x004 => some (.xor (opAOf w))
  | 0x104 => some (.xorW (opAOf w))
  | 0x005 => some (.andn (opAOf w))
  | 0x105 => some (.andnW (opAOf w))
  | 0x006 => some (.shl (opAOf w))
  | 0x106 => some (.shlW (opAOf w))
  | 0x007 => some (.shr (opAOf w))
  | 0x107 => some (.shrW (opAOf w))
  | 0x008 => some (.sar (opAOf w))
  | 0x108 => some (.sarW (opAOf w))
  | 0x009 => some (.rol (opAOf w))
  | 0x109 => some (.rolW (opAOf w))
  | 0x00A => some (.ror (opAOf w))
  | 0x10A => some (.rorW (opAOf w))
  | 0x00B => some (.min (opAOf w))
  | 0x10B => some (.minW (opAOf w))
  | 0x00C => some (.max (opAOf w))
  | 0x10C => some (.maxW (opAOf w))
  | 0x00D => some (.minn (opAOf w))
  | 0x10D => some (.minnW (opAOf w))
  | 0x00E => some (.maxn (opAOf w))
  | 0x10E => some (.maxnW (opAOf w))
  | 0x00F => some (.clz (opAOf w))
  | 0x10F => some (.clzW (opAOf w))
  | 0x010 => some (.ctz (opAOf w))
  | 0x110 => some (.ctzW (opAOf w))
  | 0x011 => some (.popc (opAOf w))
  | 0x111 => some (.popcW (opAOf w))
  | 0x012 => some (.bswap (opAOf w))
  | 0x112 => some (.bswapW (opAOf w))
  | _ => none

/-- Major 0x04 (R79). -/
def readLogic (w : IWord) : Option Instr :=
  match fSel w with
  | 0 => some (.andi (opI13Of w))
  | 1 => some (.ori (opI13Of w))
  | 2 => some (.xori (opI13Of w))
  | 3 => some (.andni (opI13Of w))
  | _ => none

/-- Major 0x05 (R79): the selector and the .w bit. -/
def readShift (w : IWord) : Option Instr :=
  match (w.extractLsb' 11 4).toNat with
  | 0 => some (.shli (opShOf w))
  | 1 => some (.shliW (opShOf w))
  | 2 => some (.shri (opShOf w))
  | 3 => some (.shriW (opShOf w))
  | 4 => some (.sari (opShOf w))
  | 5 => some (.sariW (opShOf w))
  | 6 => some (.roli (opShOf w))
  | 7 => some (.roliW (opShOf w))
  | 8 => some (.rori (opShOf w))
  | 9 => some (.roriW (opShOf w))
  | _ => none

/-- Major 0x06 (R79). -/
def readCompare (w : IWord) : Option Instr :=
  match fSel w with
  | 0 => some (.slti (opI13Of w))
  | 1 => some (.sltni (opI13Of w))
  | 2 => some (.seqi (opI13Of w))
  | 3 => some (.snei (opI13Of w))
  | _ => none

/-- Major 0x07 (R79). -/
def readMinMax (w : IWord) : Option Instr :=
  match fSel w with
  | 0 => some (.mini (opI13Of w))
  | 1 => some (.maxi (opI13Of w))
  | 2 => some (.minni (opI13Of w))
  | 3 => some (.maxni (opI13Of w))
  | _ => none

/-- Major 0x09 (R80). -/
def readBitField (w : IWord) : Option Instr :=
  match fSel w with
  | 0 => some (.bfx (opFOf w))
  | 1 => some (.bfxn (opFOf w))
  | 2 => some (.bfi (opFOf w))
  | _ => match (w.extractLsb' 6 2).toNat with
    | 0 => some (.bfxReg (opFROf w))
    | 1 => some (.bfxnReg (opFROf w))
    | 2 => some (.bfiReg (opFROf w))
    | _ => none

/-- Major 0x0A (R78). -/
def readMulDiv (w : IWord) : Option Instr :=
  match fFnA w with
  | 0x000 => some (.mul (opAOf w))
  | 0x100 => some (.mulW (opAOf w))
  | 0x001 => some (.mulh (opAOf w))
  | 0x101 => some (.mulhW (opAOf w))
  | 0x002 => some (.mulhn (opAOf w))
  | 0x102 => some (.mulhnW (opAOf w))
  | 0x003 => some (.div (opAOf w))
  | 0x103 => some (.divW (opAOf w))
  | 0x004 => some (.divn (opAOf w))
  | 0x104 => some (.divnW (opAOf w))
  | 0x005 => some (.rem (opAOf w))
  | 0x105 => some (.remW (opAOf w))
  | 0x006 => some (.remn (opAOf w))
  | 0x106 => some (.remnW (opAOf w))
  | _ => none

/-- Major 0x0C (R78). -/
def readCmpSel (w : IWord) : Option Instr :=
  match fFnA w with
  | 0x000 => some (.slt (opAOf w))
  | 0x100 => some (.sltW (opAOf w))
  | 0x001 => some (.sltn (opAOf w))
  | 0x101 => some (.sltnW (opAOf w))
  | 0x002 => some (.seq (opAOf w))
  | 0x102 => some (.seqW (opAOf w))
  | 0x003 => some (.sne (opAOf w))
  | 0x103 => some (.sneW (opAOf w))
  | 0x004 => some (.sel (opAOf w))
  | _ => none

/-- Major 0x18 (R81). -/
def readJump (w : IWord) : Option Instr :=
  match fFnA w with
  | 0x000 => some (.jr (opAOf w))
  | 0x001 => some (.jalr (opAOf w))
  | _ => none

/-- Major 0x1D (R81). -/
def readFullEmpty (w : IWord) : Option Instr :=
  match (w.extractLsb' 0 8).toNat with
  | 0 => some (.femark (fBit w 8) (opAOf w))
  | 1 => some (.fetest (fBit w 8) (opAOf w))
  | 2 => some (.fewait (fBit w 8) (opAOf w))
  | _ => none

/-- The instruction that a vector function is without a PQ (R84). -/
def VOp.instr (op : VOp) (o : OpV) : Instr :=
  match op with
  | .vadd => .vadd o
  | .vsub => .vsub o
  | .vmul => .vmul o
  | .vmulh => .vmulh o
  | .vimin => .vimin o
  | .vimax => .vimax o
  | .vand => .vand o
  | .vor => .vor o
  | .vxor => .vxor o
  | .vshl => .vshl o
  | .vshr => .vshr o
  | .vsar => .vsar o
  | .vabs => .vabs o
  | .vfadd => .vfadd o
  | .vfsub => .vfsub o
  | .vfmul => .vfmul o
  | .vfma => .vfma o
  | .vfms => .vfms o
  | .vdiv => .vdiv o
  | .vsqrt => .vsqrt o
  | .vmin => .vmin o
  | .vmax => .vmax o
  | .vminn => .vminn o
  | .vmaxn => .vmaxn o
  | .vfabs => .vfabs o
  | .vfneg => .vfneg o
  | .vcvt => .vcvt o
  | .vcvtw => .vcvtw o
  | .vcvtn => .vcvtn o
  | .venc4 => .venc4 o
  | .vdec4 => .vdec4 o
  | .vmov => .vmov o
  | .vsplat => .vsplat o
  | .viota => .viota o
  | .vget => .vget o
  | .vset => .vset o
  | .vperm => .vperm o
  | .vzip => .vzip o
  | .vunzip => .vunzip o
  | .vrot => .vrot o
  | .vslideup => .vslideup o
  | .vslidedn => .vslidedn o
  | .vcompress => .vcompress o
  | .vexpand => .vexpand o
  | .vrev => .vrev o
  | .vfcmp => .vfcmp o
  | .vicmp => .vicmp o
  | .kand => .kand o
  | .kor => .kor o
  | .kxor => .kxor o
  | .kandn => .kandn o
  | .knot => .knot o
  | .kpopc => .kpopc o
  | .kfirst => .kfirst o
  | .vexp2 => .vexp2 o
  | .vlog2 => .vlog2 o
  | .vrcp => .vrcp o
  | .vrsqrt => .vrsqrt o
  | .vtanh => .vtanh o
  | .vsigm => .vsigm o
  | .vsum => .vsum o
  | .vscan => .vscan o
  | .vrmax => .vrmax o
  | .vrmin => .vrmin o
  | .vld => .vld o
  | .vst => .vst o
  | .vlds => .vlds o
  | .vsts => .vsts o
  | .vldx => .vldx o
  | .vstx => .vstx o
  | .qld => .qld o
  | .vlsld => .vlsld o
  | .vlsst => .vlsst o

/-- Majors 0x20 to 0x26 (R84). -/
def readVector (w : IWord) : Option Instr :=
  match VOp.ofCode (fMajor w) (w.extractLsb' 0 4).toNat with
  | some op => some (op.instr (opVOf w))
  | none => none

/-- Major 0x28: fragment (R86). -/
def readFragment (w : IWord) : Option Instr :=
  match fFnE w with
  | 0 => match fQ w with
    | 0 => some (.flease (opEOf w))
    | 1 => some (.fleaseFix (opEOf w))
    | _ => none
  | 1 => some (.ffree (opEOf w))
  | 2 => match fQ w with
    | 0 => some (.fsplit (opEOf w))
    | 1 => some (.fsplitDiscard (opEOf w))
    | _ => none
  | 3 => match fQ w with
    | 0 => some (.ffuse (opEOf w))
    | 1 => some (.ffuseDiscard (opEOf w))
    | _ => none
  | 4 => some (.fchain (opEOf w))
  | 5 => some (.funchain (opEOf w))
  | 6 => some (.fquery (opEOf w))
  | _ => none

/-- Major 0x29: table (R86). -/
def readTable (w : IWord) : Option Instr :=
  match fFnE w with
  | 0 => match fQ w with
    | 0 => some (.tload (opEOf w))
    | 1 => some (.tloadKeep (opEOf w))
    | _ => none
  | 1 => some (.tnest (opEOf w))
  | 2 => some (.tgo (opEOf w))
  | 3 => match fQ w with
    | 0 => some (.tstop (opEOf w))
    | 1 => some (.tstopMark (opEOf w))
    | _ => none
  | 4 => match fQ w with
    | 0 => some (.tbase (opEOf w))
    | 1 => some (.tbaseNow (opEOf w))
    | _ => none
  | 5 => some (.trestart (opEOf w))
  | 6 => match fQ w with
    | 0 => some (.tstat (opEOf w))
    | 1 => some (.tstatIdx0 (opEOf w))
    | 2 => some (.tstatIdx4 (opEOf w))
    | 3 => some (.tstatEseq (opEOf w))
    | 4 => some (.tstatEhw (opEOf w))
    | 8 => some (.tstatClr (opEOf w))
    | _ => none
  | _ => none

/-- Major 0x2A: channel (R86). -/
def readChannel (w : IWord) : Option Instr :=
  match fFnE w with
  | 0 => match fQ w with
    | 0 => some (.chopen (opEOf w))
    | 1 => some (.chopenRx (opEOf w))
    | _ => none
  | 1 => some (.cpy (opEOf w) (fBit w 2) (w.extractLsb' 0 2))
  | 2 => some (.cpym (opEOf w) (w.extractLsb' 0 2))
  | 3 => some (.gth (opEOf w) (fBit w 2) (w.extractLsb' 0 2))
  | 4 => some (.chwm (opEOf w))
  | 5 => some (.chwait (opEOf w))
  | 6 => match fQ w with
    | 0 => some (.chsum (opEOf w))
    | 1 => some (.chsumExp (opEOf w))
    | 2 => some (.chsumClr (opEOf w))
    | 3 => some (.chsumStat (opEOf w))
    | 4 => some (.chsumSlip (opEOf w))
    | 5 => some (.chsumSeq (opEOf w))
    | _ => none
  | 7 => match fQ w with
    | 0 => some (.chclose (opEOf w))
    | 1 => some (.chcloseDiscard (opEOf w))
    | _ => none
  | 8 => some (.cbcfg (opEOf w))
  | 9 => some (.cbpop (opEOf w))
  | _ => none

/-- Major 0x2B: window (R86). -/
def readWindow (w : IWord) : Option Instr :=
  match fFnE w with
  | 0 => match fQ w with
    | 0 => some (.wopenExp (opEOf w))
    | 1 => some (.wopenImp (opEOf w))
    | _ => none
  | 1 => some (.wwr (opEOf w) (w.extractLsb' 0 2))
  | 2 => some (.wwrs (opEOf w) (w.extractLsb' 0 2))
  | 3 => some (.watom (opEOf w) (fBit w 3) (w.extractLsb' 0 3))
  | 4 => match fQ w with
    | 0 => some (.wcntSent (opEOf w))
    | 1 => some (.wcntAckd (opEOf w))
    | 2 => some (.wcntRcvd (opEOf w))
    | 3 => some (.wcntSig (opEOf w))
    | 4 => some (.wcntStat (opEOf w))
    | _ => none
  | 5 => match fQ w with
    | 1 => some (.wwaitAckd (opEOf w))
    | 2 => some (.wwaitRcvd (opEOf w))
    | 3 => some (.wwaitSig (opEOf w))
    | _ => none
  | 6 => some (.wclose (opEOf w))
  | _ => none

/-- Major 0x2C: ring (R86). -/
noncomputable def readRing (w : IWord) : Option Instr :=
  match fFnE w with
  | 0 => some (.rngjoin (opEOf w))
  | 1 => some (.rngsend (opEOf w))
  | 2 => match fQ w with
    | 0 => some (.rngwait (opEOf w))
    | 1 => some (.rngwaitOut (opEOf w))
    | 2 => some (.rngwaitStat (opEOf w))
    | 3 => some (.rngwaitOwn (opEOf w))
    | _ => none
  | 3 => some (.rngdone (opEOf w))
  | 4 => some (.rngleave (opEOf w))
  | _ => none

/-- Major 0x2D: order and log (R86). -/
noncomputable def readOrder (w : IWord) : Option Instr :=
  match fFnE w with
  | 0 => some (.mfence (opEOf w))
  | 1 => some (.pfence (opEOf w))
  | 2 => some (.rel (w.extractLsb' 0 3))
  | 3 => if fBit w 3 then some (.acqH (opEOf w) (w.extractLsb' 0 3)) else some (.acq (opEOf w) (w.extractLsb' 0 3))
  | 4 => some (.logq (opEOf w))
  | _ => none

/-- Major 0x2E: barrier (R86). -/
noncomputable def readBarrier (w : IWord) : Option Instr :=
  match fFnE w with
  | 0 => some (.binit (opEOf w))
  | 1 => some (.barr (opEOf w))
  | 2 => some (.bwait (opEOf w))
  | 3 => some (.barw (opEOf w))
  | 4 => some (.bmask (opEOf w))
  | 5 => some (.bpend (opEOf w))
  | 6 => some (.bq (opEOf w))
  | _ => none

/-- Major 0x2F: fork and group (R86). -/
noncomputable def readGroup (w : IWord) : Option Instr :=
  match fFnE w with
  | 0 => some (.fork (opEOf w))
  | 1 => some (.rdv (opEOf w))
  | 2 => some (.fpop (opEOf w))
  | 3 => match fQ w with
    | 0 => some (.grank (opEOf w))
    | 1 => some (.grankSize (opEOf w))
    | 2 => some (.grankNum (opEOf w))
    | 3 => some (.grankCores (opEOf w))
    | 4 => some (.grankDies (opEOf w))
    | _ => none
  | 4 => some .gexit
  | _ => none

/-- Major 0x30 (R87). -/
noncomputable def readSystem (w : IWord) : Option Instr :=
  match fFnA w with
  | 0x000 => some .nop
  | 0x001 => some .halt
  | 0x002 => some (.sleep (opAOf w))
  | 0x003 => some (.time (opAOf w))
  | 0x004 => some (.feat (opAOf w))
  | 0x005 => some (.locq (opAOf w))
  | 0x006 => some (.cget (opAOf w))
  | 0x007 => some (.cset (opAOf w))
  | 0x008 => some (.spfmt (opAOf w))
  | 0x009 => some .eret
  | 0x00A => some (.spfmtq (opAOf w))
  | _ => none

/-- Major 0x31 (R89). -/
noncomputable def readTrap (w : IWord) : Option Instr :=
  match (w.extractLsb' 12 3).toNat with
  | 0 => some (.trap (w.extractLsb' 0 12))
  | 1 => some (.sysc (w.extractLsb' 0 12))
  | 2 => some (.brk (w.extractLsb' 0 12))
  | _ => none

/-- The instruction that a word names by its major and function values (R77), and by the word after
it where it is a PQ (R76); its fields are not checked yet. -/
noncomputable def readStrand (w second : IWord) : Option Instr :=
  match fMajor w with
  | 0x01 => readInteger w
  | 0x02 => some (.addi (opIOf w))
  | 0x03 => some (.addiW (opIOf w))
  | 0x04 => readLogic w
  | 0x05 => readShift w
  | 0x06 => readCompare w
  | 0x07 => readMinMax w
  | 0x08 => some (.lui (fD w) (w.extractLsb' 0 21))
  | 0x09 => readBitField w
  | 0x0A => readMulDiv w
  | 0x0B => some (.lea (opAOf w) (w.extractLsb' 0 3))
  | 0x0C => readCmpSel w
  | 0x10 => some (.beq (opBOf w))
  | 0x11 => some (.bne (opBOf w))
  | 0x12 => some (.blt (opBOf w))
  | 0x13 => some (.bge (opBOf w))
  | 0x14 => some (.bltn (opBOf w))
  | 0x15 => some (.bgen (opBOf w))
  | 0x16 => some (.j (w.extractLsb' 0 26))
  | 0x17 => some (.jal (w.extractLsb' 0 26))
  | 0x18 => readJump w
  | 0x19 => some (.loop (opBOf w))
  | 0x1A => some (.ld (opMOf w))
  | 0x1B => some (.st (opMOf w))
  | 0x1C => some (.atom (opXOf w))
  | 0x1D => readFullEmpty w
  | 0x20 | 0x21 | 0x22 | 0x23 | 0x24 | 0x25 | 0x26 => readVector w
  | 0x27 => some (.pq (preOf w) second)
  | 0x28 => readFragment w
  | 0x29 => readTable w
  | 0x2A => readChannel w
  | 0x2B => readWindow w
  | 0x2C => readRing w
  | 0x2D => readOrder w
  | 0x2E => readBarrier w
  | 0x2F => readGroup w
  | 0x30 => readSystem w
  | 0x31 => readTrap w
  | _ => none

/-- Why bytes are no instruction (R90). -/
inductive Reject where
  /-- Too few bytes for the word. -/
  | short
  /-- A reserved major, selector or function value (R77, R78). -/
  | unknown (w : IWord)
  /-- A field holds a value its instruction does not take, or a PQ stands before no vector word. -/
  | field (w : IWord)
  /-- A reserved field is not zero. -/
  | reserved (w : IWord)
  deriving DecidableEq, Repr

/-- A strand instruction from its word and the word after it: the words it takes must be the words
of the instruction read (R90), which must be well formed. -/
noncomputable def decodeWords (w second : IWord) : Except Reject Instr :=
  match readStrand w second with
  | none => .error (.unknown w)
  | some i =>
    if i.wf = false then .error (.field w)
    else if encode i = [w] ∨ encode i = [w, second] then .ok i else .error (.reserved w)

/-- A micro-order that a word of a matrix table names (R94, R234). -/
noncomputable def readMatrix (w literal : IWord) : Option Instr :=
  match fMajor w with
  | 0x01 => some (.nopt (w.extractLsb' 16 10))
  | 0x02 => some (.wld (w.extractLsb' 21 5) (w.extractLsb' 18 3) (fBit w 17) (w.extractLsb' 15 2)
      (w.extractLsb' 11 4))
  | 0x03 => some .wswap
  | 0x04 => some (.mma (w.extractLsb' 21 5) (w.extractLsb' 18 3) (w.extractLsb' 16 2)
      (w.extractLsb' 14 2) (w.extractLsb' 12 2) (w.extractLsb' 4 8) (w.extractLsb' 0 4))
  | 0x05 => some (.aclr (w.extractLsb' 17 9) (w.extractLsb' 8 9))
  | 0x06 => some (.drain (w.extractLsb' 24 2) (fBit w 23) (w.extractLsb' 20 3)
      (w.extractLsb' 11 9) (w.extractLsb' 2 9))
  | 0x07 => some (.epi (w.extractLsb' 23 3) (fBit w 22) (fBit w 21) (fBit w 20)
      (w.extractLsb' 17 3) (fBit w 16) (w.extractLsb' 8 8))
  | 0x08 => some .tstart
  | 0x09 => some (.proof (w.extractLsb' 18 8) (fBit w 17) literal)
  | 0x0A => some (.cbwait (w.extractLsb' 23 3) (w.extractLsb' 15 8))
  | 0x0B => some (.cbfree (w.extractLsb' 23 3) (w.extractLsb' 15 8))
  | 0x0C => some (.wmwait (w.extractLsb' 23 3) (w.extractLsb' 21 2) (w.extractLsb' 5 16))
  | 0x0D => some (.sigb (w.extractLsb' 17 9))
  | 0x0E => some (.nest (w.extractLsb' 23 3) (w.extractLsb' 15 8))
  | 0x0F => some (.jmpt (w.extractLsb' 18 8))
  | 0x10 => some .haltt
  | _ => none

/-- A micro-order that a word of a copy table names (R94, R361). -/
noncomputable def readCopy (w : IWord) : Option Instr :=
  match fMajor w with
  | 0x0D => some (.sigb (w.extractLsb' 17 9))
  | 0x0E => some (.nest (w.extractLsb' 23 3) (w.extractLsb' 15 8))
  | 0x0F => some (.jmpt (w.extractLsb' 18 8))
  | 0x10 => some .haltt
  | 0x20 => some (.cpo (w.extractLsb' 24 2) (w.extractLsb' 22 2) (w.extractLsb' 20 2) (fBit w 19))
  | 0x21 => some (.cpot (w.extractLsb' 24 2) (w.extractLsb' 22 2) (w.extractLsb' 20 2) (fBit w 19))
  | 0x22 => some (.gto (w.extractLsb' 24 2) (w.extractLsb' 22 2) (w.extractLsb' 20 2) (fBit w 19)
      (w.extractLsb' 17 2))
  | 0x23 => some .sumchk
  | _ => none

/-- A micro-order from its table word and the word after it, which is the literal of a PROOF
(R94, R96, R234). -/
noncomputable def decodeOrder (copy : Bool) (w literal : IWord) : Except Reject Instr :=
  match (if copy then readCopy w else readMatrix w literal) with
  | none => .error (.unknown w)
  | some i =>
    if i.wf = false then .error (.field w)
    else if encode i = [w] ∨ encode i = [w, literal] then .ok i else .error (.reserved w)

/-- The four bytes of a word, the least significant first (R72). -/
def wordBytes (w : IWord) : List Byte :=
  [w.extractLsb' 0 8, w.extractLsb' 8 8, w.extractLsb' 16 8, w.extractLsb' 24 8]

/-- A word from four bytes, the least significant first (R72). -/
def bytesWord (b0 b1 b2 b3 : Byte) : IWord := b3 ++ b2 ++ b1 ++ b0

/-- The instruction at the head of some bytes, and the bytes after it (R72, R76). A PQ takes the word
after it as well. -/
noncomputable def decode (bs : List Byte) : Except Reject (Instr × List Byte) :=
  match bs with
  | b0 :: b1 :: b2 :: b3 :: rest =>
    let w := bytesWord b0 b1 b2 b3
    if fMajor w = 0x27 then
      match rest with
      | c0 :: c1 :: c2 :: c3 :: rest' =>
        (decodeWords w (bytesWord c0 c1 c2 c3)).map fun i => (i, rest')
      | _ => .error .short
    else (decodeWords w 0).map fun i => (i, rest)
  | _ => .error .short

/-- The micro-orders of a matrix table (R234). -/
def Instr.isMatrix : Instr → Bool
  | .nopt _ | .wld _ _ _ _ _ | .wswap | .mma _ _ _ _ _ _ _ | .aclr _ _ | .drain _ _ _ _ _ | .epi _ _ _ _ _ _ _
  | .tstart | .proof _ _ _ | .cbwait _ _ | .cbfree _ _ | .wmwait _ _ _ | .sigb _ | .nest _ _ | .jmpt _
  | .haltt => true
  | _ => false
/-- The micro-orders of a copy table (R361). -/
def Instr.isCopy : Instr → Bool
  | .sigb _ | .nest _ _ | .jmpt _ | .haltt | .cpo _ _ _ _ | .cpot _ _ _ _ | .gto _ _ _ _ _ | .sumchk => true
  | _ => false
/-- The instructions of a strand: those with a word that are no micro-order (R72, R94). -/
def Instr.isStrand (i : Instr) : Bool := !(encode i).isEmpty && !i.isMatrix && !i.isCopy

/-- The bytes of an instruction: its words in address order (R72). -/
def encodeBytes (i : Instr) : List Byte := (encode i).flatMap wordBytes

/-- How spec/opcode_table.json numbers an instruction's bits: bit 0 is bit 0 of the first word, and
bit 32 is bit 0 of the second. The bits above nbits are zero. A word that is a strand word is read
as one; the other words are read as micro-orders, whose code space is their own (R94), the matrix
map first. -/
noncomputable def decodeTableWord (nbits w : Nat) : Option Instr :=
  let v := w % 2 ^ nbits
  let first : IWord := BitVec.ofNat 32 v
  let second : IWord := BitVec.ofNat 32 (v / 2 ^ 32)
  match decode (wordBytes first ++ wordBytes second) with
  | .ok (i, _) => some i
  | .error _ =>
    match decodeOrder false first second with
    | .ok i => some i
    | .error _ =>
      match decodeOrder true first second with
      | .ok i => some i
      | .error _ => none

end Sys2Proof
end

