-- ==== Sys2Proof/Config.lean ====
section
/-! DEFINITION. What the package fixes (R2, R259, R285, R458) and the free values: constants without a
body, so that nothing can evaluate them. -/

namespace Sys2Proof

namespace Config

/-- Compute dies (R2). -/
def dies : Nat := 6
/-- Core places, 64 on each die (R144). -/
def cores : Nat := 384
/-- Units of one log (R285). -/
def logUnits : Nat := 262144
/-- Pressure threshold of a log, in units (R300). -/
def logPressure : Nat := 196608
/-- Bytes of a core scratchpad (R259). -/
def spBytes : Nat := 2 ^ 21
/-- Bytes of the shared scratchpad: 384 banks of 1 MiB (R259). -/
def sharedBytes : Nat := 384 * 2 ^ 20
/-- Bytes of the barrier window's extent (R363). -/
def barrierBytes : Nat := 0x30200
/-- Entries of a core TLB (R460). -/
def tlbEntries : Nat := 256
/-- Ticks a blocked producer waits before it launches a float (R114). -/
def floatTicks : Nat := 4096

/-- The element that an MMA reads from a weight cell that a WLD of another type wrote: a value the spec
does not state (log 6). The arguments are the type that wrote the cell, the type that reads it, the number
of elements, and the element's place. -/
opaque foreignWeight : Nat → Nat → Nat → Nat → BitVec 32

/-- Bytes of the SLH-DSA-SHAKE-256s public key of a die, by die and place (R522; log 42). -/
opaque dieKeyByte : Nat → Nat → Byte

/-- Bytes of the signature under a public key (R8, R522), by the key's bytes, the signed bytes, the state's counter of free
values (a signature may be randomised), and place; the rules name FIPS 205 and do not restate it (log 42). -/
opaque signatureByte : List Byte → List Byte → Nat → Nat → Byte

/-- A value numbered by the state's counter of free values (log 4). -/
opaque freeWord : Nat → Word

end Config

end Sys2Proof
end

