-- ==== Sys2Proof/Machine/State.lean ====
section
/-! DEFINITION. The state of the Vermalla: one package with its six dies, as plain data (R2, R54), the
reasons a step can stop, and the state after reset. A numbered object that no entry of its map lists
is at its reset value. -/

namespace Sys2Proof.Machine

/-- Why the machine stops with a fault. -/
inductive Fault where
  /-- An event names an object that the package does not have: a die of 6 or above, a core of 384 or
  above, a link, queue, context, kernel or group that is not there. Raised by the events; safe: no
  such event can happen. -/
  | noSuchObject
  deriving DecidableEq, Repr

/-- Why an instruction has no meaning here. -/
inductive Refusal where
  /-- The arm of an instruction that the model has not reached; safe. -/
  | notModelled (mnemonic : String)
  deriving DecidableEq, Repr

/-- The result of a meaning or of a step. -/
abbrev Result (σ : Type) := Host.Outcome σ Fault Refusal

/-- A trap cause (R116). -/
abbrev Cause := BitVec 8

/-- Full, Pending or Idle (R63). -/
inductive FE where
  | full | pending | idle
  deriving DecidableEq, Repr

/-- The states of R103, and `absent` for a core that holds no strand. -/
inductive StrandSt where
  | absent | placed | running | stalled | sleeping | trapped | halting | saved | done | killed
  deriving DecidableEq, Repr

/-- A key of the store log (R288). -/
structure Key where
  time : Nat
  core : Nat
  deriving DecidableEq, Repr

/-- One line of a record (R286). -/
structure Part where
  line : Nat
  mask : BitVec 64
  data : Line
  deriving DecidableEq, Repr

/-- A record of a log that is not yet pressed or discarded (R286, R287, R303): `poison` is the outcome with which
its contents read back, where they do: true INTEGRITY, false MEDIA. -/
structure Rec where
  idx : Nat
  units : Nat
  parts : List Part
  key : Key
  asid : Option Nat
  group : Option Nat
  poison : Option Bool
  badHeader : Bool
  deriving DecidableEq, Repr

/-- A publication point on its way: the number of its publication, and the dies it has reached (R293). -/
structure Point where
  num : Nat
  pub : Nat
  stamp : Key
  tick : Nat
  reached : List Nat
  deriving DecidableEq, Repr

/-- A core's log (R285, R287, R292, R293). `pubs` counts its publications; `past` lists what it has pressed, by
index, line and tick (R298); `held` says that a write of the front end waits for units (R301);
`pressure` and `relAt` are one above the ticks of the latest pressure publication (R300) and of the latest REL. -/
structure Log where
  recs : List Rec
  app : Nat
  pub : Nat
  prs : Nat
  disc : Nat
  stamp : Key
  points : List Point
  pubs : Nat
  past : List (Nat × Nat × Nat)
  held : Bool
  pressure : Nat
  relAt : Nat
  deriving DecidableEq, Repr

/-- An access permission that a translation needs (R458). -/
inductive Access where
  | read | write | fetch | atom | any
  deriving DecidableEq, Repr

/-- A leaf as a TLB keeps it (R457, R460): the first address and size of its page, the physical address
of the page in its tier, and its bits. -/
structure Leaf where
  asid : Nat
  va : Nat
  size : Nat
  pa : Nat
  tier : Nat
  sec : Bool
  enc : Bool
  x : Bool
  w : Bool
  rd : Bool
  bias : Bool
  ats : Bool
  deriving DecidableEq, Repr

/-- An entry of a walk cache (R460): the context, the level of the tree, the virtual address over that level's step, and
the table entry, whose V is 1. -/
structure WalkEnt where
  asid : Nat
  level : Nat
  va : Nat
  entry : Nat
  deriving DecidableEq, Repr

/-- What an ATOM does at its place (R326 to R328). -/
structure AtomReq where
  pa : Nat
  addr : Word
  op : BitVec 3
  ty : BitVec 3
  scope : BitVec 3
  x : Word
  c : Word
  deriving DecidableEq, Repr

/-- Where a Pending producer delivers (R64): a general register, or vector registers by physical
number. -/
inductive Dst where
  | g (n : Nat)
  | v (ns : List Nat)
  deriving DecidableEq, Repr

/-- A group of line writes of a scratchpad that has left its path and is not yet performed: its sub-banks have not
granted it (R266, R313, R315). `path` is 0 for an ST, 1 for a vector store, and 2 plus the handle for a table; `tag` the
place of the word in program order, or the steps that the table had ended; `parts` are places with selected bytes. -/
structure SWrite where
  path : Nat
  id : Nat
  tag : Nat
  parts : List (Nat × List (Byte × Bool))
  deriving DecidableEq, Repr

/-- The lanes of a strided or indexed load that it still has to read, in ascending order, each with its address and its
place, and the values of those it has read (R183, R185, R266); `n` is the width of a lane in bytes. -/
structure LaneReq where
  n : Nat
  zm : Bool
  old : VReg
  todo : List (Nat × Nat × Nat)
  got : List (Nat × Nat)
  err : Option (Cause × Nat)
  deriving DecidableEq, Repr

/-- What a Pending producer will deliver (R64). `atom` has not left its core; `sent` has (R327). -/
inductive Src where
  | word (x : Word)
  | vec (xs : List VReg)
  | load (pa : Nat) (addr : Word) (sz : BitVec 3)
  | atom (r : AtomReq)
  | sent (r : AtomReq)
  | reduce (seq : Nat)
  | lanes (r : LaneReq)
  | cell (die c : Nat)
  | chan (id : Nat)
  | window (id : Nat)
  | fpop (pa kernel probed : Nat) (closed : Bool) (got : Option (Nat × Nat × Line))
  | error (cause : Cause) (tval : Word)
  deriving DecidableEq, Repr

/-- An outstanding producer (R64, R67): its destination, its source, its place in program order, and
the keys its delivery lifts the clock to (R290); and, for a vector command, which keeps its place in the command
queue until it delivers (R160), its function. -/
structure Prod where
  dst : Dst
  src : Src
  seq : Nat
  lift : List Key
  vec : Option VOp
  deriving DecidableEq, Repr

/-- A deferred trap that waits for the next boundary (R117). -/
structure Deferred where
  seq : Nat
  cause : Cause
  tval : Word
  time : Word
  deriving DecidableEq, Repr

/-- A trap that waits until every earlier instruction has completed (R67, R117). -/
structure TrapDue where
  epc : Word
  cause : Cause
  code : BitVec 12
  handle : BitVec 4
  step : Bool
  tval : Word
  deriving DecidableEq, Repr

/-- A command of the vector unit (R111, R160): function, operands, prefix, rotation base and pair values
at send, its place in program order, and the places and lengths of the bytes that a contiguous access
covers. -/
structure VCmd where
  seq : Nat
  op : VOp
  o : OpV
  pre : Pre
  base : BitVec 4
  p0 : Word
  p1 : Word
  pieces : List (Nat × Nat)
  deriving DecidableEq, Repr

/-- A command that waits at the reduction tile (R181). -/
structure RedCmd where
  core : Nat
  seq : Nat
  scan : Bool
  ty : BitVec 3
  src : VReg
  act : List Bool
  zm : Bool
  old : List VReg
  dst : List Nat
  deriving DecidableEq, Repr

/-- An entry of an operand queue (R169, R170), with the places and lengths of its 512 bytes; `patched` marks the bytes of
`data` that earlier vector stores of the strand wrote while the entry was Pending. -/
structure QEntry where
  fe : FE
  addr : Word
  seq : Nat
  data : VReg
  pieces : List (Nat × Nat)
  patched : BitVec 512
  deriving DecidableEq, Repr

/-- What a waiting instruction waits for (R103). -/
inductive Cond where
  /-- The vector unit has completed every earlier command and queue load (R43, R162). -/
  | vectorIdle
  /-- Every earlier load, atomic, vector memory command and scratchpad write is done (R307). -/
  | accessesDone
  /-- Every earlier global load and atomic, vector load and queue load has delivered (R310). -/
  | loadsDone
  /-- The earlier accesses of the core path to a bank are performed (R275). -/
  | bankDone (bank : Nat)
  /-- The point of a publication, by its number, has reached every die (R307). -/
  | pointEverywhere (num : Nat)
  /-- Every record below an index is pressed (R307). -/
  | pressedTo (idx : Nat)
  /-- A register's producer has delivered (R133): `v` for the vector file, a physical number. -/
  | delivered (v : Bool) (n : Nat)
  /-- A page that a WOPEN names has its translation (R465, R489). -/
  | translated (va : Word)
  /-- The pin table has room for the pages of a WOPEN (R462, R489). -/
  | pinned
  /-- The moment after a wait, a number of ticks away, is not waited for: it is always true. -/
  | always
  /-- The named tables are out of the Running state (R131). -/
  | tablesOut (mask : BitVec 12)
  /-- Every marker of a fence has reached its queue's head (R324). -/
  | markers (id : Nat)
  /-- The accesses that a PFENCE waits for are performed (R325). -/
  | performed (id : Nat)
  /-- A lease request has been granted or withdrawn (R212). -/
  | lease
  /-- A split, fuse or unchain may complete (R201). -/
  | reshape
  /-- A table command queue is empty (R250). -/
  | tableDrained (h : Nat)
  /-- A channel's watermark covers an address, or the channel is broken (R356). -/
  | watermark (ch : Nat) (addr : Word)
  /-- A channel's commands are complete and its records are settled (R358). -/
  | chanDone (ch : Nat)
  /-- A circular buffer has filled slots to claim (R345). -/
  | slots (ch n : Nat)
  /-- An arrival of the strand is counted, or has failed (R375). -/
  | counted
  /-- The generation recorded for the cell of a line is complete and delivered (R370, R375). -/
  | generation (line : Nat)
  /-- A window's count reaches a number (R493). -/
  | winCount (handle : Nat) (which : Nat) (n : Word)
  /-- A window's operations have settled (R494). -/
  | winSettled (handle : Nat)
  /-- A ring's count reaches a number (R513). -/
  | ringCount (ring : Nat) (out : Bool) (n : Word)
  /-- A ring has its neighbours (R510), or its block is accepted (R511). -/
  | ringReady (ring : Nat)
  /-- The event queue of a firmware core holds an entry (R139). -/
  | event
  /-- The other strands of a group that a GEXIT ends (R393). -/
  | others
  deriving DecidableEq, Repr

/-- Why a strand is Stalled (R103, R104): the interlock, the full queue or the wait. -/
inductive Why where
  | none
  /-- A register is Pending: `v` for the vector file, a physical number (R108). -/
  | reg (v : Bool) (n : Nat)
  /-- The head of an operand queue is Pending (R65). -/
  | head (q : Nat)
  /-- The vector command queue is full (R111). -/
  | vectorFull
  /-- An operand queue is full (R58). -/
  | queueFull (q : Nat)
  /-- Earlier vector stores must perform first (R163). -/
  | vectorStores
  /-- Earlier vector memory commands must perform first (R163). -/
  | vectorMemory
  /-- An earlier ATOM has not executed (R327). -/
  | atoms
  /-- Bytes above a channel's watermark (R342). -/
  | guard (ch : Nat) (addr : Word)
  /-- A serialising command has not finished its checks (R164). -/
  | serial
  /-- A trap waits for the outstanding producers and commands (R67, R117). -/
  | drain
  /-- The log has too few free units (R301). -/
  | log (units : Nat)
  /-- A translation waits for ATS or PRI (R465). -/
  | translation (va : Word)
  /-- A table's command queue is full (R249). -/
  | tableQueue (h : Nat)
  /-- A channel's command queue is full (R336). -/
  | chanQueue (ch : Nat)
  /-- The die's window queue is full (R490). -/
  | windowQueue
  /-- The pin table lacks the entries of an enqueue (R462). -/
  | pins
  /-- A waiting instruction. -/
  | until (c : Cond)
  deriving DecidableEq, Repr

/-- The progress of the waiting instruction at the pc: its stage and what it took so far. -/
structure Wait where
  stage : Nat
  a : Nat
  b : Nat
  tick : Nat
  deriving DecidableEq, Repr

/-- A PFENCE that still holds later work (R325): its place in program order, its masks, and the accesses
before it that its from-paths name: the latest SEQ of each channel (for an MFENCE), the next window operation, the own
blocks that each ring has accepted, and the fragment tables with a step in flight, by handle, with the steps they
have ended. -/
structure Hold where
  id : Nat
  seq : Nat
  src : BitVec 5
  dst : BitVec 5
  chans : List (Nat × Nat)
  op : Nat
  rings : List (Nat × Nat)
  steps : List (Nat × Nat)
  deriving DecidableEq, Repr

/-- An arrival record (R369), by the line of its cell; once DONE it holds the publications that the
completed generation covered, by core (R370). -/
structure ArrRec where
  line : Nat
  gen : Nat
  done : Bool
  rels : List (Nat × Nat)
  deriving DecidableEq, Repr

/-- The states of a table (R219). -/
inductive TblSt where
  | unloaded | loaded | running | stopped | halted | faulted | parked
  deriving DecidableEq, Repr

/-- The epilogue state that EPI sets (R237). -/
structure Epi where
  act : BitVec 3
  bi : Bool
  sc : Bool
  bs : Bool
  rm : BitVec 3
  sat : Bool
  thr : BitVec 8
  deriving DecidableEq, Repr

/-- A claim of a table on a circular buffer (R241): the slots claimed and not yet released. -/
structure Claim where
  ch : Nat
  claimed : Nat
  deriving DecidableEq, Repr

/-- A checkpoint (R242): micro-PC, counters, live bases, epilogue state, ESEQ, claims, and the push and
pop counts of the fragment's outgoing and incoming links. -/
structure Ckpt where
  upc : Nat
  idx : List Nat
  bases : List Word
  epi : Epi
  eseq : Nat
  claims : List Claim
  pushed : Nat
  popped : Nat
  deriving DecidableEq, Repr

/-- A location whose consumption made a table rewind (R246): kind 0 and a line of the window, or a kind and
number as `Frag.bad` has them. -/
structure PoisonLoc where
  kind : Nat
  loc : Nat
  eseq : Nat
  deriving DecidableEq, Repr

/-- A command for a table in its own or its channel's queue (R249, R352). -/
inductive TCmd where
  | nest (index : Nat) (value : Word)
  | base (gen : Nat) (value : Word) (now : Bool)
  | restart (label : Nat)
  | go (frm : BitVec 3) (sr : Word) (fence : Nat)
  | stop (mark : Bool)
  deriving DecidableEq, Repr

/-- A micro-order table (R219 to R256). `frees` are the releases that its CBFREEs marked, by channel and number of
slots, oldest first (R241); `was` is the state that a save parked (R220). `sh` and `lv` are the shadow and live configuration registers by
index, `frm` and `sr` what the start captured (R224, R274), `since` the steps since the checkpoint;
`inStep` says that a step waits, `row` and `pops` how far it has come (R205), and `stopDue` that the table
stops when it completes (R255); `steps` counts the steps it has ended; `taken` are the lines that the step has read, each
as it was when its sub-bank granted it (R266, R270, R271). -/
structure Tbl where
  st : TblSt
  words : List IWord
  rv : Bool
  restart : Nat
  sh : SMap Word
  lv : SMap Word
  upc : Nat
  idx : List Nat
  epi : Epi
  frm : BitVec 3
  sr : Word
  claims : List Claim
  frees : List (Nat × Nat)
  eseq : Nat
  ehw : Nat
  ck : Ckpt
  since : Nat
  poison : List PoisonLoc
  cause : Cause
  caddr : Word
  cmdq : List TCmd
  weir : Bool
  rebase : List (Nat × Word)
  markStop : Bool
  started : Bool
  fence : Nat
  rewinding : Bool
  inStep : Bool
  row : Nat
  pops : List (List (BitVec 32))
  stopDue : Bool
  blocked : Option Nat
  steps : Nat
  was : TblSt
  taken : List (Nat × Line)
  deriving DecidableEq, Repr

/-- A holding row of an accumulator bank (R233): integer or float, and its 32-bit elements. A row that the
bank does not list is empty. -/
structure BankRow where
  integer : Bool
  vals : List (BitVec 32)
  deriving DecidableEq, Repr

/-- The weights of one cell (R200, R230): the type of the WLD that wrote them, the element codes by
place, their FP4 block scales, and which of them are escaped, with their true values. -/
structure Cell where
  ty : Nat
  codes : List (BitVec 32)
  scales : List (BitVec 8)
  outs : List (Nat × BitVec 16)
  deriving DecidableEq, Repr

/-- An outgoing link of a fragment (R204, R245): the handle of the second fragment, its entries, the
type of each, the weir, the rows pushed and popped since it was made, and the pushes it drops. -/
structure Link where
  dst : Nat
  entries : List (Nat × List (BitVec 32))
  weir : Bool
  pushed : Nat
  popped : Nat
  dropTo : Nat
  deriving DecidableEq, Repr

/-- A leased fragment (R191 to R194, R200, R207). Planes are kept by cell: 256 times the cell row plus the
cell column; `active1` says that plane 1 is the active one. `bad` names what holds an uncorrectable error
(R246): 1 or 2 and a cell of plane 0 or 1, 3 and a bank row, 4 and the number of an entry of its link. `proof` fixes the
contents of the proof registers of its cells (R239): zero before its first PROOF, and then a free value. -/
structure Frag where
  row0 : Nat
  col0 : Nat
  lh : Nat
  lw : Nat
  seq : Nat
  die : Nat
  secure : Bool
  suspect : Bool
  reshaping : Bool
  qid : Nat
  tbl : Tbl
  bank : SMap BankRow
  plane0 : SMap Cell
  plane1 : SMap Cell
  active1 : Bool
  link : Option Link
  nv : Bool
  ovf : Bool
  iov : Bool
  bad : List (Nat × Nat)
  proof : Nat
  deriving DecidableEq, Repr

/-- A pending lease request (R196), and once it is granted the origin and sequencer of its grant (R198,
R200); `regrant` is the group of a strand whose restore asks for the lease again (R209). -/
structure LeaseReq where
  core : Nat
  asid : Option Nat
  h : Nat
  qid : Nat
  lh : Nat
  lw : Nat
  fix : Option (Nat × Nat)
  secure : Bool
  deadline : Word
  tick : Nat
  regrant : Option Nat
  grant : Option (Nat × Nat × Nat)
  deriving DecidableEq, Repr

/-- The reservation of a die (R199): the request that holds it, by core, handle and, for a restore, group; and its
rectangle, by origin and the logarithms of height and width. -/
structure Resv where
  core : Nat
  h : Nat
  regrant : Option Nat
  row0 : Nat
  col0 : Nat
  lh : Nat
  lw : Nat
  deriving DecidableEq, Repr

/-- The states of a channel (R332). -/
inductive ChanSt where
  | closed | open | broken | closing | parked
  deriving DecidableEq, Repr

/-- What a copy command is (R334). -/
inductive CmdKind where
  | cpy | cpym | gth
  deriving DecidableEq, Repr

/-- A page of a context at its physical place (R457, R462). -/
structure PinRef where
  asid : Nat
  va : Nat
  pa : Nat
  size : Nat
  deriving DecidableEq, Repr

/-- An entry of the pin table (R462): a page and its in-flight count. -/
structure Pin where
  page : PinRef
  count : Nat
  deriving DecidableEq, Repr

/-- A command of a channel (R334 to R336): SEQ, counted on past 2^32 so that it orders the commands (`Cmd.number`), source and destination (mask for CPYM), control word, T,
the index list of a gather, sum mode, CB, the captured c.FRM and c.SRSTATE (R272, R274), the tick of its
enqueue and its ready tick (R337, R338), its place among the PFENCEs (R325), its length, the places of its
source and destination (R461), the pages it pins, EXP as it left the queue (R348), and whether a copy order
gave it (R361). `due` is the ready tick that its slip counts from, `excused` the ticks past it that a free slot, a counter
or a PFENCE held the command (R339), and `again` says that a restore enqueued it again (R351). -/
structure Cmd where
  kind : CmdKind
  seq : Nat
  src : Word
  dst : Word
  ctl : Word
  t : Word
  idx : Word
  mode : Nat
  cb : Bool
  frm : BitVec 3
  sr : Word
  tick : Nat
  ready : Nat
  fence : Nat
  len : Nat
  srcp : List (Nat × Nat)
  dstp : List (Nat × Nat)
  pins : List PinRef
  exp : BitVec 32
  order : Bool
  due : Nat
  excused : Nat
  again : Bool
  deriving DecidableEq, Repr

/-- SEQ of a command as software sees it (R334): modulo 2^32. -/
def Cmd.number (c : Cmd) : Nat := c.seq % 2 ^ 32

/-- A begun command (R338, R340, R348): the slot it reserved, or that it still waits for one under the weir
(R115); the receivers' slots of a multicast, by receiver, channel and slot; the places it writes; the bytes
read so far and the bytes written; the bytes read for a write that is not yet performed; the sum of the
bytes delivered; the indices of a gather; the formats of the banks that it converts between (R274); whether the far end has
acknowledged it (R539); since when the log holds an append of it (R301); and the ranges of addresses that it has written,
as its strand names them (R341); and of the row of a gather that is being read, its places and the pages that count for
it (R347, R461). -/
structure Run where
  cmd : Cmd
  slot : Option Nat
  waitSlot : Bool
  rslots : List (Nat × Nat × Nat)
  rwait : List Nat
  dstp : List (Nat × Nat)
  pos : Nat
  out : Nat
  buf : List Byte
  sum : BitVec 32
  idx : List Nat
  conv : Option (BitVec 32 × BitVec 32)
  acked : Bool
  since : Option Nat
  names : List (Nat × Nat)
  rowp : List (Nat × Nat)
  rows : List PinRef
  deriving DecidableEq, Repr

/-- A consumer of a circular buffer (R343, R345): 0 the strand, 1 to 4 the tables of f0 to f3. -/
structure Consumer where
  who : Nat
  fill : Nat
  claim : Nat
  freed : Nat
  deriving DecidableEq, Repr

/-- A circular buffer (R343, R344): next slot to reserve, free slots, slots freed by every consumer so
far, its consumers, and one above the tick at which a slot became free while none was (R362). -/
structure CBuf where
  base : Word
  size : Nat
  count : Nat
  next : Nat
  free : Nat
  freedAll : Nat
  weir : Bool
  cons : List Consumer
  freshAt : Nat
  deriving DecidableEq, Repr

/-- An entry of a channel's command queue (R336, R352). -/
inductive QCmd where
  | cmd (c : Cmd)
  | tbl (c : TCmd)
  | chwm (id : Nat)
  | chsum (q : Nat) (a : Word) (id : Nat)
  | cbcfg (base : Word) (cfg : Word)
  deriving DecidableEq, Repr

/-- A copy channel (R332 to R351). `written` are the counted byte ranges of the watermark, `chainWrites` and
`chainSlots` the ranges and slots of the open chain, `buf` its entries in the time-sorted buffer, `low` the
greatest SEQ up to which every command is complete or discarded, `discarded` the SEQ of discarded ones,
`cnt` and `credits` the multicast counters and the credits on their way, `weir` the weir of the queue, granted to the
strand (false) or to the table (true) (R115), and `blocked` since when its next command waits for a slot or a counter.
A channel has been Broken exactly where `cause` is not 0. -/
structure Chan where
  st : ChanSt
  cause : Cause
  caddr : Word
  base : Word
  len : Nat
  written : List (Nat × Nat)
  seq : Nat
  rsum : BitVec 32
  exp : BitVec 32
  chain : Bool
  chainWrites : List (Nat × Nat)
  chainSlots : Nat
  chainRslots : List (Nat × Nat × Nat)
  slip : Nat
  queue : List QCmd
  weir : Option Bool
  buf : List Cmd
  runs : List Run
  low : Nat
  discarded : List Nat
  cbuf : Option CBuf
  rx : Option (Nat × Nat)
  cnt : SMap Nat
  cntWeir : List Nat
  credits : List Nat
  ring : Option Nat
  tbl : Tbl
  lastBegin : Nat
  blocked : Option Nat
  deriving DecidableEq, Repr

/-- The states of a barrier cell (R364). -/
inductive CellSt where
  | free | opened | held
  deriving DecidableEq, Repr

/-- A barrier cell or route tag (R364 to R367): `rels` are the publications that the arrivals of the open
generation covered, by core (R370), and `waitParent` says that a child has sent its arrival. `setAt` is one above the
tick of the latest BMASK, and `prev` the NEXTMASK that stood before that tick (R380). -/
structure BCell where
  st : CellSt
  gen : Nat
  arr : Nat
  mask : BitVec 64
  next : BitVec 64
  nmv : Bool
  pend : BitVec 48
  cfg : BitVec 64
  rels : List (Nat × Nat)
  waitParent : Bool
  setAt : Nat
  prev : Option (BitVec 64)
  deriving DecidableEq, Repr

/-- An arrival on its way to the cell of a line (R368): from a strand (`who` 0), a table (1 plus its
handle) or a child (32); the core and group of the strand, or the child's line; the publication it covers; the steps that
its table had ended, or the latest SEQ of its channel, whose writes come before it (R322); and whether it waits at a
Held cell (R367). -/
structure Arrival where
  line : Nat
  who : Nat
  core : Nat
  group : Option Nat
  pub : Nat
  after : Nat
  held : Bool
  deriving DecidableEq, Repr

/-- A strand and its registers (R54, R63, R68, R103, R120). Maps hold the registers that differ from
their start values: `g`, `v` and `k` by physical number, and the full/empty states. `vbad` lists the vector
registers whose latest producer ended in error (R66, R185); `gexit` is the tick at which its GEXIT issued (R394), and
`found` is c.PTIME when its latest trap was found (R451). -/
structure Strand where
  st : StrandSt
  why : Why
  wait : Option Wait
  pc : Word
  g : SMap Word
  gfe : SMap FE
  v : SMap VReg
  vfe : SMap FE
  vbad : List Nat
  k : SMap PReg
  vq : SMap (List QEntry)
  vqweir : List Nat
  vcq : List VCmd
  vweir : Bool
  pend : List Prod
  fflags : BitVec 6
  frm : BitVec 3
  srstate : Word
  vrb : BitVec 4
  epc : Word
  cause : Word
  tval : Word
  tvec : BitVec 62
  ss : Bool
  th : Bool
  pmode : Bool
  mode : Bool
  deferred : List Deferred
  due : Option TrapDue
  decided : Bool
  wake : Bool
  deadline : Option Word
  arr : List ArrRec
  frag : SMap Frag
  chan : SMap Chan
  writes : List SWrite
  group : Option Nat
  rank : Nat
  asid : Option Nat
  acq : SMap Nat
  floors : SMap Nat
  homeFloor : Nat
  hostFloor : Nat
  winFloors : List (Nat × Nat × Nat)
  seen : List (Nat × Nat)
  placed : Nat
  holds : List Hold
  seq : Nat
  retired : Nat
  blocked : Option Nat
  ctlTick : Nat
  ctlApp : Nat
  gexit : Option Nat
  found : Word
  deriving DecidableEq, Repr

/-- One core place: its strand and what belongs to the core itself (R259, R272, R285, R289, R453,
R460). -/
structure Core where
  strand : Strand
  lclk : Nat
  log : Log
  fmt : SMap (BitVec 32)
  tlb : List Leaf
  evbase : Word
  evtail : Nat
  evhead : Nat
  evwait : List (Nat × Word × Word)
  deriving DecidableEq, Repr

/-- An operation on an import handle (R490, R491, R539): its place among all operations, the strand that
enqueued it, source, offset, length, reduction, whether it is a WWRS or a WATOM, and its SQ once sent. -/
structure WinOp where
  id : Nat
  core : Nat
  group : Option Nat
  asid : Nat
  handle : Nat
  src : Word
  off : Nat
  len : Nat
  red : BitVec 2
  signal : Bool
  atom : Bool
  op : BitVec 4
  operand : Word
  srcp : List (Nat × Nat)
  pins : List PinRef
  deriving DecidableEq, Repr

/-- What an operation between packages carries (R490, R491, R503, R511, R539): a window operation, with the bytes that a
copy has sent so far, or a ring entry. -/
inductive Payload where
  | op (o : RemoteOp)
  | entry (e : RingEntry)
  deriving DecidableEq, Repr

/-- An operation of a flow that is not acknowledged (R479): SQ, attempts, the port last used, the tick of its timer, its
window offset, the channel command it belongs to, the die whose link it crosses, and what it carries, which the sender
keeps. -/
structure Sent where
  sq : Nat
  attempts : Nat
  port : Nat
  die : Nat
  tick : Nat
  off : Nat
  chan : Option (Nat × Nat × Nat)
  body : Payload
  deriving DecidableEq, Repr

/-- A window entry (R483 to R495), with the tick of its WOPEN. -/
structure Win where
  asid : Nat
  imp : Bool
  core : Nat
  base : Word
  len : Nat
  key : BitVec 32
  shared : Bool
  far : Nat
  farIndex : Nat
  sent : Nat
  ackd : Nat
  rcvd : Nat
  sig : Nat
  broken : Cause
  closing : Bool
  sq : Nat
  outs : List Sent
  pins : List PinRef
  top : Key
  born : Nat
  deriving DecidableEq, Repr

/-- What the end of a flow answered (R480, R494): the operation is acknowledged, or the far window refuses it. -/
inductive Answer where
  | acknowledged (sq : Nat)
  | refused (sq : Nat)
  deriving DecidableEq, Repr

/-- The receiving end of a flow of an import handle (R480): NEXT, the numbers above it that have arrived, the WWRS that
wait for earlier operations of their handle (R493), the export that the flow belongs to, whether that export has been closed
(R494), the parts of copies performed so far, by SQ and place in the copy (R539), and the last answer given. -/
structure RecvFlow where
  next : Nat
  got : List Nat
  held : List (Nat × RemoteOp)
  window : Option Nat
  closed : Bool
  parts : List (Nat × Nat)
  answer : Option Answer
  deriving DecidableEq, Repr

/-- Whose operation a flow between dies carries (R479): a load, an atomic or a vector load of a strand, by its place in
program order; a line of a copy command; or a write for whose death no rule names an issuer, of a record or of a scratchpad
line. -/
inductive FlowUse where
  | strand (seq : Nat)
  | copy (ch seq : Nat)
  | write
  deriving DecidableEq, Repr

/-- An operation on a flow between dies (R478, R479): SQ, its core, whose it is, the place it goes to, what it writes
there, attempts, and the tick of its timer. -/
structure FlowOp where
  sq : Nat
  core : Nat
  use : FlowUse
  pa : Nat
  data : List (Byte × Bool)
  attempts : Nat
  tick : Nat
  deriving DecidableEq, Repr

/-- A flow between dies (R478 to R480): at its source the next SQ and the operations not acknowledged, and at its
destination NEXT and the numbers above it that have arrived. -/
structure DieFlow where
  sq : Nat
  ops : List FlowOp
  next : Nat
  got : List Nat
  deriving DecidableEq, Repr

/-- The states of a ring entry (R501). -/
inductive RingSt where
  | free | joining | live | draining | done | broken
  deriving DecidableEq, Repr

/-- A ring entry (R498 to R514): its member strand and bound channel, descriptor, counters and limit; the
grants it gave for entries that have not arrived, and those it holds; the next outbound entry, the own blocks
it accepted and has not transmitted, the inbound entries with their blocks that await their forward, and those performed
out of order; the transmissions that are not acknowledged; the weir, the entry granted under it, and that entry once it is
staged (R505); since when its next grant waits for a slot; and whether the member has left (R515). -/
structure Ring where
  st : RingSt
  cause : Cause
  core : Nat
  asid : Option Nat
  group : Option Nat
  ch : Nat
  key : BitVec 32
  p : Nat
  pos : Nat
  prev : Nat
  next : Nat
  blen : Nat
  arr : Nat
  out : Nat
  own : Nat
  limit : Option Nat
  given : List Nat
  held : List Nat
  outK : Nat
  blocks : List WinOp
  inbound : List (Nat × List Byte)
  performed : List Nat
  outs : List Sent
  weir : Bool
  weirEntry : Option Nat
  staged : Option (Nat × List Byte)
  blocked : Option Nat
  leaving : Bool
  deriving DecidableEq, Repr

/-- The states of a link (R475). -/
inductive LinkSt where
  | down | training | up | narrow | dead
  deriving DecidableEq, Repr

/-- A link (R475 to R477): state, lanes in use, the widest it may train to, its counters, and the
training failures in a row. -/
structure PLink where
  st : LinkSt
  width : Nat
  cap : Nat
  drop : Nat
  retry : Nat
  dup : Nat
  skew : Nat
  fails : Nat
  deriving DecidableEq, Repr

/-- The states of a context (R437). -/
inductive CtxSt where
  | free | live | killing | dead | tearing
  deriving DecidableEq, Repr

/-- An invalidation that runs (R464): the range, the physical pages that the context's dropped translations of it named, by
place and size, and the publications before it, by core, whose records on those pages must be pressed. -/
structure Inval where
  lo : Nat
  hi : Nat
  pages : List (Nat × Nat)
  pubs : List (Nat × Nat)
  deriving DecidableEq, Repr

/-- A context (R436 to R440, R450, R463). -/
structure Ctx where
  st : CtxSt
  pasid : Nat
  tenant : Nat
  secure : Bool
  quantum : Nat
  wdog : Nat
  fqBase : Nat
  fqLog : Nat
  msi : Nat
  fqTail : Nat
  fqHead : Nat
  fqLost : Nat
  tinva : Word
  tinvCount : Nat
  inval : Option Inval
  debugger : Bool
  deriving DecidableEq, Repr

/-- The states of a queue (R419). -/
inductive QueueSt where
  | disabled | idle | mapped | held | error | resetting
  deriving DecidableEq, Repr

/-- A queue (R418 to R424): its registers, its slot, the context that enabled it, and whether an overrun was written while
it was Idle. -/
structure Queue where
  st : QueueSt
  wptr : Nat
  rptr : Nat
  slot : Option Nat
  base : Word
  vec : Nat
  pasid : Nat
  en : Bool
  wt : Nat
  pri : Nat
  logsz : Nat
  cause : Cause
  err : Bool
  fail : Bool
  drop : Bool
  asid : Nat
  overrun : Bool
  deriving DecidableEq, Repr

/-- Where a packet stands: at the head of its queue or as a graph node that holds, issued, its work
complete, and its result written with its signal due (R424, R426). -/
inductive PktSt where
  | head | issued | ready | released
  deriving DecidableEq, Repr

/-- A packet (R424 to R430): its queue and context, its 64 bytes, its place in the ring or graph, how far it has
come, the list of a WAIT once read, its result, the kernel or replay it waits for, the publications, by core,
that must be pressed before its signal, and the bytes that a COPY has read and not yet written. -/
structure Packet where
  id : Nat
  qid : Nat
  asid : Nat
  idx : Nat
  bytes : Line
  node : Option (Nat × Nat)
  st : PktSt
  prog : Nat
  read : Bool
  list : List (Word × Word × Nat)
  status : Nat
  cause : Cause
  aux1 : Nat
  aux2 : Word
  ref : Nat
  rels : List (Nat × Nat)
  buf : List Byte
  deriving DecidableEq, Repr

/-- A flume (R387): its two 48-bit counters and the records not yet taken, by ticket. -/
structure Flume where
  head : Nat
  tail : Nat
  recs : List (Nat × Line)
  deriving DecidableEq, Repr

/-- The states of a kernel (R404). -/
inductive KernelSt where
  | launched | resident | retiring | retired | refused
  deriving DecidableEq, Repr

/-- A kernel (R403 to R408): what its object and LAUNCH gave, the next group to place and the groups that
were killed before, its counts, its flumes by die, the tickets discarded with them, the ticks that its Waiting groups have waited since the
LAUNCH, the group that holds others back (R385), and one above the tick of its latest placement. -/
structure Kernel where
  st : KernelSt
  asid : Nat
  ktag : Nat
  qid : Nat
  arg : Word
  entry : Word
  size : Nat
  cap : Nat
  banks : List (Bool × Nat × BitVec 32)
  image : Word
  ngroups : Nat
  next : Nat
  killedEarly : List Nat
  done : Nat
  killed : Nat
  closed : Bool
  flumes : SMap Flume
  discarded : Nat
  lastDie : Option Nat
  waited : Nat
  hold : Option Nat
  placedAt : Nat
  deriving DecidableEq, Repr

/-- The states of a group that has been placed (R383). -/
inductive GroupSt where
  | running | saved | exiting | done | killed
  deriving DecidableEq, Repr

/-- A placed group (R382 to R385, R443): its cores by rank, the tick of its latest progress, while it
is saved the ticks it had gone without, and whether its watchdog has decided its kill. -/
structure Group where
  st : GroupSt
  cores : List Nat
  progress : Nat
  idle : Nat
  exiter : Nat
  expired : Bool
  deriving DecidableEq, Repr

/-- The save image of a Saved strand (R444 to R447), by 512 times its group plus its core: the strand as it stood, the state it was saved from,
TIME, the core's bank formats, its scratchpad and slices, what a reclaim took, the windows it saved and the handles
that are leased again, and the error with which the image reads back (R449). -/
structure Image where
  strand : Strand
  was : Nat
  time : Nat
  fmt : SMap (BitVec 32)
  scratch : List Host.Cell
  slices : List Host.Cell
  reclaimed : List (Nat × Frag)
  regranted : List Nat
  windows : List Host.Cell
  bad : Option Cause
  deriving DecidableEq, Repr

/-- A graph replay (R412 to R417): its queue, context, graph object and parameter buffer; the nodes as its
acceptance read them; the bytes of its patch and those copied; its nodes by state; and the conditional ones whose
predicate was read as true. -/
structure Replay where
  qid : Nat
  asid : Nat
  object : Nat
  buf : Nat
  pbuf : Nat
  patch : Nat
  size : Nat
  copied : Nat
  nodes : List (BitVec 1024)
  completed : List Nat
  skipped : List Nat
  flying : List Nat
  passed : List Nat
  failed : Option (Nat × Cause)
  deriving DecidableEq, Repr

/-- A bounded queue of R113. -/
inductive QRef where
  | vector (core : Nat)
  | operand (core q : Nat)
  | table (core h : Nat)
  | channel (core ch : Nat)
  | buffer (core ch : Nat)
  | link (core h : Nat)
  | multicast (core ch : Nat)
  | rill (ring : Nat)
  deriving DecidableEq, Repr

/-- A float (R114): the producer and the queue it names, the tick of its launch, and its copies: the agent that
each goes to next, and the hops it has made. A float without copies is discarded; it stands for its tick until its
producer launches the next. -/
structure FloatTok where
  origin : Agent
  queue : QRef
  tick : Nat
  copies : List (Agent × Nat)
  deriving DecidableEq, Repr

/-- The attestation report without its key and signature (R522). -/
structure Report where
  degraded : Bool
  feat8 : Word
  clpass : Nat
  diestat : List Nat
  digest : BitVec 256
  nonce : BitVec 256
  ptime : Word
  deriving DecidableEq, Repr

/-- One compute die (R188 to R200, R337, R364, R453, R460, R462, R481, R482, R490). `tiles` lists the tiles that are
not Free: 1 Leased, 2 Scrubbing, 3 Suspect, 4 Failed; `arb` says that the allocator arbitrates in this tick (R198), and `path` names the links
of the die's alignment path (R482). -/
structure Die where
  ptime : Word
  slewed : Nat
  lag : Nat
  skew : BitVec 64
  present : Bool
  tiles : SMap Nat
  scrub : List (Nat × Nat × Bool)
  seqs : List Nat
  reqs : List LeaseReq
  resv : Option Resv
  arb : Bool
  failed : List Nat
  pins : List Pin
  winq : List WinOp
  walks : List WalkEnt
  path : Option (List Nat)
  deriving DecidableEq, Repr

/-- The record that poisoned a home line (R303): its core, its index, the context and group it was appended for, and
whether its contents failed with INTEGRITY. -/
structure Taint where
  core : Nat
  idx : Nat
  asid : Option Nat
  group : Option Nat
  integrity : Bool
  deriving DecidableEq, Repr

/-- A past home state of a line (R298): what the line held until a tick, and what had poisoned it. -/
structure Hist where
  line : Nat
  till : Nat
  data : Line
  key : Key
  taint : Option Taint
  deriving DecidableEq, Repr

/-- What a slot chooses where the rules leave a choice open: the tick whose home state each line of a
load takes, and the further Published records it applies (R298); and what a far package answers (R489,
R495): 0 accepted, 1 refused, 2 not reached, with the length and kind of its window; and for a word that was
fetched before its issue, how many records its strand had appended by then since the latest control transfer
(R107); how many flits a link dropped (R478); and whether what arrives is the first of a flow that its sender has created
anew (R478). -/
structure Choice where
  view : SMap Nat
  opts : List (Nat × Nat)
  reply : Nat
  replyLen : Nat
  replyShared : Bool
  stale : Option Nat
  drops : Nat
  anew : Bool
  deriving DecidableEq, Repr

/-- Nothing chosen: every line as its home holds it now, and a far end that answers. -/
def Choice.start : Choice := ⟨[], [], 0, 0, false, none, 0, false⟩

/-- An outstanding PRI page request (R465): the core whose access waits, its context, the 64 KiB page, and the tick at
which it was sent; 512 is added to the core once the strand that waited has left it by a save or a kill. -/
structure PriReq where
  core : Nat
  asid : Nat
  page : Nat
  tick : Nat
  deriving DecidableEq, Repr

/-- Who moves next. -/
inductive Mover where
  | strand (core : Nat)
  | table (core handle : Nat)
  | event (i : Instr)
  /-- The n-th scratchpad write of a core's strand that waits for its sub-banks is granted (R266, R313). -/
  | grant (core n : Nat)
  /-- A part of the step of a fragment's table: the next line of its n-th row is granted, or a row drains (R270, R271). -/
  | part (core handle n : Nat)
  deriving DecidableEq, Repr

/-- One entry of the model's schedule: the ticks that pass first, who moves, and the open choices. -/
structure Slot where
  ticks : Nat
  mover : Mover
  choice : Choice
  deriving DecidableEq, Repr

/-- The package. The model's own fields come first: the schedule, the strand and table in focus, the
raw tick count, the turn that this tick has come to, the counter of free values, and the choices of the slot
that moves. `served` are the ticks from which each hardware slot may be served again (R432), `readimg` the context, core
and destination of a READIMG that waits (R440). `fmtDue` are the format registers written in this tick, by core and bank
(R278), and `cellDue` the lines of the cells whose PEND, mask or configuration changed in it (R371). `killDue` are the
contexts and cores whose groups firmware kills for a record whose header cannot be read (R303). `leaves` are the
translations that agents have used and no invalidation has dropped (R464), and `pageFloors` the lines, from first to past
last, of host pages that an invalidation dropped from the caches of the clusters, with its tick (R466). `notices` are the
break notices that rings of this package have sent, by fabric number, KEY and cause (R508); `master` is the link of the time
master and `management` the management address that the boot image names (R517), `basinFailed` says that a failed basin
stopped the boot (R519), and `pending` holds the management commands that arrived before stage 7 ended (R525). -/
structure State where
  sched : List Slot
  cur : Nat
  curTable : Nat
  now : Nat
  phase : List Nat
  freeCtr : Nat
  choice : Choice
  cores : SMap Core
  dies : SMap Die
  mem : List Host.Cell
  keys : SMap Key
  hist : List Hist
  failed : SMap Bool
  poison : SMap Taint
  owned : SMap Nat
  shfmt : SMap (BitVec 32)
  fmtDue : List (Nat × Nat × BitVec 32)
  banks : SMap Nat
  cells : SMap BCell
  cellDue : List Nat
  cellOwner : SMap Nat
  tagOwner : SMap Nat
  arrivals : List Arrival
  compl : List (Nat × List (Nat × Nat))
  red : SMap (List RedCmd)
  redTurn : SMap Nat
  ats : List (Nat × Nat × Nat)
  atsReq : List (Nat × Nat × Nat)
  pri : List PriReq
  priFail : List (Nat × Nat × Nat)
  leaves : List Leaf
  pageFloors : List (Nat × Nat × Nat)
  troot : SMap Word
  rsvg : Nat
  secmap : SMap (BitVec 16)
  resetDue : Bool
  floats : List FloatTok
  nextId : Nat
  dieFlows : SMap DieFlow
  links : SMap PLink
  fabid : BitVec 9
  wins : SMap Win
  recv : SMap RecvFlow
  rings : SMap Ring
  notices : List (Nat × BitVec 32 × Cause)
  ctxs : SMap Ctx
  carg0 : Word
  carg1 : Word
  cres : Word
  ccmd : Word
  cwait : List (Nat × Bool)
  readimg : Option (Nat × Nat × Nat)
  queues : SMap Queue
  packets : List Packet
  lastSlot : Nat
  served : SMap Nat
  runList : List Nat
  turn : Option (Nat × Nat)
  kernels : SMap Kernel
  groups : SMap Group
  killDue : List (Nat × Nat)
  images : SMap Image
  replays : SMap Replay
  msi : List Nat
  powered : Bool
  stage : Nat
  ready : Bool
  power : BitVec 32
  throttled : List Block
  stopped : List Block
  digest : BitVec 256
  update : Option (BitVec 256)
  master : Option Nat
  management : Word
  basinFailed : Bool
  pending : List Instr
  report : Option Report
  output : List Byte
  deriving DecidableEq, Repr

/-- A table before its first TLOAD (R219, R223, R224): every register zero but the counts, which are 1. -/
def Epi.start : Epi := ⟨0, false, false, false, 0, false, 255⟩
/-- The checkpoint of a table that has not started. -/
def Ckpt.start : Ckpt := ⟨0, [], [], Epi.start, 0, [], 0, 0⟩
/-- The configuration registers at a grant or an open (R223). -/
def cfgStart : SMap Word := [(0, 1), (1, 1), (2, 1), (3, 1), (4, 1), (5, 1)]
/-- The table of a new lease or channel (R219, R223). -/
def Tbl.start : Tbl :=
  ⟨.unloaded, [], false, 0, cfgStart, cfgStart, 0, [0, 0, 0, 0, 0, 0], Epi.start, 0, 0, [], [], 0, 0,
    Ckpt.start, 0, [], 0, 0, [], false, [], false, false, 0, false, false, 0, [], false, none, 0, .unloaded, []⟩

/-- A strand at its start (R68), on a core that holds none yet. -/
def Strand.start : Strand :=
  { st := .absent, why := .none, wait := none, pc := 0, g := [], gfe := [], v := [], vfe := [], vbad := [], k := [],
    vq := [], vqweir := [], vcq := [], vweir := false, pend := [], fflags := 0, frm := 0, srstate := 0,
    vrb := 0, epc := 0, cause := 0, tval := 0, tvec := 0, ss := false, th := false, pmode := false,
    mode := false, deferred := [], due := none, decided := false, wake := false, deadline := none,
    arr := [], frag := [], chan := [], writes := [], group := none, rank := 0, asid := none, acq := [], floors := [],
    homeFloor := 0, hostFloor := 0, winFloors := [], seen := [], placed := 0, holds := [], seq := 0, retired := 0,
    blocked := none, ctlTick := 0, ctlApp := 0, gexit := none, found := 0 }

/-- A log at warm reset (R287). -/
def Log.start : Log := ⟨[], 0, 0, 0, 0, ⟨0, 0⟩, [], 0, [], false, 0, 0⟩

/-- A firmware core: core 0 of each die (R3, R125). -/
def isFirmware (core : Nat) : Bool := core % 64 == 0

/-- A core after reset (R68, R120, R285, R289, R453): a firmware core runs in F mode, and any other core
holds no strand. -/
def Core.start (core : Nat) : Core :=
  { strand := if isFirmware core then { Strand.start with st := .running, mode := true } else Strand.start,
    lclk := 0, log := Log.start, fmt := [], tlb := [], evbase := 0, evtail := 0, evhead := 0,
    evwait := [] }

/-- A die after reset (R189, R481, R482): every tile Free, c.PTSKEW with FAB all ones and DIE 2. -/
def Die.start : Die :=
  { ptime := 0, slewed := 0, lag := 0, skew := 0xFFFFFFFF02, present := true, tiles := [],
    scrub := [], seqs := [], reqs := [], resv := none, arb := false, failed := [], pins := [], winq := [], walks := [],
    path := none }

/-- A barrier cell that is Free (R364). -/
def BCell.start : BCell := ⟨.free, 0, 0, 0, 0, false, 0, 0, [], false, 0, none⟩

/-- The machine right after reset. Every object is at its reset value; memory lists nothing. -/
def State.reset : State :=
  { sched := [], cur := 0, curTable := 0, now := 0, phase := [], freeCtr := 0, choice := Choice.start, cores := [],
    dies := [], mem := [], keys := [], hist := [], failed := [], poison := [], owned := [], shfmt := [], fmtDue := [],
    banks := [], cells := [], cellDue := [], cellOwner := [], tagOwner := [], arrivals := [], compl := [], red := [],
    redTurn := [], ats := [], atsReq := [], pri := [], priFail := [], leaves := [], pageFloors := [], troot := [], rsvg := 0,
    secmap := [], resetDue := false, floats := [], nextId := 1, dieFlows := [], links := [], fabid := 0x1FF,
    wins := [], recv := [], rings := [], notices := [], ctxs := [], carg0 := 0, carg1 := 0, cres := 0, ccmd := 0, cwait := [], readimg := none,
    queues := [], packets := [], lastSlot := 255, served := [], runList := [], turn := none, kernels := [], groups := [], killDue := [],
    images := [], replays := [], msi := [], powered := true, stage := 0, ready := false, power := 0,
    throttled := [], stopped := [], digest := 0, update := none, master := none, management := 0,
    basinFailed := false, pending := [], report := none,
    output := [] }

end Sys2Proof.Machine
end

