-- ==== Sys2Proof/Machine/Num.lean ====
section
/-! DEFINITION. Numbers (R18 to R53): formats, exact values, rounding, conversions, sums, comparisons,
the special functions, the FP4 block format and the stochastic generator. -/

namespace Sys2Proof.Machine

/-- The sticky flags, in the bit places of c.FFLAGS (R40). -/
abbrev Flags := BitVec 6
def fNX : Flags := 1
def fUF : Flags := 2
def fOF : Flags := 4
def fDZ : Flags := 8
def fNV : Flags := 16
def fSAT : Flags := 32

/-- The floating-point formats (R20). -/
inductive Fmt where
  | fp32 | bf16 | fp16 | e5m2 | e4m3 | e2m1 | e3m5
  deriving DecidableEq, Repr

/-- Fraction bits p (R20). -/
def Fmt.p : Fmt → Nat
  | .fp32 => 23 | .bf16 => 7 | .fp16 => 10 | .e5m2 => 2 | .e4m3 => 3 | .e2m1 => 1 | .e3m5 => 5
/-- Bias (R20). -/
def Fmt.bias : Fmt → Int
  | .fp32 => 127 | .bf16 => 127 | .fp16 => 15 | .e5m2 => 15 | .e4m3 => 7 | .e2m1 => 1 | .e3m5 => 3
/-- Bits of a code without its sign. -/
def Fmt.mag : Fmt → Nat
  | .fp32 => 31 | .bf16 => 15 | .fp16 => 15 | .e5m2 => 7 | .e4m3 => 7 | .e2m1 => 3 | .e3m5 => 8
/-- The code of the largest finite value (R22). -/
def Fmt.maxCode : Fmt → Nat
  | .fp32 => 0x7F7FFFFF | .bf16 => 0x7F7F | .fp16 => 0x7BFF | .e5m2 => 0x7B | .e4m3 => 0x7E
  | .e2m1 => 7 | .e3m5 => 0xFF
/-- The canonical NaN (R22); a format without one gives zero. -/
def Fmt.qnan : Fmt → Nat
  | .fp32 => 0x7FC00000 | .bf16 => 0x7FC0 | .fp16 => 0x7E00 | .e5m2 => 0x7E | .e4m3 => 0x7F
  | .e2m1 => 0 | .e3m5 => 0
/-- Formats with infinities (R22). -/
def Fmt.hasInf : Fmt → Bool
  | .fp32 | .bf16 | .fp16 | .e5m2 => true
  | .e4m3 | .e2m1 | .e3m5 => false
/-- Formats with signalling NaNs (R23). -/
def Fmt.hasSnan : Fmt → Bool
  | .fp32 | .bf16 | .fp16 => true
  | .e5m2 | .e4m3 | .e2m1 | .e3m5 => false

/-- An exact value: a NaN, an infinity, or a signed fraction (R21, R53). -/
inductive Val where
  | nan
  | snan
  | inf (neg : Bool)
  | fin (neg : Bool) (num den : Nat)
  deriving DecidableEq, Repr

/-- m times two to the power k. -/
def scale (neg : Bool) (m : Nat) (k : Int) : Val :=
  if 0 ≤ k then .fin neg (m * 2 ^ k.toNat) 1 else .fin neg m (2 ^ (-k).toNat)

/-- The exact value of a code (R21 to R23). -/
def valOf (f : Fmt) (code : Nat) : Val :=
  let c := code % 2 ^ f.mag
  let neg := decide (code / 2 ^ f.mag % 2 = 1) && f != .e3m5
  if f.hasInf && c == f.maxCode + 1 then .inf neg
  else if c > f.maxCode then
    if f.hasSnan && c / 2 ^ (f.p - 1) % 2 == 0 then .snan else .nan
  else
    let e := c / 2 ^ f.p
    let m := c % 2 ^ f.p
    if e = 0 then scale neg m (1 - f.bias - f.p) else scale neg (2 ^ f.p + m) (e - f.bias - f.p)

/-- A NaN of either kind. -/
def Val.isNan : Val → Bool
  | .nan | .snan => true
  | .inf _ | .fin _ _ _ => false
/-- A signalling NaN. -/
def Val.isSnan : Val → Bool
  | .snan => true
  | .nan | .inf _ | .fin _ _ _ => false
/-- A zero. -/
def Val.isZero : Val → Bool
  | .fin _ n _ => n == 0
  | .nan | .snan | .inf _ => false
/-- The sign bit of a number. -/
def Val.neg : Val → Bool
  | .inf s | .fin s _ _ => s
  | .nan | .snan => false
/-- The number with its sign inverted. -/
def Val.flip : Val → Val
  | .inf s => .inf (!s)
  | .fin s n d => .fin (!s) n d
  | .nan => .nan
  | .snan => .snan
/-- NV for a signalling input (R39). -/
def snanFlag (v : Val) : Flags := if v.isSnan then fNV else 0

/-- The floor of the binary logarithm of n/d, for n and d above zero. -/
def log2Frac (n d : Nat) : Int :=
  let e : Int := (n.log2 : Int) - d.log2
  if 0 ≤ e then (if d * 2 ^ e.toNat ≤ n then e else e - 1)
  else (if d ≤ n * 2 ^ (-e).toNat then e else e - 1)

/-- Rounding the quotient m and remainder r of a division by d to an integer (R32, R35, R37). `rnd` is
the lane's random word. -/
def roundQ (rm : Nat) (neg : Bool) (m r d rnd : Nat) : Nat :=
  if r = 0 then m
  else
    match rm with
    | 0 => if d < 2 * r ∨ (2 * r = d ∧ m % 2 = 1) then m + 1 else m
    | 1 => m
    | 2 => if neg then m + 1 else m
    | 3 => if neg then m else m + 1
    | 4 => if d ≤ 2 * r then m + 1 else m
    | 5 => if m % 2 = 0 then m + 1 else m
    | _ => if 2 ^ 32 ≤ 2 ^ 32 * r / d + rnd then m + 1 else m

/-- The sign bit of a code. -/
def Fmt.sign (f : Fmt) (neg : Bool) : Nat := if neg && f != .e3m5 then 2 ^ f.mag else 0

/-- The result of an overflow without saturation, and its NV (R36). -/
def overflowResult (f : Fmt) (rm : Nat) (neg : Bool) : Nat × Flags :=
  let toMax : Bool := rm == 1 || rm == 5 || (rm == 3 && neg) || (rm == 2 && !neg)
  if toMax then (f.sign neg + f.maxCode, 0)
  else if f.hasInf then (f.sign neg + f.maxCode + 1, 0)
  else (f.qnan, fNV)

/-- round of R34 on an exact value; rm is already a code of 0 to 6. -/
def roundVal (f : Fmt) (rm : Nat) (sat : Bool) (rnd : Nat) (x : Val) : Nat × Flags :=
  match x with
  | .nan => (f.qnan, 0)
  | .snan => (f.qnan, fNV)
  | .inf s =>
    if f.hasInf && !sat then (f.sign s + f.maxCode + 1, 0)
    else if sat then (f.sign s + f.maxCode, fSAT)
    else (f.qnan, fNV)
  | .fin s n d =>
    if n = 0 then (f.sign s, 0)
    else
      let emin : Int := 1 - f.bias
      let e := max (log2Frac n d) emin
      let k := e - f.p
      let n' := if k < 0 then n * 2 ^ (-k).toNat else n
      let d' := if k < 0 then d else d * 2 ^ k.toNat
      let m := n' / d'
      let r := n' % d'
      let m' := roundQ rm s m r d' rnd
      let inexact : Flags := if r = 0 then 0 else fNX
      let tiny : Flags := if r ≠ 0 ∧ e = emin ∧ m' < 2 ^ f.p then fUF else 0
      let code := (e + f.bias - 1).toNat * 2 ^ f.p + m'
      if code > f.maxCode then
        if sat then (f.sign s + f.maxCode, inexact ||| tiny ||| fOF ||| fNX ||| fSAT)
        else
          let o := overflowResult f rm s
          (o.1, inexact ||| tiny ||| fOF ||| fNX ||| o.2)
      else (f.sign s + code, inexact ||| tiny)

/-- Sum of two values (R39, R46): the sign of an exact zero depends on the mode. -/
def addVal (rm : Nat) (a b : Val) : Val × Flags :=
  let fl := snanFlag a ||| snanFlag b
  if a.isNan || b.isNan then (.nan, fl)
  else
    match a, b with
    | .inf s, .inf t => if s = t then (.inf s, 0) else (.nan, fNV)
    | .inf s, _ => (.inf s, 0)
    | _, .inf t => (.inf t, 0)
    | .fin s n d, .fin t m e =>
      if n = 0 ∧ m = 0 then (.fin (if s = t then s else rm == 2) 0 1, 0)
      else
        let x : Int := (if s then -1 else 1) * (n * e : Nat)
        let y : Int := (if t then -1 else 1) * (m * d : Nat)
        let z := x + y
        if z = 0 then (.fin (rm == 2) 0 1, 0) else (.fin (z < 0) z.natAbs (d * e), 0)
    | _, _ => (.nan, fl)

/-- Product of two values (R39). -/
def mulVal (a b : Val) : Val × Flags :=
  let fl := snanFlag a ||| snanFlag b
  if a.isNan || b.isNan then (.nan, fl)
  else
    let s := a.neg != b.neg
    match a, b with
    | .fin _ n d, .fin _ m e => (.fin s (n * m) (d * e), 0)
    | _, _ => if a.isZero || b.isZero then (.nan, fNV) else (.inf s, 0)

/-- Quotient of two values (R39). -/
def divVal (a b : Val) : Val × Flags :=
  let fl := snanFlag a ||| snanFlag b
  if a.isNan || b.isNan then (.nan, fl)
  else
    let s := a.neg != b.neg
    match a, b with
    | .inf _, .inf _ => (.nan, fNV)
    | .inf _, _ => (.inf s, 0)
    | _, .inf _ => (.fin s 0 1, 0)
    | .fin _ n d, .fin _ m e =>
      if m = 0 then if n = 0 then (.nan, fNV) else (.inf s, fDZ)
      else (.fin s (n * e) (d * m), 0)
    | _, _ => (.nan, fl)

/-- d + a × b formed exactly, or d − a × b (R39, R172). -/
def fmaVal (rm : Nat) (minus : Bool) (d a b : Val) : Val × Flags :=
  let p := mulVal a b
  let q := if minus then p.1.flip else p.1
  let invalid := !(a.isNan || b.isNan) && p.1.isNan
  if invalid then (.nan, fNV ||| snanFlag d)
  else
    let r := addVal rm d q
    (r.1, p.2 ||| r.2)

/-- The value between the fine steps m and m + 1 of 1/2^w, which rounds as every value between them. -/
def between (neg : Bool) (m w : Nat) : Val := .fin neg (2 * m + 1) (2 ^ (w + 1))

/-- Fine bits of the inexact functions. -/
def fineBits : Nat := 512

/-- Square root of n/d, exact or between two fine steps (R172). -/
def sqrtFrac (n d : Nat) : Val :=
  let x := n * 4 ^ fineBits / d
  let q := x.sqrt
  if q * q * d = n * 4 ^ fineBits then .fin false q (2 ^ fineBits) else between false q fineBits

/-- Square root (R39, R172). -/
def sqrtVal (a : Val) : Val × Flags :=
  match a with
  | .nan => (.nan, 0)
  | .snan => (.nan, fNV)
  | .inf s => if s then (.nan, fNV) else (.inf false, 0)
  | .fin s n d =>
    if n = 0 then (.fin s 0 1, 0) else if s then (.nan, fNV) else (sqrtFrac n d, 0)

/-- ln 2 in fine steps. -/
def ln2Fine : Nat := 0xb17217f7d1cf79abc9e3b39803f2f6af40f343267298b62d8a0d175b8baafa2be7b876206debac98559552fb4afa1b10ed2eae35c138214427573b291169b825
/-- log2 e in fine steps. -/
def log2eFine : Nat := 0x171547652b82fe1777d0ffda0d23a7d11d6aef551bad2b4b1164a2cd9a342648fbc3887eeaa2ed9ac49b25eeb82d7c167d52173cc1895213f897f5e06a7be7366

/-- Terms of the series of e^y from term n on; y and the term are in fine steps. -/
def expSeries (y : Nat) : Nat → Nat → Nat → Nat
  | 0, _, _ => 0
  | fuel + 1, n, term => term + expSeries y fuel (n + 1) (term * y / 2 ^ fineBits / (n + 1))

/-- 2^f for f from 0 to 1, both in fine steps. -/
def exp2Frac (f : Nat) : Nat := expSeries (f * ln2Fine / 2 ^ fineBits) 110 0 (2 ^ fineBits)

/-- 2^y for y in fine steps, as a fraction. -/
def exp2Fine (y : Int) : Nat × Nat :=
  let n := y / (2 ^ fineBits : Nat)
  let v := exp2Frac (y % (2 ^ fineBits : Nat)).toNat
  if 0 ≤ n then (v * 2 ^ n.toNat, 2 ^ fineBits) else (v, 2 ^ (fineBits + (-n).toNat))

/-- A value as fine steps, rounded down in magnitude; a magnitude above 2^11 counts as 2^11. -/
def toFine (neg : Bool) (n d : Nat) : Int :=
  let m := if 2 ^ 11 * d ≤ n then 2 ^ (11 + fineBits) else n * 2 ^ fineBits / d
  if neg then -(m : Int) else m

/-- Terms of the series of artanh z. -/
def atanhSeries (z2 : Nat) : Nat → Nat → Nat → Nat
  | 0, _, _ => 0
  | fuel + 1, n, term => term / n + atanhSeries z2 fuel (n + 2) (term * z2 / 2 ^ fineBits)

/-- ln m for m = a/b from 1 to 2, in fine steps. -/
def lnFine (a b : Nat) : Nat :=
  let z := (a - b) * 2 ^ fineBits / (a + b)
  2 * atanhSeries (z * z / 2 ^ fineBits) 170 1 z

/-- 2^a (R180). -/
def exp2Val (a : Val) : Val × Flags :=
  match a with
  | .nan => (.nan, 0)
  | .snan => (.nan, fNV)
  | .inf s => (if s then .fin false 0 1 else .inf false, 0)
  | .fin s n d =>
    if n % d = 0 ∧ n / d ≤ 2048 then
      (scale false 1 (if s then -((n / d : Nat) : Int) else ((n / d : Nat) : Int)), 0)
    else
      let e := exp2Fine (toFine s n d)
      (.fin false (2 * e.1 + 1) (2 * e.2), 0)

/-- log2 a (R180). -/
def log2Val (a : Val) : Val × Flags :=
  match a with
  | .nan => (.nan, 0)
  | .snan => (.nan, fNV)
  | .inf s => if s then (.nan, fNV) else (.inf false, 0)
  | .fin s n d =>
    if n = 0 then (.inf true, fDZ)
    else if s then (.nan, fNV)
    else
      let e := log2Frac n d
      let x := if 0 ≤ e then n else n * 2 ^ (-e).toNat
      let y := if 0 ≤ e then d * 2 ^ e.toNat else d
      if x = y then (.fin (decide (e < 0)) e.natAbs 1, 0)
      else
        let m := lnFine x y * 2 ^ fineBits / ln2Fine
        let t : Int := e * (2 ^ fineBits : Nat) + m
        (if 0 ≤ t then between false t.toNat fineBits else between true ((-t).toNat - 1) fineBits, 0)

/-- 1/a (R180). -/
def rcpVal (a : Val) : Val × Flags := divVal (.fin false 1 1) a

/-- 1/√a (R180). -/
def rsqrtVal (a : Val) : Val × Flags :=
  match a with
  | .nan => (.nan, 0)
  | .snan => (.nan, fNV)
  | .inf s => if s then (.nan, fNV) else (.fin false 0 1, 0)
  | .fin s n d => if n = 0 then (.inf s, fDZ) else if s then (.nan, fNV) else (sqrtFrac d n, 0)

/-- tanh a (R180): (e^(2a) − 1)/(e^(2a) + 1) in magnitude. -/
def tanhVal (a : Val) : Val × Flags :=
  match a with
  | .nan => (.nan, 0)
  | .snan => (.nan, fNV)
  | .inf s => (.fin s 1 1, 0)
  | .fin s n d =>
    if n = 0 then (.fin s 0 1, 0)
    else
      let e := exp2Fine (toFine false (2 * n) d * log2eFine / (2 ^ fineBits : Nat))
      (.fin s (2 * (e.1 - e.2) + 1) (2 * (e.1 + e.2) + 1), 0)

/-- 1/(1 + e^(−a)) (R180). -/
def sigmVal (a : Val) : Val × Flags :=
  match a with
  | .nan => (.nan, 0)
  | .snan => (.nan, fNV)
  | .inf s => (if s then .fin false 0 1 else .fin false 1 1, 0)
  | .fin s n d =>
    if n = 0 then (.fin false 1 2, 0)
    else
      let e := exp2Fine (toFine s n d * log2eFine / (2 ^ fineBits : Nat))
      (.fin false (2 * e.1 + 1) (2 * (e.1 + e.2) + 1), 0)

/-- Whether x is below y, for two numbers; zeros are equal (R52). -/
def ltVal (x y : Val) : Bool :=
  match x, y with
  | .inf s, .inf t => s && !t
  | .inf s, _ => s
  | _, .inf t => !t
  | .fin s n d, .fin t m e =>
    decide ((if s then -1 else 1 : Int) * (n * e : Nat) < (if t then -1 else 1 : Int) * (m * d : Nat))
  | _, _ => false

/-- The four outcomes of a comparison (R52). -/
inductive Cmp where
  | less | equal | greater | unordered
  deriving DecidableEq, Repr

/-- Classifies a pair (R52). -/
def cmpVal (x y : Val) : Cmp :=
  if x.isNan || y.isNan then .unordered
  else if ltVal x y then .less else if ltVal y x then .greater else .equal

/-- fcmp of R52 with its NV rule; the predicates are EQ, NE, LT, LE, GT, GE, UN and OR. -/
def fcmp (cc : Nat) (x y : Val) : Bool × Flags :=
  let c := cmpVal x y
  let quiet := x.isNan || y.isNan
  let sn := x.isSnan || y.isSnan
  let nv : Flags := if sn || (quiet && (2 ≤ cc && cc ≤ 5)) then fNV else 0
  let r := match cc with
    | 0 => c == .equal
    | 1 => c != .equal
    | 2 => c == .less
    | 3 => c == .less || c == .equal
    | 4 => c == .greater
    | 5 => c == .greater || c == .equal
    | 6 => c == .unordered
    | _ => c != .unordered
  (r, nv)

/-- The lesser or greater of two numbers, with −0 below +0 (R51). -/
def pickVal (greater : Bool) (x y : Val) : Val :=
  if x.isZero && y.isZero then (if x.neg != y.neg then (if x.neg == greater then y else x) else x)
  else if ltVal x y == greater then y else x

/-- fmin, fmax (`num` false) and fminn, fmaxn (`num` true) of R51. -/
def fminmax (greater num : Bool) (x y : Val) : Val × Flags :=
  let fl := snanFlag x ||| snanFlag y
  match x.isNan, y.isNan with
  | true, true => (.nan, fl)
  | true, false => (if num then y else .nan, fl)
  | false, true => (if num then x else .nan, fl)
  | false, false => (pickVal greater x y, fl)

/-- mix64 of R35. -/
def mix64 (z : Word) : Word :=
  let z := (z ^^^ (z >>> 30)) * 0xBF58476D1CE4E5B9
  let z := (z ^^^ (z >>> 27)) * 0x94D049BB133111EB
  z ^^^ (z >>> 31)

/-- The increment of the generator (R35). -/
def srGamma : Word := 0x9E3779B97F4A7C15

/-- sr_bits of R35. -/
def srBits (state : Word) (lane : Nat) : Nat :=
  (mix64 (state + BitVec.ofNat 64 (lane + 1) * srGamma)).toNat % 2 ^ 32

/-- A field read as a signed number (R53). -/
def sextI (x w : Nat) : Int :=
  let y := x % 2 ^ w
  if w ≠ 0 ∧ 2 ^ (w - 1) ≤ y then (y : Int) - (2 ^ w : Nat) else y

/-- wrap of R53. -/
def wrapI (v : Int) (w : Nat) : Nat := (v % (2 ^ w : Nat)).toNat

/-- sats and satn of R53: the clamped field and SAT. -/
def clampI (signed : Bool) (w : Nat) (v : Int) : Nat × Flags :=
  let lo : Int := if signed then -(2 ^ (w - 1) : Nat) else 0
  let hi : Int := if signed then (2 ^ (w - 1) : Nat) - 1 else (2 ^ w : Nat) - 1
  if v < lo then (wrapI lo w, fSAT) else if hi < v then (wrapI hi w, fSAT) else (wrapI v w, 0)

/-- An exact value that is an integer. -/
def ofInt (v : Int) : Val := .fin (decide (v < 0)) v.natAbs 1

/-- Float to integer (R37, R38): NaN gives 0; otherwise rounded and clamped. -/
def toInt (signed : Bool) (w rm rnd : Nat) (x : Val) : Nat × Flags :=
  match x with
  | .nan | .snan => (0, fNV)
  | .inf s =>
    ((clampI signed w (if s then -(2 ^ 200 : Nat) else (2 ^ 200 : Nat))).1, fNV)
  | .fin s n d =>
    let m := roundQ rm s (n / d) (n % d) d rnd
    let v : Int := if s then -(m : Int) else m
    let c := clampI signed w v
    if c.2 = 0 then (c.1, if n % d = 0 then 0 else fNX) else (c.1, fNV)

/-- rne32 of an exact value (R53). -/
def rne32 (x : Val) : Nat × Flags := roundVal .fp32 0 false 0 x
/-- The value of an FP32 code. -/
def v32 (c : Nat) : Val := valOf .fp32 c

/-- The exact sum of products of R46: NaN, infinities, or the sum; an exact zero is +0. -/
def exactSum (l : List (Val × Flags)) : Val × Flags :=
  let fl := l.foldl (fun f x => f ||| x.2) 0
  let bad := l.any (fun x => x.1.isNan)
  let pos := l.any (fun x => x.1 == .inf false)
  let neg := l.any (fun x => x.1 == .inf true)
  if bad || (pos && neg) then (.nan, fl ||| fNV)
  else if pos then (.inf false, fl)
  else if neg then (.inf true, fl)
  else
    let s := l.foldl (fun (acc : Int × Nat) x =>
      match x.1 with
      | .fin t n d =>
        (acc.1 * d + (if t then -1 else 1) * ((n * acc.2 : Nat) : Int), acc.2 * d)
      | _ => acc) (0, 1)
    if s.1 = 0 then (.fin false 0 1, fl) else (.fin (decide (s.1 < 0)) s.1.natAbs s.2, fl)

/-- ps + rne32(d) rounded to FP32 (R45, R50): the FP32 code of the sum and the flags of both roundings. -/
def sumStep (ps : Nat) (d : Val × Flags) : Nat × Flags :=
  let r := rne32 d.1
  let a := addVal 0 (v32 ps) (v32 r.1)
  let q := rne32 a.1
  (q.1, d.2 ||| r.2 ||| a.2 ||| q.2)

/-- The value of an E2M1 code (R25); the escape reads as −0 (R30). -/
def e2m1 (c : Nat) : Val := valOf .e2m1 c
/-- The value of an E3M5 code. -/
def e3m5 (c : Nat) : Val := valOf .e3m5 c

/-- The least nonzero E3M5 code whose value is not below n/d, or 0xFF (R31, R53). -/
def e3m5Ceil (n d : Nat) : Nat :=
  ((List.range 255).find? (fun c =>
    match e3m5 (c + 1) with
    | .fin _ m e => decide (n * e ≤ m * d)
    | _ => false)).elim 255 (fun c => c + 1)

/-- Byte of a byte list, zero past its end. -/
def byteAt (l : List Byte) (i : Nat) : Nat := (l.getD i 0).toNat
/-- Four bytes, the least significant first. -/
def wordAt (l : List Byte) (i : Nat) : Nat :=
  byteAt l i + 256 * byteAt l (i + 1) + 65536 * byteAt l (i + 2) + 16777216 * byteAt l (i + 3)

/-- A side-list entry of a segment (R27). -/
def sideEntry (seg : List Byte) (i : Nat) : Nat := wordAt seg (320 + 4 * i)
/-- The E2M1 code of element j (R26). -/
def segCode (seg : List Byte) (j : Nat) : Nat := byteAt seg (j / 2) / (if j % 2 = 0 then 1 else 16) % 16
/-- The scale code of the block of element j (R26). -/
def segScale (seg : List Byte) (j : Nat) : Nat := byteAt seg (256 + j / 8)
/-- V of a side-list entry. -/
def sideV (e : Nat) : Bool := e / 2 ^ 31 % 2 == 1
/-- IDX of a side-list entry. -/
def sideIdx (e : Nat) : Nat := e / 2 ^ 16 % 512

/-- The valid entries of a side list. -/
def sideList (seg : List Byte) : List Nat := ((List.range 16).map (sideEntry seg)).filter sideV

/-- A list that rises strictly. -/
def rising : List Nat → Bool
  | a :: b :: l => decide (a < b) && rising (b :: l)
  | _ => true

/-- R28: a well-formed segment. -/
def segWf (seg : List Byte) : Bool :=
  let vs := (List.range 16).map (sideEntry seg)
  let valid := sideList seg
  vs.take valid.length == valid &&
  rising (valid.map sideIdx) &&
  valid.all (fun e => segCode seg (sideIdx e) == 8 && segScale seg (sideIdx e) != 0 &&
    e / 2 ^ 25 % 64 == 0) &&
  (List.range 512).all (fun j => segCode seg j != 8 || valid.any (fun e => sideIdx e == j))

/-- The value of element j of a well-formed segment (R29). -/
def segVal (seg : List Byte) (j : Nat) : Val :=
  if segScale seg j = 0 then .fin false 0 1
  else if segCode seg j = 8 then
    match (sideList seg).find? (fun e => sideIdx e == j) with
    | some e => valOf .bf16 (e % 2 ^ 16)
    | none => .fin false 0 1
  else (mulVal (e2m1 (segCode seg j)) (e3m5 (segScale seg j))).1

/-- Whether abs(y) ≥ 2^(thr − 127) (R31). -/
def aboveThr (y : Val) (thr : Nat) : Bool :=
  match y with
  | .fin _ n d => if 127 ≤ thr then decide (d * 2 ^ (thr - 127) ≤ n) else decide (d ≤ n * 2 ^ (127 - thr))
  | .nan | .snan | .inf _ => true

/-- An outlier of R31. -/
def isOutlier (y : Val) (thr : Nat) : Bool :=
  match y with
  | .fin _ _ _ => thr < 255 && aboveThr y thr
  | .nan | .snan | .inf _ => true

/-- The greater magnitude of two finite values, as fractions. -/
def maxFrac (a b : Nat × Nat) : Nat × Nat := if a.1 * b.2 < b.1 * a.2 then b else a

/-- One block of the encoder of R31: the scale, the eight codes and the flags. For a block whose scale is 0x00 the quotient
has no value: its codes are 0b0000, without a flag: DESIGN CHOICE, unsafe (log 86). -/
def encBlock (ys : List Val) (thr : Nat) : Nat × List Nat × Flags :=
  let amax := (ys.filter (fun y => !isOutlier y thr)).foldl
    (fun a y => match y with | .fin _ n d => maxFrac a (n, d) | _ => a) (0, 1)
  let hasOut := ys.any (fun y => isOutlier y thr)
  if amax.1 = 0 && !hasOut then (0, ys.map (fun _ => 0), 0)
  else
    let sc := e3m5Ceil amax.1 (6 * amax.2)
    let cs := ys.map (fun y =>
      if isOutlier y thr then (8, (0 : Flags))
      else
        let q := divVal y (e3m5 sc)
        let r := roundVal .e2m1 0 true 0 q.1
        (if r.1 = 8 then 0 else r.1, r.2))
    (sc, cs.map (·.1), cs.foldl (fun f c => f ||| c.2) 0)

/-- Splits a list into runs of eight. -/
def chunks8 {α : Type} : Nat → List α → List (List α)
  | 0, _ => []
  | n + 1, l => l.take 8 :: chunks8 n (l.drop 8)

/-- Packs 4-bit codes in pairs. -/
def packNibbles : List Nat → List Byte
  | a :: b :: l => BitVec.ofNat 8 (a + 16 * b) :: packNibbles l
  | [a] => [BitVec.ofNat 8 a]
  | [] => []

/-- The four bytes of a word. -/
def bytes4 (x : Nat) : List Byte :=
  [BitVec.ofNat 8 x, BitVec.ofNat 8 (x / 256), BitVec.ofNat 8 (x / 65536), BitVec.ofNat 8 (x / 16777216)]

/-- enc_fp4seg of R31 on 512 values: the 384 bytes and the flags, or none on FORMAT. -/
def encSeg (ys : List Val) (thr : Nat) : Option (List Byte × Flags) :=
  let outs := (List.range 512).filter (fun j => isOutlier (ys.getD j (.fin false 0 1)) thr)
  if 16 < outs.length then none
  else
    let blocks := (chunks8 64 ys).map (fun b => encBlock b thr)
    let side := outs.map (fun j =>
      let r := roundVal .bf16 0 false 0 (ys.getD j (.fin false 0 1))
      (2 ^ 31 + j * 2 ^ 16 + r.1, r.2))
    let words := (side.map (·.1)) ++ List.replicate (16 - side.length) 0
    some (packNibbles (blocks.flatMap (·.2.1)) ++ blocks.map (fun b => BitVec.ofNat 8 b.1) ++
        words.flatMap bytes4,
      blocks.foldl (fun f b => f ||| b.2.2) (side.foldl (fun f e => f ||| e.2) 0))

end Sys2Proof.Machine
end

