-- ==== Sys2Proof/Machine/Maps.lean ====
section
/-! DEFINITION. Numbered maps, the byte memory in its canonical form, and the access functions of the
state's objects. -/

namespace Sys2Proof.Machine

/-- The entry of a number. -/
def mfind {α : Type} : SMap α → Nat → Option α
  | [], _ => none
  | (k', v) :: m, k => if k' = k then some v else mfind m k

/-- The entry of a number, or the value of a number that is not listed. -/
def mget {α : Type} (m : SMap α) (k : Nat) (d : α) : α := (mfind m k).getD d

/-- Sets the entry of a number; the numbers stay ascending. -/
def mset {α : Type} : SMap α → Nat → α → SMap α
  | [], k, v => [(k, v)]
  | (k', v') :: m, k, v =>
    if k' = k then (k, v) :: m
    else if k < k' then (k, v) :: (k', v') :: m
    else (k', v') :: mset m k v

/-- Removes the entry of a number. -/
def mdel {α : Type} : SMap α → Nat → SMap α
  | [], _ => []
  | (k', v') :: m, k => if k' = k then mdel m k else (k', v') :: mdel m k

/-- What a byte of memory reads as when no entry lists it (R517 stage 3, R68; log 5). -/
def memDefault : Byte := 0

/-- One byte of memory. -/
def memByte (m : List Host.Cell) (a : Nat) : Byte := mget m a memDefault

/-- Writes one byte; an entry never equals what an unlisted address reads as. -/
def memSet (m : List Host.Cell) (a : Nat) (b : Byte) : List Host.Cell :=
  if b = memDefault then mdel m a else mset m a b

/-- Addresses strictly rising, every one above `lo`. -/
def risingAbove : Nat → List Host.Cell → Bool
  | _, [] => true
  | lo, (a, _) :: m => decide (lo < a) && risingAbove a m

/-- The canonical form of memory: strictly rising addresses, no entry equal to the value of an unlisted
address. -/
def Memory.wf (m : List Host.Cell) : Bool :=
  (match m with
    | [] => true
    | (a, _) :: m' => risingAbove a m') && m.all (fun c => decide (c.2 ≠ memDefault))

/-- n bytes from an address, the least significant first, as a number. -/
def memNat (m : List Host.Cell) (a : Nat) : Nat → Nat
  | 0 => 0
  | n + 1 => (memByte m a).toNat + 256 * memNat m (a + 1) n

/-- Writes the n low bytes of a number, the least significant first. -/
def memPut (m : List Host.Cell) (a : Nat) (n x : Nat) : List Host.Cell :=
  match n with
  | 0 => m
  | n + 1 => memPut (memSet m a (BitVec.ofNat 8 x)) (a + 1) n (x / 256)

/-- n bytes from an address as a list. -/
def memBytes (m : List Host.Cell) (a : Nat) : Nat → List Byte
  | 0 => []
  | n + 1 => memByte m a :: memBytes m (a + 1) n

/-- Writes a list of bytes. -/
def memPutList (m : List Host.Cell) (a : Nat) : List Byte → List Host.Cell
  | [] => m
  | b :: bs => memPutList (memSet m a b) (a + 1) bs

/-- Writes the bytes of a list that a mask selects. -/
def memPutMask (m : List Host.Cell) (a : Nat) : List (Byte × Bool) → List Host.Cell
  | [] => m
  | (b, w) :: bs => memPutMask (if w then memSet m a b else m) (a + 1) bs

/-- The first address of host-physical memory in the model's one numbering of bytes. -/
def hostBase : Nat := 2 ^ 60
/-- The first address of the shared scratchpad. -/
def sharedBase : Nat := 2 ^ 61
/-- The first address of the core scratchpads. -/
def spBase : Nat := 2 ^ 62
/-- The first address of the lane-private slices. -/
def laneBase : Nat := 2 ^ 63

/-- A byte of a core's scratchpad (R259). -/
def spAddr (core o : Nat) : Nat := spBase + core * 2 ^ 21 + o
/-- A byte of the shared scratchpad (R259, R262). -/
def sharedAddr (o : Nat) : Nat := sharedBase + o
/-- A byte of a lane-private slice (R186). -/
def laneAddr (core lane o : Nat) : Nat := laneBase + core * 2 ^ 17 + lane * 2 ^ 10 + o

/-- A core of the package. -/
def State.core (s : State) (c : Nat) : Core := mget s.cores c (Core.start c)
/-- Replaces a core. -/
def State.setCore (s : State) (c : Nat) (x : Core) : State := { s with cores := mset s.cores c x }
/-- The strand of a core. -/
def State.strand (s : State) (c : Nat) : Strand := (s.core c).strand
/-- Replaces a strand. -/
def State.setStrand (s : State) (c : Nat) (x : Strand) : State :=
  s.setCore c { s.core c with strand := x }
/-- A die of the package. -/
def State.die (s : State) (d : Nat) : Die := mget s.dies d Die.start
/-- Replaces a die. -/
def State.setDie (s : State) (d : Nat) (x : Die) : State := { s with dies := mset s.dies d x }
/-- The die of a core (R144). -/
def dieOf (core : Nat) : Nat := core / 64
/-- The cluster of a core within its die (R144). -/
def clusterOf (core : Nat) : Nat := core % 64 / 4
/-- The strand whose instruction runs. -/
def State.me (s : State) : Strand := s.strand s.cur
/-- Replaces the strand whose instruction runs. -/
def State.setMe (s : State) (x : Strand) : State := s.setStrand s.cur x
/-- A log. -/
def State.log (s : State) (c : Nat) : Log := (s.core c).log
/-- Replaces a log. -/
def State.setLog (s : State) (c : Nat) (l : Log) : State := s.setCore c { s.core c with log := l }
/-- The package time of a core's die (R481). -/
def State.ptime (s : State) (core : Nat) : Word := (s.die (dieOf core)).ptime

/-- The world of a core: true when secure (R548). A firmware core serves both. -/
def State.secureCore (s : State) (core : Nat) : Bool :=
  isFirmware core || (mget s.secmap (dieOf core) 0).getLsbD (clusterOf core)

/-- A strand in F mode (R125). -/
def State.fmode (s : State) (core : Nat) : Bool := (s.strand core).mode

/-- A die that is present and authenticated (R519, R520). -/
def State.present (s : State) (d : Nat) : Bool := (s.die d).present

/-- Where the save image of a strand of a group is kept. -/
def imageKey (group core : Nat) : Nat := 512 * group + core

end Sys2Proof.Machine
end

