-- ==== Sys2Proof/Machine/Ops.lean ====
section
/-! DEFINITION. The shared operations of a strand: registers and their full/empty states (R55, R60,
R63 to R66), the end of an instruction, stalls (R104), events to firmware (R453), taking a trap and
returning from one (R117, R120 to R124, R142). -/

namespace Sys2Proof.Machine

/-- Trap causes (R116). -/
def cUNDEF : Cause := 0x01
def cEMPTY_READ : Cause := 0x02
def cMISALIGN : Cause := 0x03
def cPAGE : Cause := 0x04
def cPROTECT : Cause := 0x05
def cSHAPE : Cause := 0x06
def cFRAG_STATE : Cause := 0x07
def cCHANNEL_BROKEN : Cause := 0x08
def cLOG_POISON : Cause := 0x09
def cBARRIER_CLOBBER : Cause := 0x0A
def cATOM_TYPE : Cause := 0x0B
def cUE_DATA : Cause := 0x0C
def cPROOF_MISMATCH : Cause := 0x0D
def cFORMAT : Cause := 0x0E
def cPRIV : Cause := 0x0F
def cSPAN : Cause := 0x10
def cLINK_DEAD : Cause := 0x11
def cINTEGRITY : Cause := 0x12
def cSYSC : Cause := 0x13
def cBRK : Cause := 0x14
def cWINDOW : Cause := 0x15
def cRING : Cause := 0x16
def cABSENT : Cause := 0x17
def cCOPY_SUM : Cause := 0x18
def cTRAP : Cause := 0x19

/-- The physical vector register of a logical name (R60). -/
def physV (base : BitVec 4) (n : Nat) : Nat :=
  if 4 ≤ n ∧ n ≤ 19 then 4 + (n - 4 + base.toNat) % 16 else n

/-- The physical predicate register of a logical name (R60). -/
def physK (base : BitVec 4) (n : Nat) : Nat :=
  if 4 ≤ n then 4 + (n - 4 + base.toNat) % 4 else n

/-- The value of a general register; g0 reads as zero (R55). -/
def Strand.gval (t : Strand) (r : Nat) : Word := if r = 0 then 0 else mget t.g r 0
/-- The full/empty state of a general register; g0 is always Full (R55). -/
def Strand.gst (t : Strand) (r : Nat) : FE := if r = 0 then .full else mget t.gfe r .full
/-- Writes a general register, which leaves it Full (R63); a write to g0 is discarded (R55). -/
def Strand.setG (t : Strand) (r : Nat) (x : Word) : Strand :=
  if r = 0 then t else { t with g := mset t.g r x, gfe := mdel t.gfe r }
/-- Marks a general register Pending or Idle; g0 cannot be marked (R55). -/
def Strand.markG (t : Strand) (r : Nat) (f : FE) : Strand :=
  if r = 0 then t else { t with gfe := mset t.gfe r f }

/-- The value of a physical vector register. -/
def Strand.vval (t : Strand) (p : Nat) : VReg := mget t.v p 0
/-- The full/empty state of a physical vector register (R63). -/
def Strand.vst (t : Strand) (p : Nat) : FE := mget t.vfe p .full
/-- Writes a physical vector register, which leaves it Full (R63). -/
def Strand.setV (t : Strand) (p : Nat) (x : VReg) : Strand :=
  { t with v := mset t.v p x, vfe := mdel t.vfe p }
/-- Writes the value alone: the full/empty state was set when the command was sent. -/
def Strand.putV (t : Strand) (p : Nat) (x : VReg) : Strand := { t with v := mset t.v p x }
/-- Marks a physical vector register. -/
def Strand.markV (t : Strand) (p : Nat) (f : FE) : Strand := { t with vfe := mset t.vfe p f }

/-- The value of a physical predicate register; k0 reads all true (R55). -/
def Strand.kval (t : Strand) (p : Nat) : PReg := if p = 0 then BitVec.allOnes 1024 else mget t.k p 0
/-- Writes a physical predicate register; a write to k0 is discarded (R55). -/
def Strand.setK (t : Strand) (p : Nat) (x : PReg) : Strand :=
  if p = 0 then t else { t with k := mset t.k p x }

/-- A wait on a bounded queue of R113 that is full. -/
def Why.fullQueue : Why → Bool
  | .vectorFull => true
  | .queueFull _ => true
  | .tableQueue _ => true
  | .chanQueue _ => true
  | _ => false

/-- Puts a strand that could not issue into Stalled (R104). -/
def State.stall (s : State) (why : Why) : State :=
  s.setMe { s.me with
    st := if s.me.st = .halting then .halting else .stalled, why := why,
    blocked := if !why.fullQueue then none else if s.me.why = why then some (s.me.blocked.getD s.now) else some s.now }

/-- Stalls with the progress that the waiting instruction has made. -/
def State.waitOn (s : State) (w : Wait) (c : Cond) : State :=
  s.setMe { s.me with
    st := if s.me.st = .halting then .halting else .stalled, why := .until c, wait := some w,
    blocked := none }

/-- The end of an instruction of a strand: the strand is Running, nothing waits, the instruction
counts, and the pc is the given one. -/
def Strand.finish (t : Strand) (pc : Word) : Strand :=
  { t with st := .running, why := .none, wait := none, pc := pc, seq := t.seq + 1,
           retired := t.retired + 1, blocked := none }

/-- Ends the instruction with the strand `t` at the next word. -/
def State.endWith (s : State) (t : Strand) : Result State := .next (s.setMe (t.finish (t.pc + 4)))
/-- The moment from which words may be fetched (R107): a control transfer, or the end of an ACQ. -/
def State.fetchFrom (s : State) (core : Nat) (t : Strand) : Strand :=
  { t with ctlTick := s.now, ctlApp := (s.log core).app }
/-- Ends a control transfer of the strand `t` at its target. -/
def State.endAt (s : State) (t : Strand) (pc : Word) : Result State :=
  .next (s.setMe (s.fetchFrom s.cur (t.finish pc)))

/-- The 32 bytes of a record of the firmware event ring: kind and two arguments (R453; log 10). -/
def eventBytes (kind : Nat) (a0 a1 : Word) : Nat := kind + a0.toNat * 2 ^ 64 + a1.toNat * 2 ^ 128

/-- Posts an event to the firmware core of a die (R453). A full ring holds the event back. An entry wakes no SLEEP of that
core, since R138 does not list it among the wake events, although R124 has firmware wait on the queue with SLEEP: DESIGN
CHOICE, unsafe (log 97). -/
def State.post (s : State) (die kind : Nat) (a0 a1 : Word) : State :=
  let c := 64 * die
  let k := s.core c
  if k.evtail < k.evhead + 1024 ∧ k.evwait = [] then
    { s.setCore c { k with evtail := k.evtail + 1 } with
      mem := memPut s.mem (k.evbase.toNat % 2 ^ 56 + 32 * (k.evtail % 1024)) 32 (eventBytes kind a0 a1) }
  else s.setCore c { k with evwait := k.evwait ++ [(kind, a0, a1)] }

/-- Lets held events enter the ring as far as it has room (R453). -/
def State.drainEvents (s : State) (die : Nat) : Nat → State
  | 0 => s
  | n + 1 =>
    let c := 64 * die
    let k := s.core c
    match k.evwait with
    | [] => s
    | (kind, a0, a1) :: rest =>
      if k.evtail < k.evhead + 1024 then
        State.drainEvents ((s.setCore c { k with evwait := rest }).post die kind a0 a1) die n
      else s

/-- c.CAUSE from its fields (R120). -/
def causeWord (handle : BitVec 4) (step deferred : Bool) (code : BitVec 12) (cause : Cause) : Word :=
  (0 : BitVec 36) ++ handle ++ (0 : BitVec 2) ++ BitVec.ofBool step ++ BitVec.ofBool deferred ++
    code ++ cause

/-- Every outstanding producer, command and queue load of the strand is done (R67, R117). -/
def Strand.drained (t : Strand) : Bool :=
  t.pend.isEmpty && t.vcq.isEmpty && t.vq.all (fun q => q.2.all (fun e => e.fe != .pending))

/-- The trap registers of a trap (R120, R122); a GEXIT that traps is over (R393). -/
def Strand.record (t : Strand) (d : TrapDue) (deferred : Bool) : Strand :=
  { t with epc := d.epc, cause := causeWord d.handle d.step deferred d.code d.cause, tval := d.tval,
           due := none, deferred := [], wait := none, why := .none, gexit := none }
/-- The GEXIT of another strand of the group has reached this strand (R393): its wait has stage 8, and stage 9 once
its log is published. -/
def Strand.reached (t : Strand) : Bool :=
  match t.wait with
  | some w => decide (8 ≤ w.stage)
  | none => false
/-- An instruction that waits, also where its condition has come to hold and it has not tried again: one that names its
condition, a store that the log has no room for, or HALT (R103, R139, R301, R305). -/
def Strand.waiting (t : Strand) : Bool :=
  t.st == .halting || (match t.why with
    | .until _ => true
    | .log _ => true
    | _ => false)

/-- Entry of the handler at c.TVEC in F mode (R124). It is not taken for a control transfer that bounds how early its words
may have been fetched (R107): DESIGN CHOICE, safe (log 99). -/
def Strand.enterHandler (t : Strand) : Strand :=
  { t with st := .running, pmode := t.mode, mode := true, th := true, pc := t.tvec ++ (0 : BitVec 2) }
/-- A warm reset is due (R124). -/
def State.wantReset (s : State) : State := { s with resetDue := true }

/-- Taking a trap. In user mode the strand is Trapped, undecided, and a record goes to the firmware core
of its die (R122). In F mode the handler at c.TVEC is entered on the same core, and a trap inside a
handler stops the core and asks for a warm reset (R124). -/
def State.takeTrap (s : State) (core : Nat) (d : TrapDue) (deferred : Bool) : State :=
  let t := (s.strand core).record d deferred
  if t.mode then
    if t.th then (s.setStrand core { t with st := .done }).wantReset else s.setStrand core t.enterHandler
  else (s.setStrand core { t with st := .trapped, decided := false }).post (dieOf core) 2
      (BitVec.ofNat 64 core) t.cause

/-- The earlier of two deferred traps in program order (R117). -/
def earlier (a b : Deferred) : Deferred := if b.seq < a.seq then b else a

/-- Takes the trap that a drained strand owes: the earliest deferred one before the one latched at the
pc (R117). -/
def State.takeDue (s : State) (core : Nat) : State :=
  let t := s.strand core
  match t.deferred with
  | x :: xs =>
    let d := xs.foldl earlier x
    (s.setStrand core { t with found := d.time }).takeTrap core ⟨t.pc, d.cause, 0, 0, false, d.tval⟩ true
  | [] =>
    match t.due with
    | some d => s.takeTrap core d false
    | none => s

/-- The answer of a failed page request of a core is used up (R465). -/
def State.answered (s : State) (core : Nat) : State :=
  { s with priFail := s.priFail.filter (fun x => x.1 != core) }

/-- A trap is latched (R67, R117), with the package time at which it was found (R451). -/
def Strand.latch (t : Strand) (d : TrapDue) (time : Word) : Strand := { t with due := some d, found := time }

/-- Raises a trap: it is taken once every outstanding producer and earlier command is done (R67, R117),
and is latched until then. -/
def State.raiseDue (s : State) (core : Nat) (d : TrapDue) : State :=
  let t := (s.strand core).latch d (s.ptime core)
  if t.drained then ((s.setStrand core t).answered core).takeDue core
  else (s.setStrand core { t with st := if t.st = .halting then .halting else .stalled, why := .drain }).answered core

/-- WDOG of the context of a strand (R443). -/
def State.wdogOf (s : State) (asid : Option Nat) : Nat := (asid.bind (mfind s.ctxs)).elim 0 Ctx.wdog
/-- The watchdog of a group has counted to WDOG before this tick: the kill is decided (R443). -/
def Group.overdue (x : Group) (wdog now : Nat) : Bool :=
  x.expired || (x.st == .running && wdog != 0 && decide (x.progress + wdog < now))

/-- Progress of the group of a strand, as its watchdog counts it: it withdraws no kill that is decided (R443). -/
def State.progressed (s : State) (core : Nat) : State :=
  let t := s.strand core
  match t.group with
  | none => s
  | some g =>
    match mfind s.groups g with
    | some x =>
      let x := if x.overdue (s.wdogOf t.asid) s.now then { x with expired := true } else { x with progress := s.now }
      { s with groups := mset s.groups g x }
    | none => s

/-- The BRK of single step (R121): the strand `old` has completed an instruction in user mode. -/
def State.singleStep (s : State) (core : Nat) (old : Strand) : State :=
  let t := s.strand core
  if old.ss && !old.mode && t.retired != old.retired && t.st == .running then
    s.raiseDue core ⟨t.pc, cBRK, 0, 0, true, 0⟩
  else s

/-- A precise trap of the instruction at the pc (R116, R117). -/
def State.trap (s : State) (cause : Cause) (tval : Word) : Result State :=
  .next (s.raiseDue s.cur ⟨s.me.pc, cause, 0, 0, false, tval⟩)

/-- A precise trap with a code (R141). -/
def State.trapCode (s : State) (cause : Cause) (code : BitVec 12) : Result State :=
  .next (s.raiseDue s.cur ⟨s.me.pc, cause, code, 0, false, 0⟩)

/-- The code of R120 for a table or channel by its handle: 1 to 4 for f0 to f3, 5 to 12 for ch0 to ch7. -/
def handleCode (h : Nat) : Nat := if h < 4 then h + 1 else h - 3

/-- A precise trap that names the table or channel whose fault it reports (R120, R131). -/
def State.trapHandle (s : State) (cause : Cause) (handle : BitVec 4) (tval : Word) : Result State :=
  .next (s.raiseDue s.cur ⟨s.me.pc, cause, 0, handle, false, tval⟩)

/-- Return from a trap (R142): pc, mode and handler bit in one step. -/
def Strand.eret (t : Strand) : Strand :=
  { t with mode := t.pmode, th := false }

/-- c.TVAL of an EMPTY_READ (R116). -/
def emptyTval (v : Bool) (n : Nat) : Word := BitVec.ofNat 64 ((if v then 64 else 0) + n % 32)

/-- What reading a source register does (R63, R65): it is there, it makes the issue wait, or it traps. -/
inductive Src1 where
  | ok
  | wait (w : Why)
  | empty (tval : Word)
  deriving DecidableEq, Repr

/-- Reading a general register under a policy (R63, R65): true is trap. -/
def Strand.readG (t : Strand) (r : Reg) (trap : Bool) : Src1 :=
  match t.gst r.toNat with
  | .full => .ok
  | .pending => if trap then .empty (emptyTval false r.toNat) else .wait (.reg false r.toNat)
  | .idle => .empty (emptyTval false r.toNat)

/-- The first EMPTY_READ among some sources. -/
def firstEmpty : List Src1 → Option Word
  | [] => none
  | .empty t :: _ => some t
  | _ :: l => firstEmpty l

/-- The first wait among some sources. -/
def firstWait : List Src1 → Option Why
  | [] => none
  | .wait w :: _ => some w
  | _ :: l => firstWait l

/-- Source reads before the rest of an instruction: an EMPTY_READ is decided at decode, ahead of any
wait (R92, R108; log 11). -/
def State.gate (s : State) (l : List Src1) (k : Result State) : Result State :=
  match firstEmpty l with
  | some tv => s.trap cEMPTY_READ tv
  | none =>
    match firstWait l with
    | some w => .next (s.stall w)
    | none => k

/-- One source register. -/
def State.src1 (s : State) (a : Reg) (pa : Bool) (k : Word → Result State) : Result State :=
  s.gate [s.me.readG a pa] (k (s.me.gval a.toNat))

/-- Two source registers. -/
def State.src2 (s : State) (a : Reg) (pa : Bool) (b : Reg) (pb : Bool)
    (k : Word → Word → Result State) : Result State :=
  s.gate [s.me.readG a pa, s.me.readG b pb] (k (s.me.gval a.toNat) (s.me.gval b.toNat))

/-- Three source registers. -/
def State.src3 (s : State) (a : Reg) (pa : Bool) (b : Reg) (pb : Bool) (c : Reg) (pc : Bool)
    (k : Word → Word → Word → Result State) : Result State :=
  s.gate [s.me.readG a pa, s.me.readG b pb, s.me.readG c pc]
    (k (s.me.gval a.toNat) (s.me.gval b.toNat) (s.me.gval c.toNat))

/-- An instruction whose destination is Pending waits (R66). -/
def State.dest (s : State) (d : Reg) (k : Result State) : Result State :=
  if s.me.gst d.toNat = .pending then .next (s.stall (.reg false d.toNat)) else k

/-- Writes a general register and ends the instruction. -/
def State.write (s : State) (d : Reg) (x : Word) : Result State :=
  s.dest d (s.endWith (s.me.setG d.toNat x))

/-- Marks a general register Pending, starts its producer, and ends the instruction (R64). -/
def State.produce (s : State) (d : Reg) (src : Src) : Result State :=
  s.dest d (s.endWith
    { s.me.markG d.toNat .pending with pend := s.me.pend ++ [⟨.g d.toNat, src, s.me.seq, [], none⟩] })

end Sys2Proof.Machine
end

