-- ==== Sys2Proof/Machine/Flags.lean ====
section
/-! DEFINITION. The flag computations: the sticky flags of a strand and of a fragment (R40, R43, R44),
the rounding mode in force (R33, R41) and the stochastic generator (R35, R42). -/

namespace Sys2Proof.Machine

/-- Sets sticky flags of a strand; nothing but a write of 1 clears them (R40, R43). -/
def Strand.flag (t : Strand) (f : Flags) : Strand := { t with fflags := t.fflags ||| f }

/-- A CSET of c.FFLAGS clears the flags whose bits are 1 (R40). -/
def Strand.clearFlags (t : Strand) (x : Word) : Strand :=
  { t with fflags := t.fflags &&& ~~~(x.extractLsb' 0 6) }

/-- A CSET of c.FRM; a write of 7 leaves the field unchanged (R41). -/
def Strand.setFrm (t : Strand) (x : Word) : Strand :=
  if x.extractLsb' 0 3 = 7 then t else { t with frm := x.extractLsb' 0 3 }

/-- The rounding mode that a rounding field selects (R32, R33): 7 is c.FRM. -/
def Strand.rmode (t : Strand) (rm : BitVec 3) : Nat := if rm = 7 then t.frm.toNat else rm.toNat

/-- The advance of c.SRSTATE after an instruction that rounds an active lane with SR (R35). -/
def Strand.advanceSr (t : Strand) : Strand := { t with srstate := t.srstate + 1024 * srGamma }

/-- The flags that the reduction tile sets: NV and OF for float types, SAT for integer wrap, never NX
or UF (R44, R181). -/
def tileFlags (f : Flags) : Flags := f &&& (fNV ||| fOF ||| fSAT)

/-- The flags that the array keeps (R44): NV and OF. -/
def Frag.flag (x : Frag) (f : Flags) (iov : Bool) : Frag :=
  { x with nv := x.nv || f &&& fNV != 0, ovf := x.ovf || f &&& fOF != 0, iov := x.iov || iov }

end Sys2Proof.Machine
end

