-- ==== Sys2Proof/Machine/Lanes.lean ====
section
/-! DEFINITION. What the vector instructions compute (R165, R166, R171 to R182, R50): elements, lanes and
groups, and the result of each function on values that have been read. -/

namespace Sys2Proof.Machine

/-- Element i of width w of a register (R165). -/
def elem (x : VReg) (w i : Nat) : Nat := x.toNat / 2 ^ (w * i) % 2 ^ w
/-- Elements of width w as a number, the first least significant. -/
def packW (w : Nat) : List Nat → Nat
  | [] => 0
  | x :: xs => x % 2 ^ w + 2 ^ w * packW w xs
/-- A register from its elements. -/
def ofElems (w : Nat) (l : List Nat) : VReg := BitVec.ofNat 4096 (packW w l)
/-- The element count of a width (R165). -/
def laneCount (w : Nat) : Nat := 4096 / w
/-- Whether lane i of a width is active (R57, R165). -/
def activeLane (k : PReg) (w i : Nat) : Bool := k.getLsbD (i * w / 4)
/-- Lane i of a group of m registers (R166). -/
def groupElem (g : List VReg) (m w i : Nat) : Nat := elem (g.getD (i % m) 0) w (i / m)

/-- The results of the lanes: nothing for an inactive one, and the flags of the active ones (R43, R165). -/
def runLanes (n : Nat) (act : Nat → Bool) (f : Nat → Nat × Flags) : List (Option Nat) × Flags :=
  (List.range n).foldr (fun i acc =>
    if act i then
      let r := f i
      (some r.1 :: acc.1, acc.2 ||| r.2)
    else (none :: acc.1, acc.2)) ([], 0)

/-- Every m-th entry of a list, from the j-th on. -/
def deal {α : Type} (m j : Nat) (l : List α) : List α :=
  (l.zipIdx.filter (fun x => x.2 % m == j)).map (·.1)

/-- One destination register: lanes with a result take it, others become zero or keep their value
(R165). -/
def mergeReg (w : Nat) (zm : Bool) (old : VReg) (l : List (Option Nat)) : VReg :=
  ofElems w (l.zipIdx.map fun x =>
    match x.1 with
    | some v => v
    | none => if zm then 0 else elem old w x.2)

/-- A group of destination registers (R166). -/
def mergeGroup (m w : Nat) (zm : Bool) (olds : List VReg) (l : List (Option Nat)) : List VReg :=
  (List.range m).map fun j => mergeReg w zm (olds.getD j 0) (deal m j l)

/-- The rounding in force: mode, SAT, and the generator's state (R33 to R35). -/
structure Rnd where
  rm : Nat
  sat : Bool
  sr : Word
  deriving DecidableEq, Repr

/-- Rounds lane i (R34, R35). -/
def Rnd.round (r : Rnd) (f : Fmt) (i : Nat) (x : Val × Flags) : Nat × Flags :=
  let q := roundVal f r.rm r.sat (srBits r.sr i) x.1
  (q.1, x.2 ||| q.2)

/-- The float format of a type code (R74). -/
def fmtOf (ty : Nat) : Fmt :=
  match ty with
  | 4 => .fp16
  | 5 => .bf16
  | 6 => .fp32
  | _ => .e2m1

/-- An integer element: signed but for n8 (R171). -/
def intElem (ty w x : Nat) : Int := if ty = 1 then ((x % 2 ^ w : Nat) : Int) else sextI x w
/-- Wraps, or clamps under SAT (R171). -/
def fitInt (ty w : Nat) (sat : Bool) (v : Int) : Nat × Flags :=
  if sat then clampI (ty != 1) w v else (wrapI v w, 0)

/-- The integer functions on one lane (R171). -/
def intLane (op : VOp) (ty w : Nat) (sat : Bool) (a b : Nat) : Nat × Flags :=
  let x := intElem ty w a
  let y := intElem ty w b
  let s := b % w
  match op with
  | .vadd => fitInt ty w sat (x + y)
  | .vsub => fitInt ty w sat (x - y)
  | .vmul => fitInt ty w sat (x * y)
  | .vmulh => (wrapI (x * y / (2 ^ w : Nat)) w, 0)
  | .vimin => (if y < x then b else a, 0)
  | .vimax => (if x < y then b else a, 0)
  | .vand => (a &&& b, 0)
  | .vor => (a ||| b, 0)
  | .vxor => (a ^^^ b, 0)
  | .vshl => (a * 2 ^ s % 2 ^ w, 0)
  | .vshr => (a / 2 ^ s, 0)
  | .vsar => (wrapI (sextI a w / (2 ^ s : Nat)) w, 0)
  | .vabs => fitInt ty w sat (if x < 0 then -x else x)
  | _ => (0, 0)

/-- A code with its sign cleared or inverted; a NaN becomes canonical (R172). -/
def signLane (f : Fmt) (invert : Bool) (a : Nat) : Nat × Flags :=
  let v := valOf f a
  if v.isNan then (f.qnan, snanFlag v)
  else if invert then ((if a / 2 ^ f.mag % 2 = 1 then a - 2 ^ f.mag else a + 2 ^ f.mag), 0)
  else (a % 2 ^ f.mag, 0)

/-- An exact result of a minimum or maximum, as a code (R51, R172). -/
def exactLane (f : Fmt) (x : Val × Flags) : Nat × Flags := ((roundVal f 0 false 0 x.1).1, x.2)

/-- The floating-point functions on one lane (R172, R180). -/
def floatLane (op : VOp) (f : Fmt) (r : Rnd) (i a b d : Nat) : Nat × Flags :=
  let x := valOf f a
  let y := valOf f b
  match op with
  | .vfadd => r.round f i (addVal r.rm x y)
  | .vfsub => r.round f i (addVal r.rm x y.flip)
  | .vfmul => r.round f i (mulVal x y)
  | .vfma => r.round f i (fmaVal r.rm false (valOf f d) x y)
  | .vfms => r.round f i (fmaVal r.rm true (valOf f d) x y)
  | .vdiv => r.round f i (divVal x y)
  | .vsqrt => r.round f i (sqrtVal x)
  | .vmin => exactLane f (fminmax false false x y)
  | .vmax => exactLane f (fminmax true false x y)
  | .vminn => exactLane f (fminmax false true x y)
  | .vmaxn => exactLane f (fminmax true true x y)
  | .vfabs => signLane f false a
  | .vfneg => signLane f true a
  | .vexp2 => r.round f i (exp2Val x)
  | .vlog2 => r.round f i (log2Val x)
  | .vrcp => r.round f i (rcpVal x)
  | .vrsqrt => r.round f i (rsqrtVal x)
  | .vtanh => r.round f i (tanhVal x)
  | .vsigm => r.round f i (sigmVal x)
  | _ => (0, 0)

/-- Conversion of one lane (R38, R173). A wider float keeps every value, an infinity too, whatever the saturate bit. -/
def cvtLane (src dst : Nat) (r : Rnd) (i a : Nat) : Nat × Flags :=
  let rnd := srBits r.sr i
  let wd := tyWidth (BitVec.ofNat 3 dst)
  let ws := tyWidth (BitVec.ofNat 3 src)
  let v : Val := if src < 4 then ofInt (intElem src ws a) else valOf (fmtOf src) a
  if dst < 4 then
    if src < 4 then fitInt dst wd r.sat (intElem src ws a)
    else toInt (dst != 1) wd r.rm rnd v
  else if dst = 7 then
    if v.isNan then (0, fNV)
    else
      let q := roundVal .e2m1 r.rm true rnd v
      (if q.1 = 8 then 0 else q.1, q.2)
  else roundVal (fmtOf dst) r.rm (r.sat && !(4 ≤ src && ws < wd)) rnd v

/-- Element i of the permutes that have no predicate of their own (R176); s is the first of the pair. -/
def permElem (op : VOp) (ty w : Nat) (a b : VReg) (s i : Nat) : Nat :=
  let n := laneCount w
  match op with
  | .vperm =>
    let j := elem b w i
    let base := if ty = 7 then i &&& 0x3F0 else if w = 8 then i &&& 0x100 else 0
    elem a w (if w ≥ 16 then j % n else base ||| j)
  | .vzip => if i % 2 = 0 then elem a w (i / 2) else elem b w ((i - 1) / 2)
  | .vunzip => if i < n / 2 then elem a w (2 * i) else elem b w (2 * (i - n / 2))
  | .vrot => elem a w ((i + s % n) % n)
  | .vslideup => let t := min s n; if t ≤ i then elem a w (i - t) else elem b w (n - t + i)
  | .vslidedn => let t := min s n; if i + t < n then elem a w (i + t) else elem b w (i + t - n)
  | .vrev => elem a w (n - 1 - i)
  | .vmov => elem a w i
  | _ => 0

/-- The active lanes below lane i. -/
def activeBelow (k : PReg) (w i : Nat) : Nat := ((List.range i).filter (activeLane k w)).length

/-- The compares of VICMP on one lane (R85, R177). -/
def icmp (cc w a b : Nat) : Bool :=
  match cc with
  | 0 => a == b
  | 1 => a != b
  | 2 => decide (sextI a w < sextI b w)
  | 3 => decide (sextI a w ≤ sextI b w)
  | 4 => a < b
  | _ => a ≤ b

/-- A predicate from lane outcomes: each sets all w/4 bits of its element (R177). -/
def predOf (w : Nat) (zm : Bool) (old : PReg) (l : List (Option Nat)) : PReg :=
  let u := w / 4
  BitVec.ofNat 1024 (packW u (l.zipIdx.map fun x =>
    match x.1 with
    | some v => if v = 1 then 2 ^ u - 1 else 0
    | none => if zm then 0 else old.toNat / 2 ^ (u * x.2) % 2 ^ u))

/-- The value of one input of the reduction tile; inactive lanes contribute zero (R50). -/
def tileVal (ty : Nat) (x : Option Nat) : Val × Flags :=
  match x with
  | none => (.fin false 0 1, 0)
  | some a =>
    let v := valOf (fmtOf ty) a
    (if v.isNan then .nan else v, snanFlag v)
/-- The integer value of one input of the reduction tile. -/
def tileInt (ty : Nat) (x : Option Nat) : Int :=
  match x with
  | none => 0
  | some a => intElem ty 8 a

/-- The group width of the reduction tile (R50). -/
def tileGroup (ty : Nat) : Nat := if ty < 4 then 32 else if ty = 6 then 4 else 16

/-- One group of a float scan: the running values and flags of its inclusive sums (R50). -/
def scanGroup (base : Nat) (l : List (Val × Flags)) : List Nat × Flags :=
  (List.range l.length).foldr (fun i acc =>
    let r := sumStep base (exactSum (l.take (i + 1)))
    (r.1 :: acc.1, acc.2 ||| r.2)) ([], 0)

/-- vscan of R50 for float types: each result, and the flags. -/
def scanFloat (g : Nat) : Nat → Nat → List (Val × Flags) → List Nat × Flags
  | 0, _, _ => ([], 0)
  | n + 1, base, l =>
    let r := scanGroup base (l.take g)
    let q := scanFloat g n (r.1.getLastD base) (l.drop g)
    (r.1 ++ q.1, r.2 ||| q.2)

/-- vsum of R50 for float types. -/
def sumFloat (g : Nat) : Nat → Nat → List (Val × Flags) → Nat × Flags
  | 0, ps, _ => (ps, 0)
  | n + 1, ps, l =>
    let r := sumStep ps (exactSum (l.take g))
    let q := sumFloat g n r.1 (l.drop g)
    (q.1, r.2 ||| q.2)

/-- wrap(·, 32) with SAT on overflow (R50). -/
def wrapSat (v : Int) : Nat × Flags :=
  let c := clampI true 32 v
  (wrapI v 32, c.2)

/-- One group of an integer scan (R50). -/
def scanIntGroup (base : Nat) (l : List Int) : List Nat × Flags :=
  (List.range l.length).foldr (fun i acc =>
    let d := wrapSat ((l.take (i + 1)).sum)
    let r := wrapSat (sextI base 32 + sextI d.1 32)
    (r.1 :: acc.1, acc.2 ||| d.2 ||| r.2)) ([], 0)

/-- vscan of R50 for integer types. -/
def scanInt (g : Nat) : Nat → Nat → List Int → List Nat × Flags
  | 0, _, _ => ([], 0)
  | n + 1, base, l =>
    let r := scanIntGroup base (l.take g)
    let q := scanInt g n (r.1.getLastD base) (l.drop g)
    (r.1 ++ q.1, r.2 ||| q.2)

/-- vsum of R50 for integer types. -/
def sumInt (g : Nat) : Nat → Nat → List Int → Nat × Flags
  | 0, ps, _ => (ps, 0)
  | n + 1, ps, l =>
    let d := wrapSat ((l.take g).sum)
    let r := wrapSat (sextI ps 32 + sextI d.1 32)
    let q := sumInt g n r.1 (l.drop g)
    (q.1, d.2 ||| r.2 ||| q.2)

/-- The source lanes of the reduction tile. -/
def tileLanes (w : Nat) (act : Nat → Bool) (a : VReg) : List (Option Nat) :=
  (List.range (laneCount w)).map fun i => if act i then some (elem a w i) else none

/-- VSUM and VSCAN (R181): the destination registers and the flags. -/
def tileResult (scan : Bool) (ty : Nat) (act : Nat → Bool) (zm : Bool) (a : VReg) (olds : List VReg) :
    List VReg × Flags :=
  let w := tyWidth (BitVec.ofNat 3 ty)
  let n := laneCount w
  let g := tileGroup ty
  let ls := tileLanes w act a
  if scan then
    let r := if ty < 4 then scanInt g (n / g) 0 (ls.map (tileInt ty))
      else scanFloat g (n / g) 0 (ls.map (tileVal ty))
    let out := r.1.zipIdx.map (fun x => if act x.2 then some x.1 else none)
    (mergeGroup (32 / w) 32 zm olds out, tileFlags r.2)
  else
    let r := if ty < 4 then sumInt g (n / g) 0 (ls.map (tileInt ty))
      else sumFloat g (n / g) 0 (ls.map (tileVal ty))
    ([ofElems 32 [r.1]], tileFlags r.2)

/-- VRMAX and VRMIN over the active lanes (R182). -/
def reduceLanes (greater : Bool) (ty w : Nat) (l : List Nat) : Nat × Flags :=
  if ty < 4 then
    let signed := ty != 1
    let id : Nat :=
      if greater then (if signed then 2 ^ (w - 1) else 0)
      else (if signed then 2 ^ (w - 1) - 1 else 2 ^ w - 1)
    (l.foldl (fun m x =>
      if (intElem ty w m < intElem ty w x) == greater && intElem ty w m != intElem ty w x then x else m) id, 0)
  else
    let f := fmtOf ty
    let r := l.foldl (fun (m : Val × Flags) x =>
      let q := fminmax greater false m.1 (valOf f x)
      (q.1, m.2 ||| q.2)) (.inf greater, 0)
    exactLane f r

/-- The operands of a vector command: register values by role, predicates, the pair and the rounding. -/
structure VIn where
  a : List VReg
  b : VReg
  d : List VReg
  ka : PReg
  kb : PReg
  kd : PReg
  act : PReg
  zm : Bool
  p0 : Word
  p1 : Word
  r : Rnd
  deriving DecidableEq, Repr

/-- What a command writes. -/
inductive VRes where
  | regs (xs : List VReg)
  | pred (x : PReg)
  | word (x : Word)
  | format
  deriving DecidableEq, Repr

/-- A lane-wise function into one register. -/
def VIn.lanes (x : VIn) (w : Nat) (f : Nat → Nat × Flags) : VRes × Flags :=
  let r := runLanes (laneCount w) (activeLane x.act w) f
  (.regs [mergeReg w x.zm (x.d.getD 0 0) r.1], r.2)

/-- A lane-wise conversion of the narrower width w, from a group of `ms` to a group of `md`. -/
def VIn.convert (x : VIn) (ty dst : Nat) : VRes × Flags :=
  let ws := tyWidth (BitVec.ofNat 3 ty)
  let wd := tyWidth (BitVec.ofNat 3 dst)
  let w := min ws wd
  let ms := ws / w
  let md := wd / w
  let r := runLanes (laneCount w) (activeLane x.act w) (fun i => cvtLane ty dst x.r i (groupElem x.a ms ws i))
  (.regs (mergeGroup md wd x.zm x.d r.1), r.2)

/-- VENC4 (R31, R174). -/
def VIn.encode (x : VIn) (ty : Nat) : VRes × Flags :=
  let w := tyWidth (BitVec.ofNat 3 ty)
  let m := w / 8
  let band := valOf .bf16 (x.b.toNat % 2 ^ 16)
  let ys := (List.range 512).map fun j =>
    let q := divVal (valOf (fmtOf ty) (groupElem x.a m w j)) band
    let y := rne32 q.1
    (v32 y.1, q.2 ||| y.2)
  match encSeg (ys.map (·.1)) (x.b.toNat / 2 ^ 16 % 256) with
  | none => (.format, 0)
  | some (bs, fl) =>
    (.regs [ofElems 8 (bs.map BitVec.toNat)], ys.foldl (fun f y => f ||| y.2) fl)

/-- VDEC4 (R29, R174). -/
def VIn.decode (x : VIn) (ty : Nat) : VRes × Flags :=
  let w := tyWidth (BitVec.ofNat 3 ty)
  let m := w / 8
  let band := valOf .bf16 (x.b.toNat % 2 ^ 16)
  let seg := (List.range 384).map (fun i => BitVec.ofNat 8 (elem (x.a.getD 0 0) 8 i))
  if segWf seg then
    let r := runLanes 512 (fun _ => true) (fun j => x.r.round (fmtOf ty) j (mulVal (segVal seg j) band))
    (.regs (mergeGroup m w true x.d r.1), r.2)
  else (.format, 0)

/-- VGET (R175). -/
def getElem (ty w : Nat) (a : VReg) (p0 : Word) : Word :=
  let e := elem a w (p0.toNat % laneCount w)
  if ty = 0 || ty = 2 || ty = 3 then BitVec.ofInt 64 (sextI e w) else BitVec.ofNat 64 e

/-- Lanes active under the governing predicate whose bit in a predicate is set (R179). -/
def VIn.hits (x : VIn) (w : Nat) : List Nat :=
  (List.range (laneCount w)).filter (fun i => activeLane x.act w i && activeLane x.ka w i)

/-- What a vector command computes (R171 to R182). Memory, VSUM and VSCAN have their own rules. -/
def VIn.compute (x : VIn) (op : VOp) (o : OpV) : VRes × Flags :=
  let ty := o.ty.toNat
  let w := tyWidth o.ty
  let n := laneCount w
  let a := x.a.getD 0 0
  match op with
  | .vadd | .vsub | .vmul | .vmulh | .vimin | .vimax | .vand | .vor | .vxor | .vshl | .vshr | .vsar
  | .vabs => x.lanes w (fun i => intLane op ty w x.r.sat (elem a w i) (elem x.b w i))
  | .vfadd | .vfsub | .vfmul | .vfma | .vfms | .vdiv | .vsqrt | .vmin | .vmax | .vminn | .vmaxn
  | .vfabs | .vfneg | .vexp2 | .vlog2 | .vrcp | .vrsqrt | .vtanh | .vsigm =>
    x.lanes w (fun i =>
      floatLane op (fmtOf ty) x.r i (elem a w i) (elem x.b w i) (elem (x.d.getD 0 0) w i))
  | .vcvt | .vcvtw | .vcvtn => x.convert ty (cvtTy o).toNat
  | .venc4 => x.encode ty
  | .vdec4 => x.decode ty
  | .vperm | .vzip | .vunzip | .vrot | .vslideup | .vslidedn | .vrev | .vmov =>
    x.lanes w (fun i => (permElem op ty w a x.b x.p0.toNat i, 0))
  | .vcompress =>
    let l := ((List.range n).filter (activeLane x.act w)).map (elem a w)
    (.regs [ofElems w (l ++ ((List.range n).drop l.length).map (elem x.b w))], 0)
  | .vexpand => x.lanes w (fun i => (elem a w (activeBelow x.act w i), 0))
  | .vsplat => x.lanes w (fun i => ((if i % 2 = 0 then x.p0 else x.p1).toNat % 2 ^ w, 0))
  | .viota =>
    x.lanes w (fun i =>
      (if ty < 4 then i % 2 ^ w else (roundVal (fmtOf ty) 0 false 0 (.fin false i 1)).1, 0))
  | .vget => (.word (getElem ty w a x.p0), 0)
  | .vset =>
    let d := x.d.getD 0 0
    (.regs [ofElems w ((List.range n).map (fun i =>
      if i = x.p0.toNat % n then x.p1.toNat % 2 ^ w else elem d w i))], 0)
  | .vfcmp =>
    let r := runLanes n (activeLane x.act w) (fun i =>
      let c := fcmp (o.gp.toNat % 8) (valOf (fmtOf ty) (elem a w i)) (valOf (fmtOf ty) (elem x.b w i))
      (c.1.toNat, c.2))
    (.pred (predOf w x.zm x.kd r.1), r.2)
  | .vicmp =>
    let r := runLanes n (activeLane x.act w) (fun i =>
      ((icmp (o.gp.toNat % 8) w (elem a w i) (elem x.b w i)).toNat, 0))
    (.pred (predOf w x.zm x.kd r.1), r.2)
  | .kand => (.pred (x.ka &&& x.kb), 0)
  | .kor => (.pred (x.ka ||| x.kb), 0)
  | .kxor => (.pred (x.ka ^^^ x.kb), 0)
  | .kandn => (.pred (x.ka &&& ~~~x.kb), 0)
  | .knot => (.pred (~~~x.ka), 0)
  | .kpopc => (.word (BitVec.ofNat 64 (x.hits w).length), 0)
  | .kfirst => (.word (BitVec.ofNat 64 ((x.hits w).headD n)), 0)
  | .vrmax | .vrmin =>
    let l := ((List.range n).filter (activeLane x.act w)).map (elem a w)
    let r := reduceLanes (op == .vrmax) ty w l
    (.regs [ofElems w [r.1]], r.2)
  | .vsum | .vscan | .vld | .vst | .vlds | .vsts | .vldx | .vstx | .qld | .vlsld | .vlsst => (.regs [], 0)

/-- Functions that round by the mode in force, and so advance the generator under SR (R33, R35); a conversion to a wider
float keeps its value and rounds nothing (R38). -/
def rounds (op : VOp) (o : OpV) : Bool :=
  match op with
  | .vfadd | .vfsub | .vfmul | .vfma | .vfms | .vdiv | .vsqrt | .vexp2 | .vlog2 | .vrcp | .vrsqrt
  | .vtanh | .vsigm | .vdec4 => true
  | .vcvtw => decide (4 ≤ o.ty.toNat) != decide (4 ≤ (cvtTy o).toNat)
  | .vcvt | .vcvtn => 4 ≤ o.ty.toNat || 4 ≤ (cvtTy o).toNat
  | _ => false

/-- The lane width of a function: the narrower one of a conversion (R165, R173). -/
def laneWidth (op : VOp) (o : OpV) : Nat :=
  match op with
  | .vcvt | .vcvtw | .vcvtn => min (tyWidth o.ty) (tyWidth (cvtTy o))
  | .venc4 | .vdec4 => 8
  | .vld | .vst | .vlds | .vsts => max 8 (tyWidth o.ty)
  | _ => tyWidth o.ty

end Sys2Proof.Machine
end

