-- ==== Sys2Proof/Machine/Operands.lean ====
section
/-! DEFINITION. The operand forms and scalar results (R79, R82, R128, R145 to R158, R279): immediates,
targets and addresses, and the results of the register operations at any width. -/

namespace Sys2Proof.Machine

/-- A 15-bit immediate (R149). -/
def imm15 (i : BitVec 15) : Word := i.signExtend 64
/-- A 13-bit immediate (R149). -/
def imm13 (i : BitVec 13) : Word := i.signExtend 64
/-- A B-format target (R82). -/
def targetB (pc : Word) (off : BitVec 14) : Word := pc + 4 * off.signExtend 64
/-- A J-format target (R82). -/
def targetJ (pc : Word) (off : BitVec 26) : Word := pc + 4 * off.signExtend 64

/-- Bytes of an LD or ST size code (R83). -/
def sizeOf (sz : BitVec 3) : Nat :=
  match sz.toNat with
  | 0 | 4 => 1
  | 1 | 5 => 2
  | 2 | 6 => 4
  | _ => 8

/-- Whether an LD size code sign-extends (R83). -/
def sizeSigned (sz : BitVec 3) : Bool := 4 ≤ sz.toNat

/-- The address of an LD or ST (R279). -/
def addrM (ga : Word) (o : OpM) : Word := ga + BitVec.ofNat 64 (sizeOf o.sz) * o.off.signExtend 64

/-- A .w form: the operation on bits [31:0], sign-extended (R146). -/
def wform (f : BitVec 32 → BitVec 32 → BitVec 32) (x y : Word) : Word :=
  (f (x.setWidth 32) (y.setWidth 32)).signExtend 64

/-- A truth value as a result (R156). -/
def flagWord (b : Bool) : Word := if b then 1 else 0

/-- The shift amount of a width-n operation (R147). -/
def shAmt {n : Nat} (y : BitVec n) : Nat := y.toNat % n

def opAdd {n : Nat} (x y : BitVec n) : BitVec n := x + y
def opSub {n : Nat} (x y : BitVec n) : BitVec n := x - y
def opAnd {n : Nat} (x y : BitVec n) : BitVec n := x &&& y
def opOr {n : Nat} (x y : BitVec n) : BitVec n := x ||| y
def opXor {n : Nat} (x y : BitVec n) : BitVec n := x ^^^ y
def opAndn {n : Nat} (x y : BitVec n) : BitVec n := x &&& ~~~y
def opShl {n : Nat} (x y : BitVec n) : BitVec n := x <<< shAmt y
def opShr {n : Nat} (x y : BitVec n) : BitVec n := x >>> shAmt y
def opSar {n : Nat} (x y : BitVec n) : BitVec n := x.sshiftRight (shAmt y)
def opRol {n : Nat} (x y : BitVec n) : BitVec n := (x <<< shAmt y) ||| (x >>> (n - shAmt y))
def opRor {n : Nat} (x y : BitVec n) : BitVec n := (x >>> shAmt y) ||| (x <<< (n - shAmt y))
def opMin {n : Nat} (x y : BitVec n) : BitVec n := if y.slt x then y else x
def opMax {n : Nat} (x y : BitVec n) : BitVec n := if x.slt y then y else x
def opMinn {n : Nat} (x y : BitVec n) : BitVec n := if y.ult x then y else x
def opMaxn {n : Nat} (x y : BitVec n) : BitVec n := if x.ult y then y else x

/-- Zero bits above the most significant 1 bit (R148). -/
def opClz {n : Nat} (x _y : BitVec n) : BitVec n :=
  BitVec.ofNat n (if x = 0 then n else n - 1 - x.toNat.log2)
/-- Trailing zero bits of a number, at most the first argument. -/
def trailing : Nat → Nat → Nat
  | 0, _ => 0
  | f + 1, x => if x % 2 = 1 then 0 else 1 + trailing f (x / 2)
/-- Zero bits below the least significant 1 bit (R148). -/
def opCtz {n : Nat} (x _y : BitVec n) : BitVec n := BitVec.ofNat n (trailing n x.toNat)
/-- 1 bits of a number in its low places. -/
def ones : Nat → Nat → Nat
  | 0, _ => 0
  | f + 1, x => x % 2 + ones f (x / 2)
/-- Number of 1 bits (R148). -/
def opPopc {n : Nat} (x _y : BitVec n) : BitVec n := BitVec.ofNat n (ones n x.toNat)
/-- The k low bytes of a number in reverse order. -/
def swapBytes : Nat → Nat → Nat → Nat
  | 0, _, acc => acc
  | k + 1, x, acc => swapBytes k (x / 256) (acc * 256 + x % 256)
/-- Bytes in reverse order (R148). -/
def opBswap {n : Nat} (x _y : BitVec n) : BitVec n := BitVec.ofNat n (swapBytes (n / 8) x.toNat 0)

def opMul {n : Nat} (x y : BitVec n) : BitVec n := x * y
/-- The high half of the signed product (R151). -/
def opMulh {n : Nat} (x y : BitVec n) : BitVec n := BitVec.ofInt n (x.toInt * y.toInt / (2 ^ n : Nat))
/-- The high half of the unsigned product (R151). -/
def opMulhn {n : Nat} (x y : BitVec n) : BitVec n := BitVec.ofNat n (x.toNat * y.toNat / 2 ^ n)
/-- Signed quotient, truncated towards zero (R152). -/
def opDiv {n : Nat} (x y : BitVec n) : BitVec n :=
  if y = 0 then BitVec.allOnes n else BitVec.ofInt n (x.toInt.tdiv y.toInt)
/-- Unsigned quotient (R152). -/
def opDivn {n : Nat} (x y : BitVec n) : BitVec n :=
  if y = 0 then BitVec.allOnes n else BitVec.ofNat n (x.toNat / y.toNat)
/-- Signed remainder, with the dividend's sign (R152). -/
def opRem {n : Nat} (x y : BitVec n) : BitVec n :=
  if y = 0 then x else BitVec.ofInt n (x.toInt.tmod y.toInt)
/-- Unsigned remainder (R152). -/
def opRemn {n : Nat} (x y : BitVec n) : BitVec n :=
  if y = 0 then x else BitVec.ofNat n (x.toNat % y.toNat)

def cmpSlt {n : Nat} (x y : BitVec n) : Bool := x.slt y
def cmpSltn {n : Nat} (x y : BitVec n) : Bool := x.ult y
def cmpSeq {n : Nat} (x y : BitVec n) : Bool := x == y
def cmpSne {n : Nat} (x y : BitVec n) : Bool := x != y
/-- A .w compare looks at bits [31:0] (R156). -/
def wcmp (f : BitVec 32 → BitVec 32 → Bool) (x y : Word) : Bool := f (x.setWidth 32) (y.setWidth 32)

/-- The field that BFX and BFXN read (R155): bit positions above 63 read as zero. -/
def bfField (x : Word) (o w : Nat) : Nat := x.toNat / 2 ^ o % 2 ^ w
/-- BFX and BFXN (R155); `raw` is the raw width. -/
def bfExtract (signed : Bool) (x : Word) (o raw : Nat) : Word :=
  let w := min raw 64
  let f := bfField x o w
  if w = 0 then 0
  else if signed && 2 ^ (w - 1) ≤ f then BitVec.ofInt 64 ((f : Int) - (2 ^ w : Nat))
  else BitVec.ofNat 64 f
/-- BFI (R155). -/
def bfInsert (dst src : Word) (o raw : Nat) : Word :=
  let w := min raw 64
  if w = 0 then dst
  else
    let k := min w (64 - o)
    let m : Word := BitVec.ofNat 64 ((2 ^ k - 1) * 2 ^ o)
    (dst &&& ~~~m) ||| ((src <<< o) &&& m)
/-- Offset of the register form (R154). -/
def bfOff (y : Word) : Nat := y.toNat % 64
/-- Raw width of the register form (R154). -/
def bfWid (y : Word) : Nat := y.toNat / 64 % 128

end Sys2Proof.Machine
end

