-- ==== Sys2Proof/Machine/Page.lean ====
section
/-! DEFINITION. Translation and the address map (R126, R259 to R262, R363, R441, R456 to R467, R547):
the page walk, the core TLBs, and the place of an address in the model's one numbering of bytes. -/

namespace Sys2Proof.Machine

/-- The first address of the barrier window in the model's numbering. -/
def barrierBase : Nat := 2 ^ 64

/-- What a walk finds (R457, R458). -/
inductive Walk where
  | leaf (l : Leaf)
  | page
  | request
  deriving DecidableEq, Repr

/-- One bit of an entry. -/
def eBit (e n : Nat) : Bool := e / 2 ^ n % 2 == 1
/-- ADDR of an entry, in place (R457). -/
def eAddr (e : Nat) : Nat := e / 2 ^ 8 % 2 ^ 48 * 2 ^ 8
/-- TIER of an entry. -/
def eTier (e : Nat) : Nat := e / 2 ^ 56 % 4
/-- Reserved bits of an entry that are set. -/
def eReserved (e : Nat) : Bool := e / 2 ^ 61 != 0 || eBit e 7

/-- The page that a leaf entry maps. -/
def leafOf (asid va size e : Nat) : Leaf :=
  { asid := asid, va := va / size * size, size := size, pa := eAddr e, tier := eTier e, sec := eBit e 6,
    enc := eBit e 5, x := eBit e 4, w := eBit e 3, rd := eBit e 2, bias := eBit e 58, ats := eBit e 59 }

/-- Whether a page lies in its tier's range (R458). -/
def tierRange (tier pa size : Nat) : Bool :=
  match tier with
  | 0 => pa + size ≤ 6 * 2 ^ 36
  | 1 => 2 ^ 40 ≤ pa && decide (pa + size ≤ 2 ^ 40 + 2 ^ 41)
  | _ => true

/-- A malformed leaf (R458). -/
def leafMalformed (e size : Nat) : Bool :=
  eReserved e || eAddr e % size != 0 || !tierRange (eTier e) (eAddr e) size ||
    (eBit e 5 && 2 ≤ eTier e) || (eTier e == 3 && size != 2 ^ 16)

/-- A malformed table entry (R457); `align` is the next table's alignment. -/
def tableMalformed (e align : Nat) : Bool := eReserved e || eTier e != 2 || eAddr e % align != 0

/-- A level of the tree (R456): the number, the shift of its index, the index bits, and the alignment of
the table below. -/
structure Level where
  n : Nat
  shift : Nat
  bits : Nat
  align : Nat
  deriving DecidableEq, Repr

/-- The four levels (R456). -/
def levels : List Level := [⟨0, 39, 17, 4096⟩, ⟨1, 30, 9, 4096⟩, ⟨2, 21, 9, 256⟩, ⟨3, 16, 5, 1⟩]

/-- The entry that a walk meets at a level: the walk cache's where it holds one, else that of the table (R460). -/
def walkEntry (m : List Host.Cell) (cache : List WalkEnt) (asid va tbl : Nat) (l : Level) : Nat :=
  match cache.find? (fun w => w.asid == asid && w.level == l.n && w.va == va / 2 ^ l.shift) with
  | some w => w.entry
  | none => memNat m (hostBase + tbl + 8 * (va / 2 ^ l.shift % 2 ^ l.bits)) 8
/-- An entry of a level is a leaf (R456, R457). -/
def isLeafAt (l : Level) (e : Nat) : Bool := l.n == 3 || (l.n != 0 && eBit e 1)

/-- The walk over the tables in host memory (R456 to R458 check 1, R460). -/
def walk (m : List Host.Cell) (cache : List WalkEnt) (asid va tbl : Nat) : List Level → Walk
  | [] => .page
  | l :: ls =>
    let e := walkEntry m cache asid va tbl l
    let isLeaf := isLeafAt l e
    if !eBit e 0 then
      if isLeaf && eBit e 60 && eTier e == 2 && !leafMalformed e (2 ^ l.shift) then .request else .page
    else if isLeaf then
      if leafMalformed e (2 ^ l.shift) then .page else .leaf (leafOf asid va (2 ^ l.shift) e)
    else if (l.n == 0 && eBit e 1) || tableMalformed e l.align then .page
    else walk m cache asid va (eAddr e) ls

/-- The entries with V = 1 that a walk meets (R460). -/
def walkPath (m : List Host.Cell) (cache : List WalkEnt) (asid va tbl : Nat) : List Level → List WalkEnt
  | [] => []
  | l :: ls =>
    let e := walkEntry m cache asid va tbl l
    if !eBit e 0 then []
    else
      ⟨asid, l.n, va / 2 ^ l.shift, e⟩ ::
        (if isLeafAt l e || (l.n == 0 && eBit e 1) || tableMalformed e l.align then []
         else walkPath m cache asid va (eAddr e) ls)

/-- A cached translation of an address (R460). -/
def tlbFind (tlb : List Leaf) (asid va : Nat) : Option Leaf :=
  tlb.find? (fun l => l.asid == asid && decide (l.va ≤ va) && decide (va < l.va + l.size))

/-- A walk on a die leaves its entries in the die's walk cache of 4,096; the oldest make room (R460; log 12). -/
def State.cacheWalk (s : State) (die asid va : Nat) : State :=
  let c := (s.die die).walks
  let new := (walkPath s.mem c asid va (mget s.troot asid 0).toNat levels).filter (fun w => !c.contains w)
  s.setDie die { s.die die with walks := (c ++ new).drop (c.length + new.length - 4096) }

/-- The translation of an address as a core finds it: its TLB first, then a walk (R460). -/
def State.look (s : State) (core asid va : Nat) : Walk :=
  match tlbFind (s.core core).tlb asid va with
  | some l => .leaf l
  | none => walk s.mem (s.die (core / 64)).walks asid va (mget s.troot asid 0).toNat levels

/-- Caches a leaf that a walk found in a core's TLB of 256 entries, and the walk in its die's walk cache; the oldest makes
room (R460; log 12). -/
def State.cacheLeaf (s : State) (core : Nat) (l : Leaf) : State :=
  let k := s.core core
  match tlbFind k.tlb l.asid l.va with
  | some _ => s
  | none =>
    let s := s.cacheWalk (core / 64) l.asid l.va
    { s.setCore core { k with tlb := (k.tlb ++ [l]).drop (k.tlb.length + 1 - Config.tlbEntries) } with
      leaves := if s.leaves.contains l then s.leaves else s.leaves ++ [l] }

/-- The die that holds a device-physical byte (R458). -/
def homeDie (pa : Nat) : Nat := if pa < 2 ^ 40 then pa / 2 ^ 36 else (pa - 2 ^ 40) / 2 ^ 21 % 6

/-- Device-physical bytes on an absent die (R458 check 2). -/
def State.absentBytes (s : State) (pa n : Nat) : Bool :=
  let first := pa / 2 ^ 21
  !s.present (homeDie pa) || !s.present (homeDie (pa + n - 1)) ||
    (List.range (min 6 ((pa + n - 1) / 2 ^ 21 - first))).any fun i => !s.present (homeDie ((first + i + 1) * 2 ^ 21))

/-- A page that overlaps the firmware-reserved region of a present die (R458 check 3, R547). -/
def State.reservedPage (s : State) (pa size : Nat) : Bool :=
  decide (pa < 6 * 2 ^ 36) && s.present (pa / 2 ^ 36) &&
    decide (pa % 2 ^ 36 + size > 2 ^ 36 - s.rsvg * 2 ^ 30)

/-- The permissions of an access (R458 check 4). -/
def permitted (l : Leaf) (acc : Access) (secure : Bool) : Bool :=
  (!l.sec || secure) &&
    match acc with
    | .read => l.rd
    | .write => l.w
    | .fetch => l.x
    | .atom => l.rd && l.w
    | .any => true

/-- Where an access goes, or why it does not. -/
inductive Place where
  | at (pa : Nat)
  | bad (cause : Cause)
  | wait
  deriving DecidableEq, Repr

/-- A cell or tag of the barrier window by its line number (R363): false when foreign to the context. -/
def State.ownsLine (s : State) (asid line : Nat) : Bool :=
  if line < 3072 then mfind s.cellOwner line == some asid
  else mfind s.tagOwner (line - 3072) == some asid

/-- Lines of a barrier page that name cells foreign to the context (R467). -/
def State.ownsBarrierPage (s : State) (asid off : Nat) : Bool :=
  (List.range 1024).all fun i =>
    let line := off / 2 ^ 16 * 1024 + i
    decide (3080 ≤ line) || s.ownsLine asid line

/-- The place of bytes under a leaf, after checks 2 to 4 of R458 and R467. -/
def State.leafPlace (s : State) (l : Leaf) (va n : Nat) (acc : Access) (secure : Bool) : Place :=
  let pa := l.pa + (va - l.va)
  match l.tier with
  | 0 | 1 =>
    if s.absentBytes pa n then .bad cABSENT
    else if l.tier = 0 && s.reservedPage l.pa l.size then .bad cPROTECT
    else if !permitted l acc secure then .bad cPROTECT
    else .at pa
  | 2 =>
    if !permitted l acc secure then .bad cPROTECT
    else if l.ats then
      match s.ats.find? (fun x => x.1 == l.asid && x.2.1 == l.pa) with
      | some x => .at (hostBase + x.2.2 + (va - l.va))
      | none => .wait
    else .at (hostBase + pa)
  | _ =>
    if !s.ownsBarrierPage l.asid pa || !permitted l acc secure then .bad cPROTECT
    else .at (barrierBase + 2 ^ 40 + pa)

/-- The host has refused the page request of an access, or left it unanswered (R465). -/
def State.pageRefused (s : State) (core asid va : Nat) : Bool := s.priFail.contains (core, asid, va / 2 ^ 16)

/-- The place of a global access of a core (R458 to R460). F mode uses device-physical addresses
(log 7). -/
def State.globalPlace (s : State) (core : Nat) (va n : Nat) (acc : Access) : Place :=
  let t := s.strand core
  match t.mode, t.asid with
  | false, some asid =>
    match s.look core asid va with
    | .leaf l => s.leafPlace l va n acc (s.secureCore core)
    | .page => .bad cPAGE
    | .request =>
      if s.pageRefused core asid va then .bad cPAGE else .wait
  | _, _ =>
    if tierRange 0 va n || tierRange 1 va n then
      if s.absentBytes va n then .bad cABSENT else .at va
    else .bad cPAGE

/-- A strand is on its core: it is placed, and neither saved nor ended (R103). -/
def Strand.here (t : Strand) : Bool :=
  match t.st with
  | .absent | .saved | .done | .killed => false
  | .placed | .running | .stalled | .sleeping | .trapped | .halting => true

/-- A peer's quarter of cluster memory that is foreign: no strand of the context is on the peer (R441). -/
def State.foreignQuarter (s : State) (core peer : Nat) : Bool :=
  core != peer && !((s.strand peer).here && (s.strand core).asid == (s.strand peer).asid)

/-- The place of bytes for a strand (R259, R260, R261, R262, R363). A firmware core in F mode passes the
checks for foreign objects (log 7). -/
def State.place (s : State) (core : Nat) (a : Word) (n : Nat) (acc : Access) : Place :=
  let x := a.toNat
  let f := (s.strand core).mode
  let asid := (s.strand core).asid
  if x < 2 ^ 56 then s.globalPlace core x n acc
  else if x < 0xFF00000000000000 then .bad cPROTECT
  else
    let region := x / 2 ^ 52 % 16
    let o := x % 2 ^ 52
    if 0xFF40000000000000 ≤ x then .bad cPROTECT
    else
      match region with
      | 0 => if o + n ≤ Config.spBytes then .at (spAddr core o) else .bad cPROTECT
      | 1 =>
        if 2 ^ 21 < o + n then .bad cPROTECT
        else
          let peer := core / 4 * 4 + o / 2 ^ 19
          if !f && s.foreignQuarter core peer then .bad cPROTECT
          else .at (spAddr peer (0x180000 + o % 2 ^ 19))
      | 2 =>
        if Config.sharedBytes < o + n then .bad cPROTECT
        else if !s.present (o / 2 ^ 20 % 6) then .bad cABSENT
        else if !f && mfind s.banks (o / 2 ^ 20) != asid then .bad cPROTECT
        else .at (sharedAddr o)
      | _ =>
        if Config.barrierBytes < o + n then .bad cPROTECT
        else if o < 0x30000 && !s.present (o / 2 ^ 15) then .bad cABSENT
        else if !f && !(asid.elim false (fun i => s.ownsLine i (o / 64))) then .bad cPROTECT
        else .at (barrierBase + o)

/-- Global places: device-physical and host memory. -/
def isGlobal (pa : Nat) : Bool := pa < 2 ^ 61
/-- Host memory. -/
def isHost (pa : Nat) : Bool := decide (hostBase ≤ pa) && decide (pa < 2 ^ 61)
/-- Barrier window, or a barrier page. -/
def isBarrier (pa : Nat) : Bool := barrierBase ≤ pa
/-- A barrier page (R467). -/
def isBarrierPage (pa : Nat) : Bool := barrierBase + 2 ^ 40 ≤ pa
/-- The line number in the barrier window of a place there. -/
def barrierLine (pa : Nat) : Nat :=
  (if isBarrierPage pa then pa - barrierBase - 2 ^ 40 else pa - barrierBase) / 64
/-- A core's own scratchpad. -/
def isOwn (core pa : Nat) : Bool := decide (spAddr core 0 ≤ pa) && decide (pa < spAddr (core + 1) 0)

/-- The answer of a failed page request is used up (R465). -/
def State.clearPri (s : State) (core asid va : Nat) : State :=
  { s with priFail := s.priFail.filter (fun x => x != (core, asid, va / 2 ^ 16)) }

/-- Sends one request for the page of an access, unless it is out already or the host has refused it (R465). -/
def State.askPage (s : State) (core asid va : Nat) : State :=
  if s.pri.any (fun x => x.core == core && x.asid == asid && x.page == va / 2 ^ 16) || s.pageRefused core asid va then s
  else { s with pri := s.pri ++ [⟨core, asid, va / 2 ^ 16, s.now⟩] }

/-- Fills the TLB after a use, and sends the ATS or PRI request that a waiting access needs (R460,
R465). -/
def State.touch (s : State) (core : Nat) (a : Word) : State :=
  match (s.strand core).mode, (s.strand core).asid with
  | false, some asid =>
    if a.toNat < 2 ^ 56 then
      match s.look core asid a.toNat with
      | .leaf l =>
        let s := s.cacheLeaf core l
        if l.tier = 2 && l.ats && !(s.ats.any (fun x => x.1 == asid && x.2.1 == l.pa)) &&
            !s.atsReq.any (fun x => x.1 == asid && x.2.1 == l.pa) then
          { s with atsReq := s.atsReq ++ [(asid, l.pa, s.now)] }
        else s
      | .request =>
        (s.cacheWalk (core / 64) asid a.toNat).askPage core asid a.toNat
      | .page => s.cacheWalk (core / 64) asid a.toNat
    else s
  | _, _ => s

end Sys2Proof.Machine
end

