-- ==== Sys2Proof/Machine/Records.lean ====
section
/-! DEFINITION. What the device reports to the outside: fault records (R450, R451) and MSI vectors, and
the contexts, kernels and groups they name; and the links (R474 to R478). -/

namespace Sys2Proof.Machine

/-- A context that no CREATE has bound yet. -/
def Ctx.start : Ctx := ⟨.free, 0, 0, false, 0, 0, 0, 0, 0, 0, 0, 0, 0, 0, none, false⟩
/-- A context by its ASID. -/
def State.ctx (s : State) (a : Nat) : Ctx := mget s.ctxs a Ctx.start
/-- Replaces a context. -/
def State.setCtx (s : State) (a : Nat) (c : Ctx) : State := { s with ctxs := mset s.ctxs a c }

/-- A group number together with its kernel (R386): the number of the group in the model. -/
def groupId (kernel num : Nat) : Nat := kernel * 2 ^ 32 + num
/-- The kernel of a group. -/
def groupKernel (g : Nat) : Nat := g / 2 ^ 32
/-- The group number within its kernel. -/
def groupNum (g : Nat) : Nat := g % 2 ^ 32

/-- GROUP of a fault record (R451): the group number and KTAG of a group. -/
def State.groupWord (s : State) (g : Option Nat) : Nat :=
  match g with
  | none => 0
  | some g => groupNum g + (match mfind s.kernels (groupKernel g) with
      | some k => k.ktag * 2 ^ 32
      | none => 0)

/-- The contents of a fault record (R451), but for TIME and ID. -/
structure FaultRec where
  kind : Nat
  cause : Cause
  deferred : Bool
  seq : Nat
  group : Nat
  core : Nat
  handle : Nat
  die : Nat
  pc : Word
  addr : Word
  aux : Word
  deriving DecidableEq, Repr

/-- The 64 bytes of a fault record (R451). -/
def FaultRec.bytes (r : FaultRec) (time : Word) (id : Nat) : Nat :=
  r.cause.toNat + 2 ^ 8 * (r.kind % 256) + 2 ^ 16 * r.deferred.toNat + 2 ^ 32 * (r.seq % 2 ^ 32) +
    2 ^ 64 * (r.group % 2 ^ 64) +
    2 ^ 128 * (r.core % 512 + 2 ^ 9 * (r.handle % 16) + 2 ^ 13 * (r.die % 16)) +
    2 ^ 192 * r.pc.toNat + 2 ^ 256 * r.addr.toNat + 2 ^ 320 * time.toNat + 2 ^ 384 * r.aux.toNat +
    2 ^ 448 * id

/-- ID of a fault record (R451). -/
def Ctx.idWord (c : Ctx) (a : Nat) : Nat := a % 2048 + 2 ^ 16 * (c.pasid % 2 ^ 20) + 2 ^ 36 * (c.tenant % 256)

/-- Writes a record to a context's fault ring, or counts it as lost, and sends the context's vector (R450). TIME is the
package time at which the fault was found; the record replaces whatever failed in its line (R471). -/
def State.faultAt (s : State) (a : Nat) (time : Word) (r : FaultRec) : State :=
  let c := s.ctx a
  if c.st = .free then s
  else if 2 ^ c.fqLog ≤ c.fqTail - c.fqHead then s.setCtx a { c with fqLost := (c.fqLost + 1) % 2 ^ 64 }
  else
    { s.setCtx a { c with fqTail := c.fqTail + 1 } with
      mem := memPut s.mem (hostBase + c.fqBase + 64 * (c.fqTail % 2 ^ c.fqLog)) 64 (r.bytes time (c.idWord a))
      failed := mdel s.failed ((hostBase + c.fqBase) / 64 + c.fqTail % 2 ^ c.fqLog)
      msi := s.msi ++ [c.msi] }

/-- A record of a fault that is found now. -/
def State.fault (s : State) (a : Nat) (r : FaultRec) : State := s.faultAt a (s.ptime r.core) r

/-- A fault record about a core, for the context of the strand on it. -/
def State.faultOf (s : State) (core : Nat) (kind : Nat) (cause : Cause) (deferred : Bool) (seq handle : Nat)
    (pc addr aux : Word) : State :=
  match (s.strand core).asid with
  | none => s
  | some a => s.fault a ⟨kind, cause, deferred, seq, s.groupWord (s.strand core).group, core, handle,
      dieOf core, pc, addr, aux⟩

/-- TIER of a syndrome (R470): 4 for a scratchpad. -/
def tierOf (pa : Nat) : Nat :=
  if pa < 2 ^ 40 then 0 else if pa < hostBase then 1 else if pa < sharedBase then 2 else if pa < barrierBase then 4 else 3

/-- AUX of a fault record for UE_DATA or INTEGRITY (R470). ECC of an INTEGRITY outcome is 0 or 1: a free
value (log 4). -/
def syndrome (cause : Cause) (pa free : Nat) : Word :=
  if cause = cUE_DATA then BitVec.ofNat 64 (2 + 3 * 4 + tierOf pa * 16)
  else if cause = cINTEGRITY then BitVec.ofNat 64 ((Config.freeWord free).toNat % 2 + 2 * 4 + tierOf pa * 16)
  else 0
/-- The cause of a MEDIA or an INTEGRITY outcome (R470). -/
def outcomeCause (integrity : Bool) : Cause := if integrity then cINTEGRITY else cUE_DATA

/-- The links of the package (R474). -/
def isLink (n : Nat) : Bool := decide (n < 18) || (decide (32 ≤ n) && decide (n < 38)) || n == 48
/-- Lanes of a link at full width (R474). -/
def fullWidth (n : Nat) : Nat := if n < 18 then 4 else if n = 48 then 16 else 64
/-- A link after reset (R475, R477). -/
def PLink.start (n : Nat) : PLink :=
  { st := .down, width := 0, cap := fullWidth n, drop := 0, retry := 0, dup := 0, skew := 2 ^ 32 - 1, fails := 0 }
/-- A link. -/
def State.link (s : State) (n : Nat) : PLink := mget s.links n (PLink.start n)
/-- Replaces a link. -/
def State.setLink (s : State) (n : Nat) (l : PLink) : State := { s with links := mset s.links n l }
/-- A link that carries flits. -/
def PLink.live (l : PLink) : Bool := l.st == .up || l.st == .narrow
/-- The fabric ports that are Up or Narrow, in ascending number. -/
def State.ports (s : State) : List Nat := (List.range 18).filter (fun p => (s.link p).live)
/-- The fabric port after one, in ascending number and wrapping, that is Up or Narrow (R479). -/
def State.nextPort (s : State) (p : Nat) : Option Nat :=
  ((List.range 18).map (fun i => (p + 1 + i) % 18)).find? (fun p => (s.link p).live)

/-- Counts an event of a link in a 48-bit counter. -/
def bump48 (n : Nat) : Nat := (n + 1) % 2 ^ 48

/-- A link drops as many flits as the slot says (R478). -/
def State.countDrops (s : State) (n : Nat) : State :=
  s.setLink n { s.link n with drop := ((s.link n).drop + s.choice.drops) % 2 ^ 48 }

end Sys2Proof.Machine
end

