-- ==== Sys2Proof/Machine/Log.lean ====
section
/-! DEFINITION. The store log (R285 to R305): keys and the clock, records, publication, pressing, the view
of a strand, and the places of in-place storage (R471). -/

namespace Sys2Proof.Machine

/-- Keys are compared on TIME, then on CORE (R288). -/
def keyLe (a b : Key) : Bool := a.time < b.time || (a.time == b.time && a.core ≤ b.core)
/-- Where the clock saturates (R291). -/
def timeTop : Nat := 2 ^ 48 - 1
/-- lift of R289. -/
def liftTime (core time : Nat) (k : Key) : Nat :=
  min (max time (if k.core ≤ core then k.time else k.time + 1)) timeTop

/-- Posts an event to the firmware core of each present die. -/
def State.postAll (s : State) (kind : Nat) (a0 a1 : Word) : List Nat → State
  | [] => s
  | d :: ds => State.postAll (if s.present d then s.post d kind a0 a1 else s) kind a0 a1 ds

/-- Sets a clock; the rebase event goes out as it reaches its threshold (R290, R291). -/
def State.setTime (s : State) (core time : Nat) : State :=
  let old := (s.core core).lclk
  let s := s.setCore core { s.core core with lclk := time }
  if old < 2 ^ 48 - 2 ^ 40 && decide (2 ^ 48 - 2 ^ 40 ≤ time) then
    s.postAll 5 (BitVec.ofNat 64 core) 0 (List.range 6)
  else s

/-- Lifts a clock to a key (R289, R290). -/
def State.lift (s : State) (core : Nat) (k : Key) : State :=
  s.setTime core (liftTime core (s.core core).lclk k)

/-- Lifts a clock to several keys. -/
def State.liftAll (s : State) (core : Nat) : List Key → State
  | [] => s
  | k :: ks => State.liftAll (s.lift core k) core ks

/-- Units held by records (R285, R300). -/
def Log.occ (l : Log) : Nat := (l.recs.map Rec.units).sum
/-- Units of Appended records (R311). -/
def Log.appended (l : Log) : Nat := ((l.recs.filter (fun r => l.pub ≤ r.idx)).map Rec.units).sum
/-- Whether a record of some units fits (R301). -/
def Log.fits (l : Log) (units : Nat) : Bool := l.occ + units ≤ Config.logUnits

/-- A publication (R293): everything appended so far, with a new clock value and stamp. -/
def State.publish (s : State) (core : Nat) : State :=
  let l := s.log core
  let time := min ((s.core core).lclk + 1) timeTop
  (s.setTime core time).setLog core { l with
    pub := l.app, stamp := ⟨time, core⟩, pubs := l.pubs + 1,
    points := l.points ++ [⟨l.pubs + 1, l.app, ⟨time, core⟩, s.now, []⟩] }

/-- The latest publication takes in what was appended after it in its own tick (R312). -/
def Log.extend (l : Log) : Log :=
  { l with pub := l.app, points := l.points.map (fun p => if p.num = l.pubs then { p with pub := l.app } else p) }

/-- The publication of a REL; with a pressure publication of the same tick it is one (R312). -/
def State.publishRel (s : State) (core : Nat) : State :=
  let s := if (s.log core).pressure = s.now + 1 then s.setLog core (s.log core).extend else s.publish core
  s.setLog core { s.log core with relAt := s.now + 1 }

/-- A pressure publication (R300); with the publication of a REL in the same tick it is one (R312). -/
def State.publishPressure (s : State) (core : Nat) : State :=
  let s := if (s.log core).relAt = s.now + 1 then s.setLog core (s.log core).extend else s.publish core
  s.setLog core { s.log core with pressure := s.now + 1 }

/-- Appends a record (R286 to R288), and publishes under pressure (R300). -/
def State.append (s : State) (core units : Nat) (parts : List Part) : State :=
  let k := s.core core
  let l := k.log
  let r : Rec := ⟨l.app, units, parts, ⟨k.lclk, core⟩, k.strand.asid, k.strand.group, none, false⟩
  let s := s.setLog core { l with recs := l.recs ++ [r], app := l.app + 1 }
  if Config.logPressure ≤ (s.log core).occ then s.publishPressure core else s

/-- Discards the Appended records of a log at a kill (R304). -/
def State.discard (s : State) (core : Nat) : State :=
  let l := s.log core
  s.setLog core { l with
    recs := l.recs.filter (fun r => r.idx < l.pub), disc := l.disc + (l.recs.filter (fun r => l.pub ≤ r.idx)).length }

/-- The latest publication that has reached a die, with its stamp (R293). -/
def Log.pubAt (l : Log) (die : Nat) : Nat × Key :=
  match (l.points.filter (fun p => p.reached.contains die)).getLast? with
  | some p => (p.pub, p.stamp)
  | none => (0, ⟨0, 0⟩)

/-- The latest publication of a log that a core may count: its own cluster sees it at once (R293). -/
def State.pubSeen (s : State) (viewer core : Nat) : Nat × Key :=
  let l := s.log core
  if viewer / 4 = core / 4 then (l.pub, l.stamp) else l.pubAt (dieOf viewer)

/-- The dies that are present. -/
def State.dieList (s : State) : List Nat := (List.range 6).filter s.present

/-- A point that has reached every present die (R293). -/
def State.everywhere (s : State) (p : Point) : Bool := s.dieList.all (fun d => p.reached.contains d)

/-- Drops the points that a later one, known everywhere, covers. -/
def prunePoints (every : Point → Bool) : List Point → List Point
  | [] => []
  | p :: ps => if ps.any every then prunePoints every ps else p :: ps

/-- The first point that has not reached a die reaches it (R293). -/
def reachFirst (die : Nat) : List Point → List Point
  | [] => []
  | p :: ps => if p.reached.contains die then p :: reachFirst die ps
               else { p with reached := die :: p.reached } :: ps

/-- A publication point of a log reaches a die (R293). -/
def State.pointArrives (s : State) (core die : Nat) : State :=
  let l := s.log core
  s.setLog core { l with points := prunePoints s.everywhere (reachFirst die l.points) }

/-- A byte mask of n bytes from byte o of a line. -/
def byteMask (o n : Nat) : BitVec 64 := BitVec.ofNat 64 ((2 ^ n - 1) * 2 ^ o)
/-- The bit mask of a byte mask. -/
def expandMask : Nat → Nat → Nat
  | 0, _ => 0
  | n + 1, m => (if m % 2 = 1 then 255 else 0) + 256 * expandMask n (m / 2)
/-- The masked bytes of `new` over `old`. -/
def mergeLine (old new : Line) (mask : BitVec 64) : Line :=
  let m : Line := BitVec.ofNat 512 (expandMask 64 mask.toNat)
  (old &&& ~~~m) ||| (new &&& m)

/-- The key of a line at its home; host lines have (0, 0) (R288, R297). -/
def State.lineKey (s : State) (line : Nat) : Key :=
  if isHost (64 * line) then ⟨0, 0⟩ else mget s.keys line ⟨0, 0⟩
/-- The bytes of a line. -/
def State.lineData (s : State) (line : Nat) : Line := BitVec.ofNat 512 (memNat s.mem (64 * line) 64)

/-- Keeps the state a line held until now known to the views (R298). -/
def State.noteHome (s : State) (line : Nat) : State :=
  { s with hist := s.hist ++ [⟨line, s.now, s.lineData line, s.lineKey line, mfind s.poison line⟩] }

/-- Changes a line at its home. -/
def State.putHome (s : State) (line : Nat) (data : Line) (key : Key) : State :=
  { s.noteHome line with
    mem := memPut s.mem (64 * line) 64 data.toNat
    keys := if isHost (64 * line) then s.keys else mset s.keys line key }

/-- A write of all 64 bytes repairs a failed sector and a poisoned line (R303, R471). -/
def State.repair (s : State) (line : Nat) (mask : BitVec 64) : State :=
  if mask = BitVec.allOnes 64 then
    { s with failed := mdel s.failed line, poison := mdel s.poison line }
  else s

/-- The record of a log that poison is reported for. -/
def Rec.taint (r : Rec) (core : Nat) : Taint := ⟨core, r.idx, r.asid, r.group, r.poison.getD false⟩

/-- Reports poison that was met at a line, to the context of the record, with the syndrome of the log's sector
(R285, R303, R470). -/
def State.reportTaint (s : State) (line : Nat) (t : Taint) : State :=
  match t.asid with
  | none => s
  | some a =>
    { s.fault a ⟨4, cLOG_POISON, false, t.idx, s.groupWord t.group, t.core, 0, dieOf t.core, 0,
        BitVec.ofNat 64 (64 * line), syndrome (outcomeCause t.integrity) 0 s.freeCtr⟩ with freeCtr := s.freeCtr + 1 }

/-- Pressing one line of a record at its home (R294, R297, R303). -/
def State.pressPart (s : State) (core : Nat) (r : Rec) (p : Part) : State :=
  if r.badHeader then s
  else if r.poison.isSome then
    let s := s.noteHome p.line
    { s with poison := mset s.poison p.line (r.taint core) }.reportTaint p.line (r.taint core)
  else if keyLe (s.lineKey p.line) r.key then
    (s.putHome p.line (mergeLine (s.lineData p.line) p.data p.mask) r.key).repair p.line p.mask
  else s

/-- A record that a strand's view must apply (R298). -/
def Strand.requires (t : Strand) (own core : Nat) (r : Rec) : Bool :=
  (own == core && t.placed ≤ r.idx) || r.idx < mget t.acq core 0 || t.seen.contains (core, r.idx)

/-- The floor of a line rises to now where a strand requires the pressed record (R298). -/
def Strand.pressed (t : Strand) (own core now : Nat) (r : Rec) (line : Nat) : Strand :=
  if t.requires own core r then { t with floors := mset t.floors line now } else t

/-- Raises the floors of every strand that requires a record at one of its lines, and keeps the tick for those that
acquire it later (R298). -/
def State.raiseFloors (s : State) (core : Nat) (r : Rec) (line : Nat) : State :=
  let s := s.setLog core { s.log core with past := (r.idx, line, s.now) :: (s.log core).past }
  { s with cores := s.cores.map fun c =>
      (c.1, { c.2 with strand := c.2.strand.pressed c.1 core s.now r line }) }

/-- The floors of a strand that acquires a log up to an index: the ticks at which its records were pressed
(R298). -/
def Strand.acquirePast (t : Strand) (pub : Nat) (past : List (Nat × Nat × Nat)) : Strand :=
  { t with floors := past.foldl (fun m x =>
      if x.1 < pub then mset m x.2.1 (max x.2.2 (mget m x.2.1 0)) else m) t.floors }

/-- The parts of a record, one home line after the other. -/
def State.pressParts (s : State) (core : Nat) (r : Rec) : List Part → State
  | [] => s
  | p :: ps => State.pressParts ((s.raiseFloors core r p.line).pressPart core r p) core r ps

/-- A record whose header cannot be read is reported when it is pressed (R303). -/
def State.reportHeader (s : State) (core : Nat) (r : Rec) : State :=
  if r.badHeader then
    let s := s.reportTaint (match r.parts with | p :: _ => p.line | [] => 0) (r.taint core)
    match r.asid with
    | some a => { s with killDue := s.killDue ++ [(a, core)] }
    | none => s
  else s

/-- The die that serves a place: of device-physical memory, or of a shared bank (R262, R263). -/
def placeDie (pa : Nat) : Option Nat :=
  if pa < 2 ^ 41 + 2 ^ 40 then some (homeDie pa)
  else if sharedBase ≤ pa ∧ pa < spBase then some ((pa - sharedBase) / 2 ^ 20 % 6)
  else none

/-- A flow between dies by its source, destination and path (R478). -/
def flowKey (src dst path : Nat) : Nat := 48 * src + 8 * dst + path

/-- A flow between dies that nothing has crossed yet (R478). -/
def DieFlow.start : DieFlow := ⟨0, [], 0, []⟩

/-- NEXT advances over the numbers received (R480); the count bounds them. -/
def advance (got : List Nat) : Nat → Nat → Nat
  | 0, n => n
  | k + 1, n => if got.contains n then advance got k (n + 1) else n

/-- The number, counted without wrapping, that a 32-bit SQ stands for at a receiver (R478, R480): the one nearest
to NEXT. -/
def unwrapSq (next sq : Nat) : Option Nat :=
  let d := (sq + 2 ^ 32 - next % 2 ^ 32) % 2 ^ 32
  if d < 2 ^ 31 then some (next + d) else if 2 ^ 32 ≤ next + d then some (next + d - 2 ^ 32) else none

/-- The destination of a flow between dies has received a number (R480). -/
def DieFlow.has (f : DieFlow) (n : Nat) : Bool := decide (n < f.next) || f.got.contains n

/-- The destination receives a number (R480): its bit is set, and NEXT advances. -/
def DieFlow.receive (f : DieFlow) (n : Nat) : DieFlow :=
  if f.has n then f
  else
    let got := n :: f.got
    let next := advance got got.length f.next
    { f with next := next, got := got.filter (fun x => decide (next ≤ x)) }

/-- Operations of a flow between dies have been performed and answered: the destination has received them, and the
source keeps them no longer (R479, R480). -/
def DieFlow.settle (f : DieFlow) (p : FlowOp → Bool) : DieFlow :=
  let g := (f.ops.filter p).foldl (fun f o => (unwrapSq f.next o.sq).elim f f.receive) f
  { g with ops := f.ops.filter (fun o => !p o) }

/-- An operation that goes to a place on another die enters the flow of its path there, which keeps what it writes (R314,
R478, R479). -/
def State.enterFlow (s : State) (core path pa : Nat) (data : List (Byte × Bool)) (use : FlowUse) : State :=
  match placeDie pa with
  | none => s
  | some d =>
    if d = dieOf core then s
    else
      let k := flowKey (dieOf core) d path
      let f := mget s.dieFlows k DieFlow.start
      { s with dieFlows := mset s.dieFlows k { f with
          sq := (f.sq + 1) % 2 ^ 32, ops := f.ops ++ [⟨f.sq, core, use, pa, data, 0, s.now⟩] } }

/-- The reads of a command at places on other dies enter their flows (R478). -/
def State.enterReads (s : State) (core path : Nat) (use : FlowUse) (l : List (Nat × Nat)) : State :=
  l.foldl (fun s p => s.enterFlow core path p.1 [] use) s
/-- Writes at places on other dies enter their flows (R478). -/
def State.enterWrites (s : State) (core path : Nat) (use : FlowUse) (l : List (Nat × List (Byte × Bool))) : State :=
  l.foldl (fun s p => s.enterFlow core path p.1 p.2 use) s

/-- A line of a record as selected bytes. -/
def Part.bytes (p : Part) : Nat × List (Byte × Bool) :=
  (64 * p.line, (List.range 64).map (fun i => (p.data.extractLsb' (8 * i) 8, p.mask.getLsbD i)))

/-- Takes a record out of its log as Pressed (R292). -/
def Log.remove (l : Log) (idx : Nat) : Log :=
  { l with recs := l.recs.filter (fun r => r.idx != idx), prs := l.prs + 1 }

/-- Presses a whole record (R294). -/
def State.pressRec (s : State) (core : Nat) (r : Rec) : State :=
  let s := s.enterWrites core 0 .write (r.parts.map Part.bytes)
  let s := (s.pressParts core r r.parts).reportHeader core r
  s.setLog core ((s.log core).remove r.idx)

/-- Presses one line of a record out of its turn, before an atomic or a window write there (R295, R485). -/
def State.pressAhead (s : State) (line core : Nat) (r : Rec) : State :=
  let s := s.pressParts core r (r.parts.filter (fun p => p.line == line))
  let rest := r.parts.filter (fun p => p.line != line)
  let l := s.log core
  if rest = [] then (s.reportHeader core r).setLog core (l.remove r.idx)
  else s.setLog core { l with
    recs := l.recs.map (fun x => if x.idx = r.idx then { x with parts := rest } else x) }

/-- Presses records of one line, in the order given. -/
def State.pressAll (s : State) (line : Nat) : List (Nat × Rec) → State
  | [] => s
  | (c, r) :: rs => State.pressAll (s.pressAhead line c r) line rs

/-- The records of every log that cover a line and meet a condition. -/
def State.covering (s : State) (line : Nat) (p : Nat → Rec → Bool) : List (Nat × Rec) :=
  s.cores.flatMap fun c =>
    (c.2.log.recs.filter (fun r => r.parts.any (fun q => q.line == line) && p c.1 r)).map (fun r => (c.1, r))

/-- The outcome behind the poison of a line (R303, R470): that of the record that poisoned it, or of a poisoned record that
covers it. -/
def State.poisonKind (s : State) (line : Nat) : Bool :=
  match mfind s.poison line with
  | some t => t.integrity
  | none => ((s.covering line (fun _ r => r.poison.isSome)).head?.bind (fun x => x.2.poison)).getD false
/-- AUX of a fault record for a read that failed at a place (R470). The sector behind a LOG_POISON is the record's, in the
stacked DRAM (R285). -/
def State.readSyndrome (s : State) (cause : Cause) (pa : Nat) : Word :=
  if cause = cLOG_POISON then syndrome (outcomeCause (s.poisonKind (pa / 64))) 0 s.freeCtr
  else syndrome cause pa s.freeCtr

/-- Presses every record of a line that is published at one of some dies, and every published one of one core, whose
point comes first (R295, R329). -/
def State.pressLine (s : State) (line : Nat) (dies : List Nat) (own : Nat) : State :=
  s.pressAll line (s.covering line fun c r =>
    dies.any (fun d => decide (r.idx < ((s.log c).pubAt d).1)) || (c == own && decide (r.idx < (s.log c).pub)))

/-- Presses the Published records of a log, in order (R294). -/
def State.pressPublished (s : State) (core : Nat) : State :=
  ((s.log core).recs.filter (fun r => r.idx < (s.log core).pub)).foldl (fun s r => s.pressRec core r) s

/-- The order in which a view applies records (R298). -/
def recLe (a b : Nat × Rec) : Bool :=
  a.2.key.time < b.2.key.time ||
    (a.2.key.time == b.2.key.time && (a.1 < b.1 || (a.1 == b.1 && a.2.idx ≤ b.2.idx)))

/-- Puts a record into its place. -/
def insertRec (r : Nat × Rec) : List (Nat × Rec) → List (Nat × Rec)
  | [] => [r]
  | x :: xs => if recLe r x then r :: x :: xs else x :: insertRec r xs

/-- Records in ascending key. -/
def sortRecs (l : List (Nat × Rec)) : List (Nat × Rec) := l.foldr insertRec []

/-- What a line holds in a view, its key, the records applied, and the poison met (R303). -/
structure Seen where
  data : Line
  key : Key
  used : List (Nat × Nat)
  bad : List Taint
  deriving DecidableEq, Repr

/-- Applies one line of a record to a view as press does (R298). -/
def Seen.apply (v : Seen) (line core : Nat) (r : Rec) : Seen :=
  if keyLe v.key r.key then
    { data := (r.parts.filter (fun p => p.line == line)).foldl (fun d p => mergeLine d p.data p.mask) v.data,
      key := r.key, used := (core, r.idx) :: v.used, bad := if r.poison.isSome || r.badHeader then v.bad ++ [r.taint core] else v.bad }
  else v

/-- What a home held at a tick (R298). -/
def State.homeAt (s : State) (line tick : Nat) : Seen :=
  match s.hist.find? (fun h => h.line == line && tick < h.till) with
  | some h => ⟨h.data, h.key, [], h.taint.toList⟩
  | none => ⟨s.lineData line, s.lineKey line, [], (mfind s.poison line).toList⟩

/-- floor(S, l) of R298. -/
def Strand.floor (t : Strand) (line : Nat) : Nat :=
  let w := t.winFloors.foldl (fun f x => if x.1 ≤ line ∧ line < x.2.1 then max f x.2.2 else f) 0
  max (max (mget t.floors line 0) w) (if isHost (64 * line) then t.hostFloor else t.homeFloor)

/-- A load of a line may be served from a copy that a cluster keeps: a device line, or a line of a host page that the
strand's context maps with device bias (R466). -/
def State.mayBeOld (s : State) (core line : Nat) : Bool :=
  !isHost (64 * line) || s.leaves.any fun l =>
    some l.asid == (s.strand core).asid && l.tier == 2 && l.bias &&
      (let pa := if l.ats then (s.ats.find? (fun x => x.1 == l.asid && x.2.1 == l.pa)).elim l.pa (fun x => x.2.2) else l.pa
       decide (hostBase + pa ≤ 64 * line) && decide (64 * line < hostBase + pa + l.size))

/-- The tick before which no load takes the state of a line: that of the strand's floor, and of the latest invalidation of
its host page (R298, R466). -/
def State.lineFloor (s : State) (t : Strand) (line : Nat) : Nat :=
  s.pageFloors.foldl (fun f x => if x.1 ≤ line ∧ line < x.2.1 then max f x.2.2 else f) (t.floor line)

/-- The tick whose home state a load takes: any from the floor to now (R298); on a host-bias page, now (R466). -/
def State.viewTick (s : State) (core line : Nat) : Nat :=
  if s.mayBeOld core line then min s.now (max (s.lineFloor (s.strand core) line) (mget s.choice.view line s.now)) else s.now

/-- The view of a strand on a line (R298). -/
def State.view (s : State) (core line : Nat) : Seen :=
  let t := s.strand core
  let rs := sortRecs (s.covering line fun c r =>
    (decide (r.idx < (s.log c).pub) || c == core) &&
      (t.requires core c r || (decide (r.idx < (s.log c).pub) && s.choice.opts.contains (c, r.idx))))
  rs.foldl (fun v x => v.apply line x.1 x.2) (s.homeAt line (s.viewTick core line))

/-- Why a line cannot be delivered (R303, R470). -/
def State.lineError (s : State) (line : Nat) (bad : Bool) : Option Cause :=
  match mfind s.failed line with
  | some true => some cINTEGRITY
  | some false => some cUE_DATA
  | none => if bad then some cLOG_POISON else none

/-- What a strand keeps of a load of a line (R298): the records it applied and the home state it took. -/
def State.noteView (s : State) (core line : Nat) (v : Seen) : State :=
  let t := s.strand core
  s.setStrand core { t with
    seen := v.used.filter (fun u => !t.seen.contains u) ++ t.seen,
    floors := mset t.floors line (s.viewTick core line) }

/-- The bytes of a read, the state after it, the keys it lifts to, and the error it met. -/
structure Read where
  s : State
  bytes : List Byte
  keys : List Key
  err : Option Cause
  deriving DecidableEq, Repr

/-- Bytes o to o + n − 1 of a line. -/
def lineBytes (l : Line) (o n : Nat) : List Byte :=
  (List.range n).map (fun i => l.extractLsb' (8 * (o + i)) 8)

/-- Reads n bytes that lie in one line (R266, R298, R470). -/
def State.readLine (s : State) (core pa n : Nat) : Read :=
  let line := pa / 64
  if isGlobal pa then
    let v := s.view core line
    ⟨v.bad.foldl (fun s t => s.reportTaint line t) (s.noteView core line v), lineBytes v.data (pa % 64) n,
      [v.key], s.lineError line (v.bad != [])⟩
  else ⟨s, memBytes s.mem pa n, [], s.lineError line false⟩

/-- Reads n bytes, line by line; the count bounds the lines. -/
def State.readLines (s : State) (core pa n : Nat) : Nat → Read
  | 0 => ⟨s, [], [], none⟩
  | k + 1 =>
    let m := min n (64 - pa % 64)
    let r := s.readLine core pa m
    if m = n then r
    else
      let q := r.s.readLines core (pa + m) (n - m) k
      ⟨q.s, r.bytes ++ q.bytes, r.keys ++ q.keys, r.err.or q.err⟩

/-- Reads n bytes from a place. -/
def State.read (s : State) (core pa n : Nat) : Read := s.readLines core pa n (n / 64 + 2)

/-- Writes selected bytes that lie in one line in place (R271, R471). -/
def State.putLine (s : State) (pa : Nat) (bs : List (Byte × Bool)) : State :=
  let s' := { s with mem := memPutMask s.mem pa bs }
  if pa % 64 = 0 && bs.length == 64 && bs.all (·.2) then
    { s' with failed := mdel s'.failed (pa / 64) }
  else s'

/-- A list of bytes as a number, the first least significant. -/
def bytesNat : List Byte → Nat
  | [] => 0
  | b :: bs => b.toNat + 256 * bytesNat bs
/-- The n low bytes of a number. -/
def natBytes : Nat → Nat → List Byte
  | 0, _ => []
  | n + 1, x => BitVec.ofNat 8 x :: natBytes n (x / 256)
/-- Bytes, all of them selected. -/
def allBytes (l : List Byte) : List (Byte × Bool) := l.map (fun b => (b, true))

/-- The mask of selected bytes. -/
def selMask : List (Byte × Bool) → Nat
  | [] => 0
  | (_, w) :: l => w.toNat + 2 * selMask l

/-- The part of a record for selected bytes that lie in one line (R286). -/
def partOf (pa : Nat) (bs : List (Byte × Bool)) : Part :=
  ⟨pa / 64, BitVec.ofNat 64 (selMask bs * 2 ^ (pa % 64)),
    BitVec.ofNat 512 (bytesNat (bs.map (·.1)) * 2 ^ (8 * (pa % 64)))⟩

/-- Units of a line record (R286). -/
def partUnits (p : Part) : Nat := if ones 64 p.mask.toNat ≤ 32 then 1 else 2

/-- PUBLICATION_POINT_ARRIVAL (R293). -/
def execPublicationPointArrival (core die : Nat) (s : State) : Result State :=
  if Config.cores ≤ core || Config.dies ≤ die then .fault .noSuchObject
  else .next (s.pointArrives core die)

end Sys2Proof.Machine
end

