-- ==== Sys2Proof/Machine/Memory.lean ====
section
/-! DEFINITION. Scalar memory: the guard of a channel's range (R342), the line of a barrier cell (R365), LD,
ST, ATOM, SPFMT and SPFMTQ (R275 to R284, R321 to R328), and the delivery of Pending producers (R64, R66,
R290). -/

namespace Sys2Proof.Machine

/-- Adds a range of counted bytes to disjoint ranges in ascending order (R341). -/
def addRange (lo hi : Nat) : List (Nat × Nat) → List (Nat × Nat)
  | [] => [(lo, hi)]
  | (a, b) :: l =>
    if hi < a then (lo, hi) :: (a, b) :: l
    else if b < lo then (a, b) :: addRange lo hi l
    else addRange (min lo a) (max hi b) l

/-- The counted prefix of a channel's range, in bytes (R341). -/
def Chan.covered (c : Chan) : Nat :=
  match c.written with
  | (0, h) :: _ => min h c.len
  | _ => 0

/-- The watermark (R341). -/
def Chan.wm (c : Chan) : Word :=
  if c.len = 0 then 0 else c.base - 1 + BitVec.ofNat 64 c.covered

/-- Bytes that a channel's range holds above its watermark (R342). -/
def Chan.above (c : Chan) (a n : Nat) : Bool :=
  c.st != .closed && decide (max a (c.base.toNat + c.covered) < min (a + n) (c.base.toNat + c.len))

/-- The first channel that guards bytes of an access, with its state (R342). Where the ranges of several channels guard
one access, the lowest-numbered channel decides: DESIGN CHOICE, unsafe (log 84). -/
def Strand.guard (t : Strand) (a n : Nat) : Option (Nat × ChanSt) :=
  match t.chan.find? (fun c => c.2.above a n) with
  | some (i, c) => some (i, c.st)
  | none => none

/-- A cell or tag by its line in the barrier window (R363). -/
def State.cell (s : State) (line : Nat) : BCell := mget s.cells line BCell.start
/-- Replaces a cell. -/
def State.setCell (s : State) (line : Nat) (c : BCell) : State := { s with cells := mset s.cells line c }

/-- EXP of a cell (R365). -/
def BCell.exp (c : BCell) : Nat := c.cfg.toNat % 8 * ones 64 c.mask.toNat
/-- SCOPE of a cell (R366). -/
def BCell.scope (c : BCell) : BitVec 3 := c.cfg.extractLsb' 3 3
/-- The status word of a cell (R365). -/
def BCell.status (c : BCell) : Word :=
  if c.st = .free then 0
  else
    BitVec.ofNat 64 (c.gen % 2 ^ 16 * 2 ^ 48 + c.arr % 2 ^ 9 * 2 ^ 39 + c.exp % 2 ^ 9 * 2 ^ 30 +
      c.scope.toNat * 2 ^ 27 + (if c.st = .opened then 1 else 2) * 2 ^ 25 + c.nmv.toNat * 2 ^ 24 +
      (c.pend == 0).toNat * 2 ^ 23)
/-- The line of a cell (R365); a Free cell reads zero. -/
def BCell.line (c : BCell) : Line :=
  if c.st = .free then 0
  else
    (0 : BitVec 192) ++ c.cfg ++ c.pend.signExtend 64 ++ c.next ++ c.mask ++ c.status

/-- The line that a place in the barrier window or on a barrier page reads (R365, R467). -/
def State.barrierData (s : State) (pa : Nat) : Line :=
  if barrierLine pa < 3080 then (s.cell (barrierLine pa)).line else 0
/-- A live barrier word (R364). -/
def State.barrierLive (s : State) (pa : Nat) : Bool :=
  decide (barrierLine pa < 3080) && (s.cell (barrierLine pa)).st != .free

/-- Vector commands that store (R163). -/
def isVStore (o : VOp) : Bool := o == .vst || o == .vsts || o == .vstx
/-- Vector memory commands of R163, without VLSLD and VLSST. -/
def isVMemory (o : VOp) : Bool :=
  isVStore o || o == .vld || o == .vlds || o == .vldx || o == .qld

/-- Vector loads. -/
def isVLoad (o : VOp) : Bool := o == .vld || o == .vlds || o == .vldx

/-- The writes of a path of a strand that no sub-bank has granted yet: 0 of STs, 1 of vector stores. -/
def Strand.writesOf (t : Strand) (path : Nat) : Bool := t.writes.any (fun w => w.path == path)
/-- Every scratchpad write of the core path is performed (R313). -/
def Strand.coreWritesDone (t : Strand) : Bool := !t.writesOf 0 && !t.writesOf 1
/-- A strided or indexed load that has lanes left to read (R183, R266). -/
def Prod.reads (p : Prod) : Bool :=
  match p.src with
  | .lanes _ => true
  | _ => false
/-- The vector unit is in the middle of a strided or indexed load, and starts no other command (R167). -/
def Strand.lanesDue (t : Strand) : Bool := t.pend.any Prod.reads
/-- Every earlier vector store has performed (R163). -/
def Strand.storesDone (t : Strand) : Bool := t.vcq.all (fun c => !isVStore c.op) && !t.writesOf 1
/-- No QLD read is left to perform (R162). -/
def Strand.queuesDone (t : Strand) : Bool := t.vq.all (fun q => q.2.all (fun e => e.fe != .pending))
/-- Every earlier vector memory command has performed (R163). -/
def Strand.vectorMemoryDone (t : Strand) : Bool :=
  t.vcq.all (fun c => !isVMemory c.op) && t.queuesDone && !t.writesOf 1 && !t.lanesDue
/-- An ATOM of the strand, earlier than a place in program order, that has not executed (R163, R327). -/
def Strand.atomDue (t : Strand) (seq : Nat) : Bool :=
  t.pend.any fun p => decide (p.seq < seq) && match p.src with
    | .atom _ | .sent _ => true
    | _ => false

/-- An address of the own core scratchpad (R259), whose accesses its bank serves at once (R264, R267, R283). -/
def ownAddress (a : Word) : Bool := a.toNat / 2 ^ 52 == 0xFF0

/-- Whether two byte ranges meet. -/
def overlap (a n b m : Nat) : Bool := decide (a < b + m) && decide (b < a + n)

/-- A group of scratchpad writes leaves its path, and is performed when its sub-banks grant it (R266, R313). -/
def State.addWrite (s : State) (core path tag : Nat) (l : List (Nat × List (Byte × Bool))) : State :=
  let t := s.strand core
  { s.setStrand core { t with writes := t.writes ++ [⟨path, s.nextId, tag, l⟩] } with nextId := s.nextId + 1 }

/-- Performs line writes in place. -/
def State.putLines (s : State) (l : List (Nat × List (Byte × Bool))) : State := l.foldl (fun s x => s.putLine x.1 x.2) s

/-- A group of scratchpad writes is performed; those on another die cross its flow (R314, R478). -/
def State.putWrite (s : State) (core : Nat) (w : SWrite) : State :=
  (s.enterWrites core (if w.path < 2 then 0 else 1) .write w.parts).putLines w.parts

/-- A group of writes meets n bytes at a place. -/
def SWrite.meets (w : SWrite) (pa n : Nat) : Bool := w.parts.any (fun x => overlap x.1 x.2.length pa n)

/-- Performs the waiting scratchpad writes of a strand that meet a condition, oldest first (R313). -/
def State.performWrites (s : State) (core : Nat) (p : SWrite → Bool) : State :=
  let t := s.strand core
  let s := s.setStrand core { t with writes := t.writes.filter (fun w => !p w) }
  (t.writes.filter p).foldl (fun s w => s.putWrite core w) s

/-- Two groups of writes that keep their order: those of one vector store (R266), and where they meet both of the core path,
or both of one table (R283, R315). -/
def SWrite.inOrder (v w : SWrite) : Bool :=
  (v.path == 1 && w.path == 1 && v.tag == w.tag) ||
    (((v.path < 2 && w.path < 2) || v.path == w.path) && w.parts.any (fun x => v.meets x.1 x.2.length))

/-- The n-th waiting group of scratchpad writes of a strand is granted whole, unless one that comes before it in its path's
order still waits (R266, R270, R313, R315). -/
def State.grantWrite (s : State) (core n : Nat) : State :=
  let t := s.strand core
  match t.writes[n]? with
  | none => s
  | some w =>
    if (t.writes.take n).any (fun v => v.inOrder w) then s
    else (s.setStrand core { t with writes := t.writes.eraseIdx n }).putWrite core w

/-- The writes of a strand's core path are performed before it reads bytes that one of them writes (R283). -/
def State.settleWrites (s : State) (core pa n : Nat) : State :=
  if (s.strand core).writes.any (fun w => w.path < 2 && w.meets pa n) then
    s.performWrites core (fun w => w.path < 2)
  else s

/-- A read of n bytes by an LD at its place: memory, or the line of a cell. -/
def State.readPlace (s : State) (core pa n : Nat) : Read :=
  if isBarrier pa then ⟨s, lineBytes (s.barrierData pa) (pa % 64) n, [], none⟩ else s.read core pa n

/-- The value of an LD (R280). -/
def extend (sz : BitVec 3) (x : Nat) : Word :=
  if sizeSigned sz then BitVec.ofInt 64 (sextI x (8 * sizeOf sz)) else BitVec.ofNat 64 x

/-- The die links that reach a place from another die are not all alive (R479). -/
def State.linkDead (s : State) (core pa : Nat) : Bool :=
  match placeDie pa with
  | none => false
  | some d => d != dieOf core && [dieOf core, d].any fun e =>
      match mfind s.links (32 + e) with
      | some l => l.st == .dead
      | none => false

/-- Performs a load: the word or error that its producer then delivers, and the keys to lift (R290). -/
def State.performLoad (s : State) (core pa : Nat) (addr : Word) (sz : BitVec 3) : State × Src × List Key :=
  if s.linkDead core pa then (s, .error cLINK_DEAD 0, [])
  else
    let r := (s.settleWrites core pa (sizeOf sz)).readPlace core pa (sizeOf sz)
    match r.err with
    | some c => (r.s, .error c addr, [])
    | none => (r.s, .word (extend sz (bytesNat r.bytes)), r.keys)

/-- Performs the outstanding loads among some producers that meet bytes (R283). -/
def captureGo (core a n : Nat) : List Prod → State → List Prod × State
  | [], s => ([], s)
  | p :: ps, s =>
    match p.src with
    | .load pa addr sz =>
      if overlap a n pa (sizeOf sz) then
        let (s, src, keys) := s.performLoad core pa addr sz
        let (ps, s) := captureGo core a n ps s
        ({ p with src := src, lift := keys } :: ps, s)
      else
        let (ps, s) := captureGo core a n ps s
        (p :: ps, s)
    | _ =>
      let (ps, s) := captureGo core a n ps s
      (p :: ps, s)

/-- Before a strand writes bytes, its own earlier loads of them are performed (R283). -/
def State.capture (s : State) (core a n : Nat) : State :=
  let (ps, s') := captureGo core a n (s.strand core).pend s
  s'.setStrand core { s'.strand core with pend := ps }

/-- Operations that have been performed and answered leave every flow between dies (R479, R480). -/
def State.settleFlows (s : State) (p : FlowOp → Bool) : State :=
  { s with dieFlows := s.dieFlows.map fun f => (f.1, f.2.settle p) }

/-- The operations of a strand's producer that delivers leave every flow (R479). -/
def State.leaveFlows (s : State) (core seq : Nat) : State :=
  s.settleFlows (fun o => o.core == core && o.use == .strand seq)

/-- A read of n bytes by a vector command, after the strand's own scratchpad writes of them (R163, R283), which a dead die
link fails (R117, R479). -/
def State.readCore (s : State) (core pa n : Nat) : Read :=
  if s.linkDead core pa then ⟨s, List.replicate n 0, [], some cLINK_DEAD⟩ else (s.settleWrites core pa n).read core pa n

/-- Address, translation and guard of a scalar access (R118, R279 to R281, R342). -/
def State.access (s : State) (a : Word) (n : Nat) (acc : Access) (k : State → Nat → Result State) :
    Result State :=
  if a.toNat % n != 0 then s.trap cMISALIGN a
  else
    match s.place s.cur a n acc with
    | .bad c => (s.touch s.cur a).trap c a
    | .wait => .next ((s.touch s.cur a).stall (.translation a))
    | .at pa =>
      let s := s.touch s.cur a
      match s.me.guard a.toNat n with
      | some (_, .broken) => s.trap cCHANNEL_BROKEN a
      | some (i, _) => .next (s.stall (.guard i a))
      | none => k s pa

/-- LD (R280). -/
def execLd (o : OpM) (s : State) : Result State :=
  s.src1 o.a o.ea fun ga =>
    let a := addrM ga o
    s.dest o.d (s.access a (sizeOf o.sz) .read fun s pa =>
      if !s.me.storesDone then .next (s.stall .vectorStores)
      else if ownAddress a then
        let r := (s.settleWrites s.cur pa (sizeOf o.sz)).readPlace s.cur pa (sizeOf o.sz)
        match r.err with
        | some c =>
          let t := r.s.me.markG o.d.toNat .idle
          r.s.endWith { t with deferred := t.deferred ++ [⟨t.seq, c, a, s.ptime s.cur⟩] }
        | none => r.s.write o.d (extend o.sz (bytesNat r.bytes))
      else (s.enterFlow s.cur 0 pa [] (.strand s.me.seq)).produce o.d (.load pa a o.sz))

/-- ST (R281). -/
def execSt (o : OpM) (s : State) : Result State :=
  s.src2 o.a o.ea o.d o.ea fun ga x =>
    let a := addrM ga o
    let n := sizeOf o.sz
    s.access a n .write fun s pa =>
      if isBarrierPage pa && !s.barrierLive pa then s.endWith s.me
      else if isBarrier pa then s.trap cBARRIER_CLOBBER a
      else if !s.me.vectorMemoryDone then .next (s.stall .vectorMemory)
      else
        let bs := allBytes (natBytes n x.toNat)
        let s := s.capture s.cur pa n
        if isGlobal pa then
          if (s.log s.cur).fits 1 then
            let s := s.append s.cur 1 [partOf pa bs]
            s.endWith s.me
          else .next (s.stall (.log 1))
        else
          let s := if ownAddress a then (s.settleWrites s.cur pa n).putLine pa bs else s.addWrite s.cur 0 s.me.seq [(pa, bs)]
          s.endWith s.me

/-- Element types of an ATOM: i32, i64, n32, n64, fp32 (R83). -/
def atomSize (ty : BitVec 3) : Nat := if ty = 1 || ty = 3 then 8 else 4

/-- The value that an ATOM writes (R328), on numbers of its size. -/
def opval (op ty : Nat) (old x c : Nat) : Nat :=
  let w := if ty = 1 || ty = 3 then 64 else 32
  let signed := ty ≤ 1
  match op with
  | 0 => if ty = 4 then (rne32 (addVal 0 (v32 old) (v32 x)).1).1 else (old + x) % 2 ^ w
  | 1 =>
    if ty = 4 then (rne32 (fminmax false true (v32 old) (v32 x)).1).1
    else if signed then (if sextI x w < sextI old w then x else old) else min old x
  | 2 =>
    if ty = 4 then (rne32 (fminmax true true (v32 old) (v32 x)).1).1
    else if signed then (if sextI old w < sextI x w then x else old) else max old x
  | 3 => old &&& x
  | 4 => old ||| x
  | 5 => old ^^^ x
  | 6 => x
  | _ => if old = c then x else old

/-- What an ATOM returns (R327): i32 sign-extended, others as they are. -/
def atomResult (ty : BitVec 3) (old : Nat) : Word :=
  if ty = 0 then BitVec.ofInt 64 (sextI old 32) else BitVec.ofNat 64 old

/-- The value an ATOM writes at its size. -/
def AtomReq.value (r : AtomReq) (old : Nat) : Nat :=
  let m := 2 ^ (8 * atomSize r.ty)
  opval r.op.toNat r.ty.toNat old (r.x.toNat % m) (r.c.toNat % m)

/-- An ATOM at a scratchpad bank (R321). -/
def State.atomInPlace (s : State) (r : AtomReq) : State × Src :=
  match s.lineError (r.pa / 64) false with
  | some c => (s, .error c r.addr)
  | none =>
    let n := atomSize r.ty
    let old := memNat s.mem r.pa n
    (s.putLine r.pa (allBytes (natBytes n (r.value old))), .word (atomResult r.ty old))

/-- The key that an atomic or a window write gives a line (R295, R485). -/
def nextKey (k : Key) (core : Nat) : Key := ⟨min (k.time + 1) timeTop, core⟩

/-- The dies of the homes that an ATOM of a core visits (R320): the cluster's own L1 where it owns the line; else the L2
that is the line's home, to which a recall brings it back, and then the cluster's L1, where the scope has it executed
there. -/
def State.pressDies (s : State) (core : Nat) (r : AtomReq) : List Nat :=
  if r.scope.toNat ≤ 2 then
    if mfind s.owned (r.pa / 64) = some (core / 4) then [dieOf core] else [homeDie r.pa, dieOf core]
  else [homeDie r.pa]

/-- An ATOM at the home of a global line, after the pressing of R295, or at the host (R320, R321). -/
def State.atomAtHome (s : State) (core : Nat) (r : AtomReq) : State × Src × List Key :=
  let line := r.pa / 64
  let n := atomSize r.ty
  let host := isHost r.pa
  let s := if host then s else s.pressLine line (s.pressDies core r) core
  match s.lineError line (mfind s.poison line).isSome with
  | some c => ((mfind s.poison line).toList.foldl (fun s t => s.reportTaint line t) s, .error (if c = cLOG_POISON then cUE_DATA else c) r.addr, [])
  | none =>
    let old := memNat s.mem r.pa n
    let key := if host then ⟨0, 0⟩ else nextKey (s.lineKey line) core
    let p := partOf r.pa (allBytes (natBytes n (r.value old)))
    let s := s.putHome line (mergeLine (s.lineData line) p.data p.mask) key
    let t := s.strand core
    let s := s.setStrand core { t with floors := mset t.floors line s.now }
    let s := { s with owned :=
      if !host && r.scope.toNat ≤ 2 then mset s.owned line (core / 4) else mdel s.owned line }
    (s, .word (atomResult r.ty old), [key])

/-- An ATOM waits no longer: every earlier ST and ATOM of its strand is performed (R327). -/
def Strand.atomLeaves (t : Strand) (seq : Nat) : Bool :=
  !t.atomDue seq && t.writes.all (fun w => 2 ≤ w.path || decide (seq ≤ w.tag))

/-- A global ATOM leaves its core: the log is published first (R293, R327). -/
def State.atomOut (s : State) (core pa seq : Nat) : State := (s.publish core).enterFlow core 0 pa [] (.strand seq)

/-- ATOM (R163, R327). -/
def execAtom (o : OpX) (s : State) : Result State :=
  s.src3 o.a o.ea o.b o.eb (if o.op = 7 then o.d else 0) o.ea fun a x c =>
    let n := atomSize o.ty
    s.dest o.d (s.access a n .atom fun s pa =>
      if isBarrier pa then s.trap cBARRIER_CLOBBER a
      else if isHost pa && (o.ty = 4 || !(o.op = 0 || o.op = 6 || o.op = 7)) then s.trap cATOM_TYPE a
      else if !s.me.vectorMemoryDone then .next (s.stall .vectorMemory)
      else
        let r : AtomReq := ⟨pa, a, o.op, o.ty, o.scope, x, c⟩
        let s := s.capture s.cur pa n
        if isGlobal pa && s.me.atomLeaves s.me.seq then (s.atomOut s.cur pa s.me.seq).produce o.d (.sent r)
        else s.produce o.d (.atom r))

/-- Replaces the source of a producer. -/
def Strand.supply (t : Strand) (seq : Nat) (src : Src) (lift : List Key) : Strand :=
  { t with pend := t.pend.map fun p => if p.seq = seq then { p with src := src, lift := lift } else p }

/-- The first outstanding ATOM of a strand in program order, and whether it has left its core. -/
def Strand.firstAtom (t : Strand) : Option (Nat × AtomReq × Bool) :=
  t.pend.findSome? fun p => match p.src with
    | .atom r => some (p.seq, r, false)
    | .sent r => some (p.seq, r, true)
    | _ => none

/-- Records of host lines that a log has published and not yet sent (R321). -/
def Log.hostDue (l : Log) : Bool :=
  l.recs.any (fun r => r.idx < l.pub && r.parts.any (fun p => isHost (64 * p.line)))

/-- A kill does not withdraw an ATOM that has left its core: it is performed, and its result is discarded (R327). -/
def State.finishAtoms (s : State) (core : Nat) : List Prod → State
  | [] => s
  | p :: ps =>
    match p.src with
    | .sent r =>
      let s := if isHost r.pa then s.pressPublished core else s
      State.finishAtoms (if s.linkDead core r.pa then s else (s.atomAtHome core r).1) core ps
    | _ => State.finishAtoms s core ps

/-- ATOM_HOME_EXECUTE (R295, R320, R321, R327): the first outstanding ATOM of a strand leaves its core, or executes at
the place of its target. -/
def execAtomHomeExecute (core : Nat) (s : State) : Result State :=
  if Config.cores ≤ core then .fault .noSuchObject
  else
    match (s.strand core).firstAtom with
    | none => .next s
    | some (seq, r, false) =>
      if !(s.strand core).atomLeaves seq then .next s
      else if isGlobal r.pa then
        let s := s.atomOut core r.pa seq
        .next (s.setStrand core ((s.strand core).supply seq (.sent r) []))
      else
        let (s, src) := s.atomInPlace r
        .next (s.setStrand core ((s.strand core).supply seq src []))
    | some (seq, r, true) =>
      if isHost r.pa && (s.log core).hostDue then .next s
      else if s.linkDead core r.pa then
        .next (s.setStrand core ((s.strand core).supply seq (.error cLINK_DEAD 0) []))
      else
        let (s, src, keys) := s.atomAtHome core r
        .next (s.setStrand core ((s.strand core).supply seq src keys))

/-- LINE_RECALL (R320): a line that a cluster L1 owns returns to its home; its value and key go with it. -/
def execLineRecall (line : Nat) (s : State) : Result State :=
  .next { s with owned := mdel s.owned line }

/-- Leaves a Pending destination Idle (R66). -/
def Strand.idle (t : Strand) : Dst → Strand
  | .g n => t.markG n .idle
  | .v ns => ns.foldl (fun t n => { t.markV n .idle with vbad := n :: t.vbad }) t

/-- Writes a delivered value. -/
def Strand.deliver (t : Strand) : Dst → Src → Strand
  | .g n, .word x => t.setG n x
  | .v ns, .vec xs => (ns.zip xs).foldl (fun t p => t.setV p.1 p.2) t
  | _, _ => t

/-- Earlier loads of the same global line are performed first, so that a strand sees a line's writes in
order (R299). -/
def State.captureLine (s : State) (core pa : Nat) (seq : Nat) : State :=
  if isGlobal pa then
    let ps := (s.strand core).pend
    let (qs, s') := captureGo core (pa / 64 * 64) 64 (ps.filter (fun p => p.seq < seq)) s
    s'.setStrand core { s'.strand core with pend := qs ++ ps.filter (fun p => seq ≤ p.seq) }
  else s

/-- Commands that occupy the vector command queue: those not started and those not delivered (R160). -/
def Strand.vocc (t : Strand) : Nat := t.vcq.length + (t.pend.filter (·.vec.isSome)).length
/-- The weir of the vector command queue is free again once the queue is at its capacity or below
(R115). -/
def Strand.settleWeir (t : Strand) : Strand := if t.vocc ≤ 16 then { t with vweir := false } else t

/-- The records of a flume that have not been taken (R387). -/
def Flume.count (f : Flume) : Nat := (f.tail + 2 ^ 48 - f.head) % 2 ^ 48
/-- The next value of a flume's counter (R387). -/
def ticketAfter (n : Nat) : Nat := (n + 1) % 2 ^ 48

/-- A flume of a kernel on a die that holds a record not yet taken (R387). -/
def State.flumeHead (s : State) (kernel die : Nat) : Option (Kernel × Flume × Line) :=
  match mfind s.kernels kernel with
  | none => none
  | some k =>
    match mfind k.flumes die with
    | none => none
    | some f =>
      if f.count ≠ 0 then
        match f.recs with
        | (_, r) :: _ => some (k, f, r)
        | [] => none
      else none

/-- Changes the source of a producer that goes on. -/
def Strand.setSource (t : Strand) (p : Prod) (src : Src) : Strand :=
  { t with pend := t.pend.map fun q => if q = p then { q with src := src } else q }

/-- One probe of an FPOP (R389, R391): the flume of the next die in its order, which gives its oldest record, or
the probe goes on to the die after. -/
def State.probeFlume (s : State) (core : Nat) (p : Prod) : State :=
  match p.src with
  | .fpop pa kernel probed closed none =>
    let d := (dieOf core + probed) % 6
    match if s.present d then s.flumeHead kernel d else none with
    | some (k, f, r) =>
      let s := { s with kernels := mset s.kernels kernel { k with
        flumes := mset k.flumes d { f with head := ticketAfter f.head, recs := f.recs.drop 1 } } }
      s.setStrand core ((s.strand core).setSource p (.fpop pa kernel probed closed (some (d, f.head, r))))
    | none => s.setStrand core ((s.strand core).setSource p (.fpop pa kernel (probed + 1) closed none))
  | _ => s

/-- The sub-bank of a line of a scratchpad, with its bank (R265): lines of other memories are never in one. -/
def subBank (line : Nat) : Nat × Nat :=
  if sharedBase ≤ 64 * line ∧ 64 * line < spBase then ((64 * line - sharedBase) / 2 ^ 18, line % 8)
  else if spBase ≤ 64 * line ∧ 64 * line < laneBase then (2 ^ 30 + (64 * line - spBase) / 2 ^ 16, line % 8)
  else (2 ^ 60 + line, 0)

/-- The longest run of lanes whose lines include no two different lines of one sub-bank: the lanes of the next group and
those after it; `lines` are the lines already in the group (R266). -/
def takeGroup (lines : List Nat) : List (Nat × Nat × Nat) → List (Nat × Nat × Nat) × List (Nat × Nat × Nat)
  | [] => ([], [])
  | x :: xs =>
    let line := x.2.2 / 64
    if lines.any (fun y => y != line && subBank y == subBank line) then ([], x :: xs)
    else
      let r := takeGroup (line :: lines) xs
      (x :: r.1, r.2)

/-- Reads the lanes of one group of a strided or indexed load: the values, the keys to lift to, and the error of the first
lane that fails, with its address (R183, R185). -/
def State.readGroup (s : State) (core n : Nat) :
    List (Nat × Nat × Nat) → State × List (Nat × Nat) × List Key × Option (Cause × Nat)
  | [] => (s, [], [], none)
  | (i, a, pa) :: l =>
    let r := s.readCore core pa n
    let (s', vs, ks, e) := r.s.readGroup core n l
    (s', (i, bytesNat r.bytes) :: vs, r.keys ++ ks, match r.err with
      | some c => some (c, a)
      | none => e)

/-- What a strided or indexed load delivers once it has read its lanes (R183, R185). -/
def LaneReq.source (r : LaneReq) : Src :=
  match r.err with
  | some (c, a) => .error c (BitVec.ofNat 64 a)
  | none => .vec [mergeReg (8 * r.n) r.zm r.old
      ((List.range (laneCount (8 * r.n))).map (fun i => (r.got.find? (fun v => v.1 == i)).map (·.2)))]

/-- A strided or indexed load reads its next group of lanes (R266); with its last one it has what it delivers. -/
def State.readLanes (s : State) (core : Nat) (p : Prod) : State :=
  match p.src with
  | .lanes r =>
    let g := takeGroup [] r.todo
    let (s, vs, ks, e) := s.readGroup core r.n g.1
    let q : LaneReq := { r with todo := g.2, got := r.got ++ vs, err := r.err.or e }
    let src := if g.2 = [] then q.source else .lanes q
    let t := s.strand core
    s.setStrand core { t with pend := t.pend.map fun x =>
      if x.seq = p.seq && x.dst == p.dst then { x with src := src, lift := x.lift ++ ks } else x }
  | _ => s

/-- The value a producer has by now, or none while it cannot deliver. -/
def State.sourceNow (s : State) (core : Nat) (p : Prod) : Option (State × Src × List Key) :=
  match p.src with
  | .load pa addr sz => some ((s.captureLine core pa p.seq).performLoad core pa addr sz)
  | .cell die c => some (s, .word (s.cell (512 * die + c)).status, [])
  | .word _ | .vec _ | .error _ _ => some (s, p.src, p.lift)
  | .fpop pa _ _ _ (some (_, _, r)) => some (s.putLine pa (allBytes (lineBytes r 0 64)), .word 1, [])
  | .fpop _ _ probed closed none => if 6 ≤ probed then some (s, .word (if closed then 2 else 0), []) else none
  | .atom _ | .sent _ | .reduce _ | .lanes _ | .chan _ | .window _ => none

/-- PRODUCER_DELIVERY (R66, R290): the n-th outstanding producer of a strand delivers, or ends in error. -/
def execProducerDelivery (core n : Nat) (s : State) : Result State :=
  if Config.cores ≤ core then .fault .noSuchObject
  else
    match (s.strand core).pend[n]? with
    | none => .next s
    | some p =>
      match s.sourceNow core p with
      | none => .next ((s.probeFlume core p).readLanes core p)
      | some (s, src, keys) =>
        let t := s.strand core
        let t :=
          { t with pend := t.pend.filter (fun q => !(q.seq == p.seq && q.dst == p.dst)) }.settleWeir
        let s := s.leaveFlows core p.seq
        match src with
        | .error c tval =>
          let t := t.idle p.dst
          .next (s.setStrand core { t with deferred := t.deferred ++ [⟨p.seq, c, tval, s.ptime core⟩] })
        | _ => .next ((s.setStrand core (t.deliver p.dst src)).liftAll core keys)

/-- The bank that an address names for SPFMT (R265, R275): of a core, or a shared one. -/
def bankOf (pa : Nat) : Sum (Nat × Nat) Nat :=
  if sharedBase ≤ pa ∧ pa < spBase then .inr ((pa - sharedBase) / 2 ^ 20)
  else .inl ((pa - spBase) / 2 ^ 21, (pa - spBase) % 2 ^ 21 / 2 ^ 16)

/-- The format a bank has at reset (R272). -/
def formatReset : BitVec 32 := 0x0000FF0F
/-- The format register of a bank (R272). -/
def State.format (s : State) : Sum (Nat × Nat) Nat → BitVec 32
  | .inl (core, b) => mget (s.core core).fmt b formatReset
  | .inr g => mget s.shfmt g formatReset
/-- A bank by number: 64 for each core, and the shared ones from 2^20. -/
def bankCode : Sum (Nat × Nat) Nat → Nat
  | .inl (core, b) => 64 * core + b
  | .inr g => 2 ^ 20 + g
/-- The bank of a number. -/
def bankOfCode (n : Nat) : Sum (Nat × Nat) Nat := if n < 2 ^ 20 then .inl (n / 64, n % 64) else .inr (n - 2 ^ 20)
/-- Writes a format register (R275). -/
def State.setFormat (s : State) (b : Sum (Nat × Nat) Nat) (x : BitVec 32) : State :=
  match b with
  | .inl (core, n) => s.setCore core { s.core core with fmt := mset (s.core core).fmt n x }
  | .inr g => { s with shfmt := mset s.shfmt g x }

/-- Puts a write of a format register behind those of lesser cores. -/
def insertByCore (x : Nat × Nat × BitVec 32) : List (Nat × Nat × BitVec 32) → List (Nat × Nat × BitVec 32)
  | [] => [x]
  | y :: l => if x.1 ≤ y.1 then x :: y :: l else y :: insertByCore x l

/-- The format registers written in the tick that ends take their values, in ascending order of the cores that wrote
them (R278). -/
def State.applyFormats (s : State) : State :=
  (s.fmtDue.foldr insertByCore []).foldl (fun s x => s.setFormat (bankOfCode x.2.1) x.2.2) { s with fmtDue := [] }

/-- An address within a scratchpad region of the map (R259, R275). -/
def inScratch (a : Word) : Bool :=
  let x := a.toNat
  decide (0xFF00000000000000 ≤ x) && decide (x % 2 ^ 52 < (match x / 2 ^ 52 % 16 with
    | 0 => Config.spBytes
    | 1 => 2 ^ 21
    | 2 => Config.sharedBytes
    | _ => 0)) && decide (x < 0xFF30000000000000)

/-- A format that SPFMT refuses (R275). -/
def formatBad (x : BitVec 32) : Bool :=
  x.extractLsb' 16 16 != 0 || (decide (8 ≤ x.toNat % 16) && decide (x.toNat % 16 ≤ 14))

/-- A place in a bank that has a format register (R272). -/
def inBank (pa : Nat) : Bool := decide (sharedBase ≤ pa) && decide (pa < laneBase)

/-- Accesses of a strand's core path to a bank that have not been performed (R275, R391). -/
def Strand.bankDue (t : Strand) (b : Sum (Nat × Nat) Nat) : Bool :=
  t.pend.any (fun p => match p.src with
    | .load pa _ _ | .fpop pa _ _ _ _ => inBank pa && bankOf pa == b
    | .atom r => inBank r.pa && bankOf r.pa == b
    | _ => false) ||
  t.writes.any (fun w => w.path < 2 && w.parts.any (fun x => inBank x.1 && bankOf x.1 == b))

/-- SPFMT (R275): the register takes its value at the end of the tick (R278). -/
def execSpfmt (o : OpA) (s : State) : Result State :=
  s.src2 o.a o.ea o.b o.eb fun a x =>
    if !inScratch a then s.trap cPROTECT a
    else s.access a 1 .write fun s pa =>
      let f : BitVec 32 := x.setWidth 32
      if formatBad f then s.trap cFORMAT a
      else if !s.me.vectorMemoryDone then .next (s.stall .vectorMemory)
      else if s.me.bankDue (bankOf pa) then .next (s.stall (.until (.bankDone (bankCode (bankOf pa)))))
      else
        let s : State := { s with fmtDue := s.fmtDue ++ [(s.cur, bankCode (bankOf pa), f)] }
        s.endWith s.me

/-- SPFMTQ (R276): the value is that at issue. -/
def execSpfmtq (o : OpA) (s : State) : Result State :=
  s.src1 o.a o.ea fun a =>
    if !inScratch a then s.dest o.d (s.trap cPROTECT a)
    else
      s.dest o.d (match s.place s.cur a 1 .read with
        | .at pa => s.produce o.d (.word ((s.format (bankOf pa)).setWidth 64))
        | .bad c => s.trap c a
        | .wait => .next (s.stall (.translation a)))

end Sys2Proof.Machine
end

