-- ==== Sys2Proof/Machine/Control.lean ====
section
/-! DEFINITION. The instructions that control the stream: branches, jumps and LOOP (R127 to R129), the
full/empty operations (R133), the queries (R134 to R136), control registers (R70, R71, R137), SLEEP (R138),
and the trap instructions (R140 to R142). -/

namespace Sys2Proof.Machine

/-- A conditional branch (R127). -/
def branch (o : OpB) (taken : Word → Word → Bool) (s : State) : Result State :=
  s.src2 o.a o.ea o.b o.eb fun x y =>
    if taken x y then s.endAt s.me (targetB s.me.pc o.off) else s.endWith s.me

/-- beq (R127). -/
def execBeq (o : OpB) (s : State) : Result State := branch o (fun x y => x == y) s
/-- bne (R127). -/
def execBne (o : OpB) (s : State) : Result State := branch o (fun x y => x != y) s
/-- blt (R127). -/
def execBlt (o : OpB) (s : State) : Result State := branch o (fun x y => x.slt y) s
/-- bge (R127). -/
def execBge (o : OpB) (s : State) : Result State := branch o (fun x y => !x.slt y) s
/-- bltn (R127). -/
def execBltn (o : OpB) (s : State) : Result State := branch o (fun x y => x.ult y) s
/-- bgen (R127). -/
def execBgen (o : OpB) (s : State) : Result State := branch o (fun x y => !x.ult y) s

/-- j (R128). -/
def execJ (off : BitVec 26) (s : State) : Result State := s.endAt s.me (targetJ s.me.pc off)
/-- jal (R128): links in g31. -/
def execJal (off : BitVec 26) (s : State) : Result State :=
  s.dest 31 (s.endAt (s.me.setG 31 (s.me.pc + 4)) (targetJ s.me.pc off))
/-- jr (R107, R128). -/
def execJr (o : OpA) (s : State) : Result State :=
  s.src1 o.a o.ea fun x =>
    if x.extractLsb' 0 2 != 0 then s.trap cMISALIGN x else s.endAt s.me x
/-- jalr (R107, R128): ga is read before gd is written. -/
def execJalr (o : OpA) (s : State) : Result State :=
  s.src1 o.a o.ea fun x =>
    s.dest o.d (if x.extractLsb' 0 2 != 0 then s.trap cMISALIGN x
      else s.endAt (s.me.setG o.d.toNat (s.me.pc + 4)) x)
/-- loop (R62, R129). -/
def execLoop (o : OpB) (s : State) : Result State :=
  s.src1 o.a o.ea fun x =>
    let n := x - 1
    let t := { s.me.setG o.a.toNat n with vrb := s.me.vrb - 1 }
    if n != 0 then s.endAt t (targetB s.me.pc o.off) else s.endWith t

/-- The full/empty state that a form names: a logical register of one of the two files (R60, R133). -/
def Strand.feOf (t : Strand) (file : Bool) (r : Reg) : FE :=
  if file then t.vst (physV t.vrb r.toNat) else t.gst r.toNat
/-- The wait for that register. -/
def Strand.feWait (t : Strand) (file : Bool) (r : Reg) : Why :=
  if file then .reg true (physV t.vrb r.toNat) else .reg false r.toNat

/-- The condition that fewait waits for. -/
def Strand.feCond (t : Strand) (file : Bool) (r : Reg) : Cond :=
  if file then .delivered true (physV t.vrb r.toNat) else .delivered false r.toNat

/-- femark (R133). -/
def execFemark (file : Bool) (o : OpA) (s : State) : Result State :=
  if s.me.feOf file o.d = .pending then .next (s.stall (s.me.feWait file o.d))
  else s.endWith (if file then s.me.markV (physV s.me.vrb o.d.toNat) .idle else s.me.markG o.d.toNat .idle)
/-- fetest (R133). -/
def execFetest (file : Bool) (o : OpA) (s : State) : Result State :=
  s.write o.d (match s.me.feOf file o.a with
    | .full => 2
    | .pending => 1
    | .idle => 0)
/-- fewait (R133). -/
def execFewait (file : Bool) (o : OpA) (s : State) : Result State :=
  match s.me.feOf file o.a with
  | .full => s.endWith s.me
  | .pending => .next (s.stall (.until (s.me.feCond file o.a)))
  | .idle => s.trap cEMPTY_READ (emptyTval file o.a.toNat)

/-- Sum over the present dies. -/
def State.overDies (s : State) (f : Die → Nat) : Nat := (s.dieList.map (fun d => f (s.die d))).sum
/-- Tiles of a die that are neither Suspect nor Failed (R190). -/
def Die.inService (d : Die) : Nat :=
  256 - 16 * d.failed.length - (d.tiles.filter (fun t => t.2 == 3)).length -
    (d.scrub.filter (fun t => t.2.2)).length
/-- FEAT 8 (R134, R519, R521). -/
def State.feat8 (s : State) : Nat :=
  (s.dieList.length == 6).toNat * 2 ^ 48 +
    s.overDies Die.inService * 2 ^ 32 +
    (s.dieList.map (fun d => 2 ^ d)).sum * 2 ^ 24 +
    s.overDies (fun d => 16 - d.failed.length) * 2 ^ 16 + s.overDies (fun d => 63 - 4 * d.failed.length)
/-- LPDDR granules of 2 MiB on the present dies (R458). -/
def State.lpddr (s : State) : Nat := (s.dieList.map (fun d => (2 ^ 20 - d + 5) / 6)).sum
/-- Feature word n (R134). -/
def State.feat (s : State) (n : Nat) : Nat :=
  match n with
  | 0 => 0x0610 * 2 ^ 24 + 2 ^ 8 + 1
  | 1 => 0x0003FFFF3FFF1FFE
  | 8 => s.feat8
  | 9 => 4 * 2 ^ 56 + 6 * 2 ^ 48 + 256 * 2 ^ 32 + 8 * 2 ^ 24 + 4 * 2 ^ 16 + 16 * 2 ^ 8 + 0xFF
  | 10 =>
    let d := s.dieList.length
    96 * d * 2 ^ 48 + 64 * d * 2 ^ 32 + s.lpddr * 2 / 1024 * 2 ^ 16 + 64 * d
  | 11 => 8 * 2 ^ 48 + 512 * 2 ^ 32 + 256 * 2 ^ 16 + 2048
  | _ => 0

/-- feat (R134). -/
def execFeat (o : OpA) (s : State) : Result State :=
  s.produce o.d (.word (BitVec.ofNat 64 (s.feat o.b.toNat)))

/-- TIER, HOME and BARR of LOCQ (R135). -/
structure Loc where
  tier : Nat
  home : Nat
  barr : Bool
  deriving DecidableEq, Repr

/-- The die of a line of the barrier window, or 7 for a tag or beyond (R135). -/
def lineDie (line : Nat) : Nat := if line < 3072 then line / 512 else 7
/-- Device-physical memory as LOCQ reports it (R135). -/
def State.locDevice (s : State) (pa : Nat) : Loc :=
  let d := homeDie pa
  if s.present d then ⟨if pa < 2 ^ 40 then 3 else 4, d, false⟩ else ⟨6, d, false⟩
/-- Where an address lives (R135). -/
def State.locate (s : State) (core : Nat) (a : Word) : Loc :=
  let x := a.toNat
  let o := x % 2 ^ 52
  let t := s.strand core
  if x < 2 ^ 56 then
    match t.mode, t.asid with
    | false, some asid =>
      match s.look core asid x with
      | .leaf l =>
        let pa := l.pa + (x - l.va)
        if l.sec && !s.secureCore core then ⟨7, 7, false⟩
        else if l.tier ≤ 1 then
          if l.tier = 0 && s.reservedPage l.pa l.size then ⟨7, 7, false⟩ else s.locDevice pa
        else if l.tier = 2 then ⟨5, 7, false⟩
        else ⟨7, if pa / 64 < 3080 then lineDie (pa / 64) else 7, true⟩
      | _ => ⟨7, 7, false⟩
    | _, _ => if tierRange 0 x 1 || tierRange 1 x 1 then s.locDevice x else ⟨7, 7, false⟩
  else if x < 0xFF00000000000000 || 0xFF40000000000000 ≤ x then ⟨7, 7, false⟩
  else
    match x / 2 ^ 52 % 16 with
    | 0 => if o < Config.spBytes then ⟨0, dieOf core, false⟩ else ⟨7, 7, false⟩
    | 1 =>
      if o < 2 ^ 21 && (t.mode || !s.foreignQuarter core (core / 4 * 4 + o / 2 ^ 19)) then
        ⟨1, dieOf core, false⟩
      else ⟨7, 7, false⟩
    | 2 =>
      let d := o / 2 ^ 20 % 6
      if o < Config.sharedBytes && (t.mode || mfind s.banks (o / 2 ^ 20) == t.asid) then
        ⟨if s.present d then 2 else 6, d, false⟩
      else ⟨7, 7, false⟩
    | _ => if o < Config.barrierBytes then ⟨7, lineDie (o / 64), true⟩ else ⟨7, 7, false⟩

/-- The result of LOCQ (R135). -/
def State.locq (s : State) (core : Nat) (a : Word) : Word :=
  let l := s.locate core a
  BitVec.ofNat 64 (dieOf core * 2 ^ 9 + l.barr.toNat * 2 ^ 6 + l.tier * 2 ^ 3 + l.home)
/-- locq (R135): it uses the core TLB. -/
def execLocq (o : OpA) (s : State) : Result State :=
  s.src1 o.a o.ea fun a =>
    s.dest o.d (match (s.me.mode, s.me.asid) with
      | (false, some asid) =>
        match s.look s.cur asid a.toNat with
        | .leaf l =>
          if a.toNat < 2 ^ 56 then (s.cacheLeaf s.cur l).produce o.d (.word (s.locq s.cur a))
          else s.produce o.d (.word (s.locq s.cur a))
        | _ => s.produce o.d (.word (s.locq s.cur a))
      | _ => s.produce o.d (.word (s.locq s.cur a)))

/-- time (R136). -/
def execTime (o : OpA) (s : State) : Result State := s.write o.d (s.ptime s.cur)

/-- Every earlier vector command has completed and every QLD read is performed (R43, R162). -/
def Strand.vectorIdle (t : Strand) : Bool := t.vocc == 0 && t.queuesDone && !t.writesOf 1

/-- Entries of an operand queue; the weir is not counted (R113, R161). -/
def Strand.qlen (t : Strand) (q : Nat) : Nat := min 4 (mget t.vq q []).length
/-- c.VBUSY (R161). -/
def Strand.vbusy (t : Strand) : Nat :=
  t.qlen 3 * 2 ^ 28 + t.qlen 2 * 2 ^ 24 + t.qlen 1 * 2 ^ 20 + t.qlen 0 * 2 ^ 16 +
    (!(t.vocc == 0 && t.queuesDone)).toNat * 2 ^ 5 + min 16 t.vocc
/-- c.FEG (R69). -/
def Strand.feg (t : Strand) : Nat := ((List.range 32).map (fun n => (t.gst n == .full).toNat * 2 ^ n)).sum
/-- c.FEV (R69). -/
def Strand.fev (t : Strand) : Nat := ((List.range 28).map (fun n => (t.vst n == .full).toNat * 2 ^ n)).sum
/-- c.CORE (R144). -/
def coreWord (core : Nat) : Nat :=
  core * 2 ^ 16 + dieOf core * 2 ^ 6 + clusterOf core * 2 ^ 2 + core % 4
/-- c.STATUS (R120); WORLD is the world of the core's block (R548). -/
def State.statusWord (s : State) (core : Nat) : Nat :=
  let t := s.strand core
  t.ss.toNat * 2 ^ 7 + t.th.toNat * 2 ^ 6 + t.pmode.toNat * 2 ^ 3 +
    ((mget s.secmap (dieOf core) 0).getLsbD (clusterOf core)).toNat * 2 + t.mode.toNat

/-- The value of a control register (R70). -/
def State.control (s : State) (core n : Nat) : Word :=
  let t := s.strand core
  match n with
  | 0x000 => t.fflags.setWidth 64
  | 0x001 => t.frm.setWidth 64
  | 0x002 => t.srstate
  | 0x003 => t.vrb.setWidth 64
  | 0x004 => BitVec.ofNat 64 t.vbusy
  | 0x008 => BitVec.ofNat 64 t.feg
  | 0x009 => BitVec.ofNat 64 t.fev
  | 0x010 => BitVec.ofNat 64 (coreWord core)
  | 0x011 => s.ptime core
  | 0x012 => (s.die (dieOf core)).skew
  | 0x020 => BitVec.ofNat 64 (s.core core).lclk
  | 0x021 => BitVec.ofNat 64 (s.log core).occ
  | 0x030 => t.epc
  | 0x031 => t.cause
  | 0x032 => t.tval
  | 0x033 => t.tvec ++ (0 : BitVec 2)
  | 0x034 => BitVec.ofNat 64 (s.statusWord core)
  | 0x100 => (s.core core).evbase
  | 0x101 => BitVec.ofNat 64 (s.core core).evtail
  | 0x102 => BitVec.ofNat 64 (s.core core).evhead
  | _ => 0

/-- A write of a control register (R14, R40 to R42, R61, R70, R71, R120, R289, R453): fields that are RO in
the mode are left alone. -/
def State.setControl (s : State) (core n : Nat) (x : Word) : State :=
  let t := s.strand core
  let put (t : Strand) : State := s.setStrand core t
  match n with
  | 0x000 => put (t.clearFlags x)
  | 0x001 => put (t.setFrm x)
  | 0x002 => put { t with srstate := x }
  | 0x003 => put { t with vrb := x.extractLsb' 0 4 }
  | 0x020 => if t.mode then s.setTime core (x.toNat % 2 ^ 48) else s
  | 0x030 => if t.mode then put { t with epc := x } else s
  | 0x031 => if t.mode then put { t with cause := x &&& 0x0F3FFFFF } else s
  | 0x032 => if t.mode then put { t with tval := x } else s
  | 0x033 => if t.mode then put { t with tvec := x.extractLsb' 2 62 } else s
  | 0x034 =>
    if t.mode then put { t with ss := x.getLsbD 7, th := x.getLsbD 6, pmode := x.getLsbD 3 } else s
  | 0x100 => if t.mode then s.setCore core { s.core core with evbase := x } else s
  | 0x102 =>
    if t.mode then
      (s.setCore core { s.core core with evhead := x.toNat }).drainEvents (dieOf core)
        (s.core core).evwait.length
    else s
  | _ => s

/-- The mode check of a control register (R71, R125): PRIV in user mode, UNDEF for a number of the F range
that no chapter names. -/
def State.controlGate (s : State) (n : Nat) (w : Word) (k : Result State) : Result State :=
  if 0x100 ≤ n then
    if !s.me.mode then s.trap cPRIV w else if n ≤ 0x102 then k else s.trap cUNDEF w
  else k

/-- c.FFLAGS, c.FRM and c.SRSTATE wait for the vector unit (R43). -/
def waitsVector (n : Nat) : Bool := n ≤ 2

/-- cget (R70, R71, R137). -/
def execCget (o : OpA) (s : State) : Result State :=
  let n := cnum o.a o.b
  s.controlGate n ((encA 0x30 o 0x006).setWidth 64) (s.dest o.d
    (if waitsVector n && !s.me.vectorIdle then .next (s.stall (.until .vectorIdle))
    else s.write o.d (s.control s.cur n)))
/-- cset (R70, R71, R137). -/
def execCset (o : OpA) (s : State) : Result State :=
  let n := cnum o.a o.b
  s.controlGate n ((encA 0x30 o 0x007).setWidth 64) (s.src1 o.d o.ea fun x =>
    if waitsVector n && !s.me.vectorIdle then .next (s.stall (.until .vectorIdle))
    else
      let s := s.setControl s.cur n x
      s.endWith s.me)

/-- sleep (R138). -/
def execSleep (o : OpA) (s : State) : Result State :=
  s.src1 o.a o.ea fun x =>
    if s.me.wake || (x != 0 && x.ule (s.ptime s.cur)) then
      s.endWith { s.me with wake := false, deadline := none }
    else
      .next (s.setMe { s.me with
        st := .sleeping, why := .none, deadline := if x = 0 then none else some x })

/-- SLEEP_DEADLINE (R138). -/
def execSleepDeadline (core : Nat) (s : State) : Result State :=
  if Config.cores ≤ core then .fault .noSuchObject
  else
    let t := s.strand core
    match t.st, t.deadline with
    | .sleeping, some x =>
      if x.ule (s.ptime core) then .next (s.setStrand core { t with wake := true, deadline := none })
      else .next s
    | _, _ => .next s

/-- SLEEP_WAKE (R104, R121, R138). -/
def execSleepWake (core : Nat) (s : State) : Result State :=
  if Config.cores ≤ core then .fault .noSuchObject
  else
    let t := s.strand core
    if t.st = .sleeping && t.wake && !t.reached then
      .next ((s.setStrand core ({ t with wake := false, deadline := none }.finish (t.pc + 4))).singleStep core t)
    else .next s

/-- nop (R140). -/
def execNop (s : State) : Result State := s.endWith s.me
/-- trap (R141). -/
def execTrap (code : BitVec 12) (s : State) : Result State := s.trapCode cTRAP code
/-- sysc (R141). -/
def execSysc (code : BitVec 12) (s : State) : Result State := s.trapCode cSYSC code
/-- brk (R141). -/
def execBrk (code : BitVec 12) (s : State) : Result State := s.trapCode cBRK code
/-- eret (R107, R125, R142). -/
def execEret (s : State) : Result State :=
  if !s.me.mode then s.trap cPRIV 0xC0000009
  else if s.me.epc.extractLsb' 0 2 != 0 then s.trap cMISALIGN s.me.epc
  else s.endAt s.me.eret s.me.epc

/-- UNDEF_INSTRUCTION (R76, R91, R116). -/
def execUndefInstruction (tval : Word) (s : State) : Result State := s.trap cUNDEF tval
/-- INSTRUCTION_FETCH_FAULT (R92, R107, R470). -/
def execInstructionFetchFault (cause : BitVec 8) (addr : Word) (s : State) : Result State :=
  s.trap cause addr

end Sys2Proof.Machine
end

