-- ==== Sys2Proof/Machine/Vector.lean ====
section
/-! DEFINITION. The vector unit (R111, R160 to R170, R181, R183 to R187): sending a command with its checks,
starting it, the operand queues, and the reduction tile; and the vector instructions with their PQ prefix
(R75, R76). -/

namespace Sys2Proof.Machine

/-- Functions that read va. -/
def usesA (op : VOp) : Bool :=
  match op with
  | .vsplat | .viota | .vset | .vld | .vst | .vlds | .vsts | .vldx | .vstx | .qld | .vlsld | .vlsst
  | .kand | .kor | .kxor | .kandn | .knot | .kpopc | .kfirst => false
  | _ => true
/-- Functions that read vb as a vector. -/
def usesB (op : VOp) : Bool :=
  match op with
  | .vadd | .vsub | .vmul | .vmulh | .vimin | .vimax | .vand | .vor | .vxor | .vshl | .vshr | .vsar
  | .vfadd | .vfsub | .vfmul | .vfma | .vfms | .vdiv | .vmin | .vmax | .vminn | .vmaxn | .venc4 | .vdec4
  | .vperm | .vzip | .vunzip | .vslideup | .vslidedn | .vcompress | .vfcmp | .vicmp | .vldx | .vstx => true
  | _ => false
/-- Functions that take a pair (R74). -/
def usesPair (op : VOp) : Bool :=
  match op with
  | .vsplat | .vget | .vset | .vrot | .vslideup | .vslidedn | .vld | .vst | .vlds | .vsts | .vldx
  | .vstx | .qld | .vlsld | .vlsst => true
  | _ => false
/-- Stores, whose vd is the data. -/
def isDataStore (op : VOp) : Bool := isVStore op || op == .vlsst
/-- Functions whose vd names a general register (R58). -/
def writesG (op : VOp) : Bool := op == .vget || op == .kpopc || op == .kfirst
/-- Functions whose vd names a predicate (R85). -/
def writesK (op : VOp) : Bool :=
  match op with
  | .vfcmp | .vicmp | .kand | .kor | .kxor | .kandn | .knot => true
  | _ => false
/-- Serialising functions (R164). -/
def serialising (op : VOp) : Bool :=
  match op with
  | .vlds | .vsts | .vldx | .vstx | .venc4 | .vdec4 => true
  | _ => false
/-- Functions of majors 0x25 and 0x26 that mark a vector destination Pending (R64). -/
def pendsV (op : VOp) : Bool :=
  match op with
  | .vexp2 | .vlog2 | .vrcp | .vrsqrt | .vtanh | .vsigm | .vsum | .vscan | .vrmax | .vrmin | .vld
  | .vlds | .vldx | .vlsld => true
  | _ => false
/-- Members of the source group in va (R166). -/
def membersA (op : VOp) (o : OpV) : Nat :=
  match op with
  | .vcvtn => ratio (cvtTy o) o.ty
  | .venc4 => wideRegs o.ty
  | _ => 1
/-- Members of the destination group in vd; none for a function that writes no vector register. -/
def membersD (op : VOp) (o : OpV) : Nat :=
  if isDataStore op || writesG op || writesK op || op == .qld then 0
  else
    match op with
    | .vcvtw => ratio o.ty (cvtTy o)
    | .vdec4 => wideRegs o.ty
    | .vscan => scanRegs o.ty
    | _ => 1
/-- Functions that ignore ZM, or whose destination keeps nothing (R174 to R176, R181, R182). -/
def ignoresZm (op : VOp) : Bool :=
  match op with
  | .venc4 | .vdec4 | .vcompress | .vsum | .vrmax | .vrmin | .vset => true
  | _ => false
/-- vd is also a source (R165). -/
def readsD (op : VOp) (o : OpV) (p : Pre) : Bool :=
  op == .vfma || op == .vfms || op == .vset || isDataStore op ||
    (membersD op o != 0 && !ignoresZm op && !p.zm && p.k != 0)

/-- The role of a vector source. -/
inductive Role where
  | a | b | d
  deriving DecidableEq, Repr

/-- A vector source: role, first register, members and policy (R58, R65). -/
structure VArg where
  role : Role
  reg : Reg
  m : Nat
  trap : Bool
  deriving DecidableEq, Repr

/-- The vector sources in the order of their pops (R58): the data of a store first, then va, then vb. -/
def vargs (op : VOp) (o : OpV) (p : Pre) : List VArg :=
  let d : List VArg := if readsD op o p then [⟨.d, o.vd, max 1 (membersD op o), p.ta⟩] else []
  let a : List VArg := if usesA op then [⟨.a, o.va, membersA op o, p.ta⟩] else []
  let b : List VArg := if usesB op then [⟨.b, o.vb, 1, p.tb⟩] else []
  if isDataStore op then d ++ a ++ b else a ++ b ++ d

/-- A source that pops an operand queue (R58). -/
def VArg.queue (x : VArg) : Option Nat :=
  if 28 ≤ x.reg.toNat then some (x.reg.toNat - 28) else none
/-- Its physical registers (R60, R166). -/
def VArg.phys (x : VArg) (base : BitVec 4) : List Nat :=
  (List.range x.m).map (fun j => physV base (x.reg.toNat + j))
/-- The physical destination registers of a command. -/
def destV (op : VOp) (o : OpV) (base : BitVec 4) : List Nat :=
  (List.range (membersD op o)).map (fun j => physV base (o.vd.toNat + j))

/-- Pops of a queue that a list of sources makes. -/
def popsIn (q : Nat) (l : List VArg) : Nat := (l.filter (fun x => x.queue == some q)).length
/-- Pops of a queue by the commands already sent. -/
def Strand.popsDue (t : Strand) (q : Nat) : Nat :=
  (t.vcq.map (fun c => popsIn q (vargs c.op c.o c.pre))).sum

/-- The EMPTY_READ check of one vector source at send (R63, R65, R164); `before` are the sources before
it. -/
def Strand.checkArg (t : Strand) (before : List VArg) (x : VArg) : Src1 :=
  match x.queue with
  | some q =>
    match (mget t.vq q [])[t.popsDue q + popsIn q before]? with
    | none => .empty (emptyTval true x.reg.toNat)
    | some e =>
      match e.fe with
      | .full => .ok
      | .idle => .empty (emptyTval true x.reg.toNat)
      | .pending => if x.trap then .empty (emptyTval true x.reg.toNat) else .ok
  | none =>
    let bad := (List.range x.m).find? fun j =>
      match t.vst (physV t.vrb (x.reg.toNat + j)) with
      | .full => false
      | .idle => true
      | .pending => x.trap
    match bad with
    | some j => .empty (emptyTval true (x.reg.toNat + j))
    | none => .ok

/-- The checks of all vector sources, in order. -/
def Strand.checkArgs (t : Strand) (before : List VArg) : List VArg → List Src1
  | [] => []
  | x :: xs => t.checkArg before x :: t.checkArgs (before ++ [x]) xs

/-- The registers of a pair (R74). -/
def pairRegs (o : OpV) : Reg × Reg := (BitVec.ofNat 5 (2 * o.gp.toNat), BitVec.ofNat 5 (2 * o.gp.toNat + 1))

/-- Runs of bytes from an address, each within one 64-byte line; addresses wrap. -/
def linePieces : Nat → Nat → Nat → List (Nat × Nat)
  | 0, _, _ => []
  | k + 1, a, n =>
    if n = 0 then []
    else
      let m := min n (64 - a % 64)
      (a % 2 ^ 64, m) :: linePieces k (a + m) (n - m)

/-- The places of some runs of bytes, or the first that fails. -/
inductive Places where
  | ok (l : List (Nat × Nat))
  | bad (cause : Cause) (a : Word)
  | wait (a : Word)
  deriving DecidableEq, Repr

/-- Checks runs of bytes in order for a vector access (R164, R184). No run raises INTEGRITY here, which R164 names at send
and R458 and R470 do not: DESIGN CHOICE, unsafe (log 100). -/
def State.places (s : State) (core : Nat) (store : Bool) : List (Nat × Nat) → Places
  | [] => .ok []
  | (a, n) :: l =>
    let w := BitVec.ofNat 64 a
    match s.place core w n (if store then .write else .read) with
    | .bad c => .bad c w
    | .wait => .wait w
    | .at pa =>
      if isBarrier pa then .bad (if store then cBARRIER_CLOBBER else cPROTECT) w
      else
        match s.places core store l with
        | .ok ps => .ok ((pa, n) :: ps)
        | r => r

/-- The TLB fills of some runs of bytes. -/
def State.touchAll (s : State) (core : Nat) : List (Nat × Nat) → State
  | [] => s
  | (a, _) :: l => State.touchAll (s.touch core (BitVec.ofNat 64 a)) core l

/-- The first guard that some runs of bytes meet (R342). -/
def Strand.guards (t : Strand) : List (Nat × Nat) → Option (Nat × Nat × ChanSt)
  | [] => none
  | (a, n) :: l =>
    match t.guard a n with
    | some (c, st) => some (a, c, st)
    | none => t.guards l

/-- Address checks of a vector access on runs of bytes: alignment is checked before (R118, R164, R342). -/
def State.vaccess (s : State) (store : Bool) (l : List (Nat × Nat)) (k : State → List (Nat × Nat) → Result State) :
    Result State :=
  match s.places s.cur store l with
  | .bad c a => (s.touchAll s.cur l).trap c a
  | .wait a => .next ((s.touchAll s.cur l).stall (.translation a))
  | .ok ps =>
    let s := s.touchAll s.cur l
    match s.me.guards l with
    | some (a, _, .broken) => s.trap cCHANNEL_BROKEN (BitVec.ofNat 64 a)
    | some (a, c, _) => .next (s.stall (.guard c (BitVec.ofNat 64 a)))
    | none => k s ps

/-- Ends a vector instruction of some words with the strand `t`. -/
def State.endVector (s : State) (t : Strand) (len : Nat) : Result State :=
  .next (s.setMe (t.finish (t.pc + BitVec.ofNat 64 (4 * len))))

/-- The full/empty states after a send (R64): Pending for majors 0x25 and 0x26 and for a general register,
Full for any other destination. -/
def Strand.markDest (t : Strand) (op : VOp) (o : OpV) : Strand :=
  if writesG op then t.markG o.vd.toNat .pending
  else
    (destV op o t.vrb).foldl (fun t n =>
      if pendsV op then t.markV n .pending else { t with vfe := mdel t.vfe n }) t

/-- Byte width of a memory function's lanes: ty 7 moves bytes (R183). -/
def memBytesOf (o : OpV) : Nat := max 1 (tyWidth o.ty / 8)

/-- The governing predicate of a command (R165). -/
def Strand.governing (t : Strand) (base : BitVec 4) (p : Pre) : PReg := t.kval (physK base p.k.toNat)

/-- The source values of a command, the strand after its pops, and whether one of them is in error. -/
structure Taken where
  t : Strand
  vals : List (Role × List VReg)
  bad : Bool
  deriving DecidableEq, Repr

/-- Pops the head of an operand queue; its weir is free again once it holds four entries (R58, R115). -/
def Strand.pop (t : Strand) (q : Nat) : Strand :=
  let rest := (mget t.vq q []).drop 1
  { t with vq := mset t.vq q rest,
           vqweir := if rest.length ≤ 4 then t.vqweir.filter (· != q) else t.vqweir }

/-- Reads one source at the start of a command; nothing while it cannot be read (R160). -/
def Strand.take (t : Strand) (base : BitVec 4) (x : VArg) : Option (Strand × List VReg × Bool) :=
  match x.queue with
  | some q =>
    match mget t.vq q [] with
    | [] => none
    | e :: _ => if e.fe = .pending then none else some (t.pop q, [e.data], e.fe == .idle)
  | none =>
    let ps := x.phys base
    if t.pend.any (fun p => match p.dst with
        | .v ns => ns.any (fun n => ps.contains n)
        | .g _ => false) then none
    else some (t, ps.map t.vval, ps.any (fun n => t.vbad.contains n))

/-- Reads every source of a command. -/
def Strand.takeAll (t : Strand) (base : BitVec 4) : List VArg → Option Taken
  | [] => some ⟨t, [], false⟩
  | x :: xs =>
    match t.take base x with
    | none => none
    | some (t, vs, bad) =>
      match t.takeAll base xs with
      | none => none
      | some r => some ⟨r.t, (x.role, vs) :: r.vals, bad || r.bad⟩

/-- The values of a role. -/
def Taken.role (r : Taken) (x : Role) : List VReg :=
  match r.vals.find? (fun v => v.1 == x) with
  | some v => v.2
  | none => []

/-- The operands of a command that starts (R112, R165). -/
def Taken.input (r : Taken) (c : VCmd) : VIn :=
  let t := r.t
  let old := (destV c.op c.o c.base).map t.vval
  { a := r.role .a, b := (r.role .b).headD 0, d := if r.role .d = [] then old else r.role .d,
    ka := t.kval (physK c.base (c.o.va.toNat % 8)), kb := t.kval (physK c.base (c.o.vb.toNat % 8)),
    kd := t.kval (physK c.base (c.o.vd.toNat % 8)), act := t.governing c.base c.pre, zm := c.pre.zm,
    p0 := c.p0, p1 := c.p1, r := ⟨t.rmode c.pre.rm, c.pre.sat, t.srstate⟩ }

/-- Some lane is active. -/
def anyActive (op : VOp) (o : OpV) (k : PReg) : Bool :=
  op == .vdec4 || (List.range (laneCount (laneWidth op o))).any (activeLane k (laneWidth op o))

/-- The advance of c.SRSTATE (R35). -/
def Strand.srAfter (t : Strand) (op : VOp) (o : OpV) (x : VIn) : Strand :=
  if x.r.rm = 6 && rounds op o && anyActive op o x.act then t.advanceSr else t

/-- Writes vector registers that were already marked at send. -/
def Strand.putAll (t : Strand) (ns : List Nat) (xs : List VReg) : Strand :=
  (ns.zip xs).foldl (fun t p => { t.putV p.1 p.2 with vbad := t.vbad.filter (· != p.1) }) t

/-- A command that was sent later writes a physical vector register. -/
def Strand.laterWrite (t : Strand) (seq n : Nat) : Bool :=
  t.vcq.any (fun c => decide (seq < c.seq) && (destV c.op c.o c.base).contains n) ||
    t.pend.any (fun p => decide (seq < p.seq) && match p.dst with
      | .v ns => ns.contains n
      | .g _ => false)

/-- A command whose source is in error does not deliver: its destination is left Idle (R66, R185; log 14), unless a
command sent later writes it and so leaves it Full (R63). -/
def Strand.failCmd (t : Strand) (c : VCmd) : Strand :=
  if writesG c.op then t.markG c.o.vd.toNat .idle
  else (destV c.op c.o c.base).foldl (fun t n =>
    let u := if t.laterWrite c.seq n then t else t.markV n .idle
    { u with vbad := n :: u.vbad }) t

/-- The results of a computing command (R160, R171 to R182): registers and predicates at once, a general
register or a register of major 0x25 when its producer delivers. -/
def Strand.result (t : Strand) (c : VCmd) (r : VRes × Flags) : Strand :=
  let t := t.flag r.2
  match r.1 with
  | .regs xs =>
    if pendsV c.op then
      { t with pend := t.pend ++ [⟨.v (destV c.op c.o c.base), .vec xs, c.seq, [], some c.op⟩],
               vbad := t.vbad.filter (fun n => !(destV c.op c.o c.base).contains n) }
    else t.putAll (destV c.op c.o c.base) xs
  | .pred x => t.setK (physK c.base (c.o.vd.toNat % 8)) x
  | .word x => { t with pend := t.pend ++ [⟨.g c.o.vd.toNat, .word x, c.seq, [], some c.op⟩] }
  | .format => t

/-- Whether byte j of a contiguous access is active (R183). -/
def byteActive (o : OpV) (k : PReg) (j : Nat) : Bool :=
  let b := memBytesOf o
  k.getLsbD (j / b * (8 * b) / 4)

/-- The runs of a contiguous load that it has read: the state, the bytes, the keys to lift to, and the first error with
its place among the 512 bytes (R185). -/
structure Pieces where
  s : State
  bytes : List Byte
  keys : List Key
  err : Option (Cause × Nat)
  deriving DecidableEq, Repr

/-- Reads the runs of a contiguous load; a run without an active byte is not read (R165, R185). The strand's own earlier
scratchpad writes of those bytes are performed first (R163). -/
def State.readPieces (s : State) (core : Nat) (act : Nat → Bool) (off : Nat) : List (Nat × Nat) → Pieces
  | [] => ⟨s, [], [], none⟩
  | (pa, n) :: l =>
    match ((List.range n).map (off + ·)).find? act with
    | none =>
      let q := s.readPieces core act (off + n) l
      ⟨q.s, List.replicate n 0 ++ q.bytes, q.keys, q.err⟩
    | some i =>
      let r := s.readCore core pa n
      let q := r.s.readPieces core act (off + n) l
      ⟨q.s, r.bytes ++ q.bytes, r.keys ++ q.keys, (r.err.map (fun c => (c, i))).or q.err⟩

/-- The runs of a contiguous load that hold an active byte (R165). -/
def activePieces (act : Nat → Bool) (off : Nat) : List (Nat × Nat) → List (Nat × Nat)
  | [] => []
  | (pa, n) :: l =>
    let rest := activePieces act (off + n) l
    if ((List.range n).map (off + ·)).any act then (pa, n) :: rest else rest

/-- A vector register from 512 bytes: inactive ones become zero or keep the old value (R165). -/
def bytesReg (act : Nat → Bool) (zm : Bool) (old : VReg) (bs : List Byte) : VReg :=
  ofElems 8 (bs.zipIdx.map fun x =>
    if act x.2 then x.1.toNat else if zm then 0 else elem old 8 x.2)

/-- Runs of bytes with their data, as a store writes them: bytes that are not active are not selected. -/
def storePieces (act : Nat → Bool) (data : VReg) (off : Nat) : List (Nat × Nat) → List (Nat × List (Byte × Bool))
  | [] => []
  | (pa, n) :: l =>
    let bs := (List.range n).map (fun i => (BitVec.ofNat 8 (elem data 8 (off + i)), act (off + i)))
    let rest := storePieces act data (off + n) l
    if bs.any (·.2) then (pa, bs) :: rest else rest

/-- Units that a store appends to the log (R286). -/
def storeUnits (l : List (Nat × List (Byte × Bool))) : Nat :=
  (l.map (fun p => if isGlobal p.1 then partUnits (partOf p.1 p.2) else 0)).sum

/-- Selected bytes written into an entry of an operand queue (R170). -/
def patchBytes (addrs : List Nat) (pa : Nat) (bs : List (Byte × Bool)) (d : VReg) : VReg :=
  bs.zipIdx.foldl (fun d x =>
    if x.1.2 then
      match addrs.findIdx? (· == pa + x.2) with
      | some i => ofElems 8 ((List.range 512).map (fun j => if j = i then x.1.1.toNat else elem d 8 j))
      | none => d
    else d) d

/-- The places of an entry's 512 bytes. -/
def entryAddrs (l : List (Nat × Nat)) : List Nat := l.flatMap (fun p => (List.range p.2).map (fun i => p.1 + i))

/-- The bytes of an entry that selected bytes at a place are. -/
def patchMask (addrs : List Nat) (pa : Nat) (bs : List (Byte × Bool)) : BitVec 512 :=
  BitVec.ofNat 512 ((addrs.zipIdx.map (fun a =>
    if pa ≤ a.1 ∧ (bs.getD (a.1 - pa) (0, false)).2 then 2 ^ a.2 else 0)).sum)

/-- A vector store patches an entry of a QLD that comes later in program order, whether it is Pending or Full (R170). -/
def QEntry.patch (e : QEntry) (seq pa : Nat) (bs : List (Byte × Bool)) : QEntry :=
  if decide (seq < e.seq) && e.fe != .idle then
    { e with data := patchBytes (entryAddrs e.pieces) pa bs e.data,
             patched := e.patched ||| patchMask (entryAddrs e.pieces) pa bs }
  else e

/-- A vector store patches the entries of later QLDs (R170). -/
def Strand.patch (t : Strand) (seq pa : Nat) (bs : List (Byte × Bool)) : Strand :=
  { t with vq := t.vq.map fun q => (q.1, q.2.map fun e => e.patch seq pa bs) }

/-- One line of a vector store (R163, R170, R184): a global one appends its record. -/
def State.storeLine (s : State) (core seq pa : Nat) (bs : List (Byte × Bool)) : State :=
  let s := s.capture core pa bs.length
  let s := if isGlobal pa then s.append core (partUnits (partOf pa bs)) [partOf pa bs] else s
  s.setStrand core ((s.strand core).patch seq pa bs)

/-- Performs a vector store of one strand, line after line in ascending address (R163, R184, R286); the groups of its
scratchpad lines wait for their sub-banks (R266). -/
def State.storeAll (s : State) (core seq : Nat) (lines : List (Nat × List (Byte × Bool)))
    (groups : List (List (Nat × List (Byte × Bool)))) : State :=
  (groups.filter (· != [])).foldl (fun s g => s.addWrite core 1 seq g)
    (lines.foldl (fun s x => s.storeLine core seq x.1 x.2) s)

/-- Adds bytes to the lines of a store; later bytes win (R183). -/
def addPart (p : Part) (m : SMap Part) : SMap Part :=
  match mfind m p.line with
  | some q => mset m p.line ⟨p.line, q.mask ||| p.mask, mergeLine q.data p.data p.mask⟩
  | none => mset m p.line p

/-- The lines that some pieces of a store touch, in ascending address (R286). -/
def storeLines (l : List (Nat × List (Byte × Bool))) : List (Nat × List (Byte × Bool)) :=
  (l.foldl (fun m x => addPart (partOf x.1 x.2) m) ([] : SMap Part)).map (fun p => p.2.bytes)

/-- The lines of a store that lie in a scratchpad. -/
def scratchLines (l : List (Nat × List (Byte × Bool))) : List (Nat × List (Byte × Bool)) :=
  l.filter (fun x => !isGlobal x.1)

/-- Bytes of a store that a QLD before it still has to read (R170). -/
def Strand.qldBefore (t : Strand) (seq : Nat) (l : List (Nat × Nat)) : Bool :=
  t.vq.any (fun q => q.2.any (fun e => e.fe == .pending && decide (e.seq < seq) &&
    e.pieces.any (fun p => l.any (fun x => overlap x.1 x.2 p.1 p.2))))

/-- The value of a load from an address, or its error at the failing address (R185). -/
def loadSource (r : Pieces) (addr : Word) (x : VReg) : Src :=
  match r.err with
  | some (c, i) => .error c (addr + BitVec.ofNat 64 i)
  | none => .vec [x]

/-- Vector memory commands perform in command order: the writes of the earlier ones are performed (R163). -/
def State.inCommandOrder (s : State) (core : Nat) : State := s.performWrites core (fun w => w.path == 1)

/-- A VLD that starts (R163, R183, R185). -/
def State.startVld (s : State) (core : Nat) (c : VCmd) (r : Taken) : State :=
  let x := r.input c
  let act := byteActive c.o x.act
  let s := (s.inCommandOrder core).enterReads core 0 (.strand c.seq) (activePieces act 0 c.pieces)
  let q := s.readPieces core act 0 c.pieces
  let v := bytesReg act c.pre.zm (x.d.getD 0 0) q.bytes
  let src := loadSource q (c.p0 + c.p1) v
  let t := q.s.strand core
  let ds := destV c.op c.o c.base
  q.s.setStrand core { t with
    vcq := r.t.vcq.drop 1, vq := r.t.vq, vqweir := r.t.vqweir,
    pend := t.pend ++ [⟨.v ds, src, c.seq, q.keys, some c.op⟩], vbad := t.vbad.filter (fun n => !ds.contains n) }

/-- A VST that starts (R163, R184); an earlier QLD holds it, and so does a log without the units it needs (R301). -/
def State.startVst (s : State) (core : Nat) (c : VCmd) (r : Taken) : State :=
  let x := r.input c
  let pieces := storePieces (byteActive c.o x.act) ((r.role .d).headD 0) 0 c.pieces
  let l := storeLines pieces
  if (s.strand core).qldBefore c.seq (pieces.map (fun p => (p.1, p.2.length))) || !(s.log core).fits (storeUnits l) then s
  else
    let s := s.inCommandOrder core
    let t := s.strand core
    let s := s.setStrand core { t with vcq := t.vcq.drop 1, vq := r.t.vq, vqweir := r.t.vqweir }.settleWeir
    s.storeAll core c.seq l [scratchLines l]

/-- A lane-slice access that starts (R186). -/
def State.startSlice (s : State) (core : Nat) (c : VCmd) (r : Taken) : State :=
  let x := r.input c
  let o := (c.p0 + c.p1).toNat
  let act := activeLane x.act 32
  let t := { r.t with vcq := r.t.vcq.drop 1 }
  if c.op = .vlsst then
    let d := (r.role .d).headD 0
    (List.range 128).foldl (fun s i =>
      if act i then s.putLine (laneAddr core i o) (allBytes (natBytes 4 (elem d 32 i))) else s)
      (s.setStrand core t.settleWeir)
  else
    let ls := (List.range 128).map fun i => if act i then some (memNat s.mem (laneAddr core i o) 4) else none
    let ds := destV c.op c.o c.base
    s.setStrand core { t with
      pend := t.pend ++ [⟨.v ds, .vec [mergeReg 32 c.pre.zm (x.d.getD 0 0) ls], c.seq, [], some c.op⟩],
      vbad := t.vbad.filter (fun n => !ds.contains n) }

/-- A VSUM or VSCAN goes on to the reduction tile (R181). -/
def State.startReduce (s : State) (core : Nat) (c : VCmd) (r : Taken) : State :=
  let x := r.input c
  let w := tyWidth c.o.ty
  let ds := destV c.op c.o c.base
  let cmd : RedCmd := ⟨core, c.seq, c.op == .vscan, c.o.ty, x.a.getD 0 0,
    (List.range (laneCount w)).map (activeLane x.act w), c.pre.zm, x.d, ds⟩
  let t := { r.t with
    vcq := r.t.vcq.drop 1, pend := r.t.pend ++ [⟨.v ds, .reduce c.seq, c.seq, [], some c.op⟩],
    vbad := r.t.vbad.filter (fun n => !ds.contains n) }
  { s.setStrand core t with red := mset s.red (core / 4) (mget s.red (core / 4) [] ++ [cmd]) }

/-- A vector memory command waits for the ATOMs that come before it in program order (R163). -/
def Strand.awaitsAtom (t : Strand) (c : VCmd) : Bool := isVMemory c.op && t.atomDue c.seq

/-- Starts the head of the vector command queue of a core, if it can start (R160, R163, R170). -/
def State.startVector (s : State) (core : Nat) : Option State :=
  match (s.strand core).vcq with
  | [] => none
  | c :: _ =>
    match (s.strand core).takeAll c.base (vargs c.op c.o c.pre) with
    | none => none
    | some r =>
      if r.t.awaitsAtom c || r.t.lanesDue then none
      else if r.bad then
        some (s.setStrand core ({ r.t with vcq := r.t.vcq.drop 1 }.failCmd c).settleWeir)
      else
        match c.op with
        | .vld => some (s.startVld core c r)
        | .vst => some (s.startVst core c r)
        | .vlsld | .vlsst => some (s.startSlice core c r)
        | .vsum | .vscan => some (s.startReduce core c r)
        | _ =>
          let x := r.input c
          let t := ({ r.t with vcq := r.t.vcq.drop 1 }.result c (x.compute c.op c.o)).srAfter c.op c.o x
          some (s.setStrand core t.settleWeir)

/-- The vector unit holds a VST for units of the log (R301, R311). -/
def State.vstHeld (s : State) (core : Nat) : Bool :=
  match (s.strand core).vcq with
  | [] => false
  | c :: _ =>
    c.op == .vst && match (s.strand core).takeAll c.base (vargs c.op c.o c.pre) with
      | none => false
      | some r =>
        !(r.t.awaitsAtom c || r.t.lanesDue || r.bad) &&
          !(s.log core).fits (storeUnits (storeLines
            (storePieces (byteActive c.o (r.input c).act) ((r.role .d).headD 0) 0 c.pieces)))

/-- VECTOR_COMMAND_START (R160). -/
def execVectorCommandStart (core : Nat) (s : State) : Result State :=
  if Config.cores ≤ core then .fault .noSuchObject
  else .next ((s.startVector core).getD s)

/-- The pending QLD that comes first in program order: its queue and place (R169). -/
def Strand.firstQld (t : Strand) : Option (Nat × Nat) :=
  let l := t.vq.flatMap fun q =>
    (q.2.zipIdx.filter (fun e => e.1.fe == .pending)).map (fun e => (e.1.seq, q.1, e.2))
  match l with
  | [] => none
  | x :: xs =>
    let m := xs.foldl (fun m y => if y.1 < m.1 then y else m) x
    some (m.2.1, m.2.2)

/-- Replaces an entry of an operand queue. -/
def Strand.setEntry (t : Strand) (q i : Nat) (e : QEntry) : Strand :=
  { t with vq := mset t.vq q ((mget t.vq q []).set i e) }

/-- An entry with the bytes that its QLD has read; those that earlier vector stores patched stay (R170). -/
def QEntry.fill (e : QEntry) (bs : List Byte) : QEntry :=
  { e with fe := .full, data := ofElems 8 (bs.zipIdx.map fun x =>
      if e.patched.getLsbD x.2 then elem e.data 8 x.2 else x.1.toNat) }

/-- The read of the first pending QLD, which waits for earlier ATOMs (R163, R170, R185). -/
def State.readQld (s : State) (core : Nat) : State :=
  match (s.strand core).firstQld with
  | none => s
  | some (q, i) =>
    match (mget (s.strand core).vq q [])[i]? with
    | none => s
    | some e =>
      if (s.strand core).atomDue e.seq then s
      else
      let r := s.readPieces core (fun _ => true) 0 e.pieces
      let t := r.s.strand core
      match r.err with
      | some (c, j) =>
        let t := t.setEntry q i { e with fe := .idle }
        r.s.setStrand core { t with deferred := t.deferred ++ [⟨e.seq, c, e.addr + BitVec.ofNat 64 j, s.ptime core⟩] }
      | none =>
        (r.s.setStrand core (t.setEntry q i (e.fill r.bytes))).liftAll core r.keys

/-- QLD_READ (R170). -/
def execQldRead (core : Nat) (s : State) : Result State :=
  if Config.cores ≤ core then .fault .noSuchObject else .next (s.readQld core)

/-- The waiting commands of a tile that come next in turn: the first core after the one served last
(R181). -/
def nextRed (last : Nat) (l : List RedCmd) : Option RedCmd :=
  let order := (List.range 4).map (fun i => (last + 1 + i) % 4)
  order.findSome? (fun c => l.find? (fun x => x.core % 4 == c))

/-- REDUCTION_ACCEPT (R44, R181). A tile that has accepted no command yet starts with its first core: DESIGN CHOICE, unsafe
(log 89). -/
def execReductionAccept (cluster : Nat) (s : State) : Result State :=
  if 96 ≤ cluster then .fault .noSuchObject
  else
    let l := mget s.red cluster []
    match nextRed (mget s.redTurn cluster 3) l with
    | none => .next s
    | some c =>
      let r := tileResult c.scan c.ty.toNat (fun i => c.act.getD i false) c.zm c.src c.old
      let t := ((s.strand c.core).supply c.seq (.vec r.1) []).flag r.2
      .next { s.setStrand c.core t with
        red := mset s.red cluster (l.filter (fun x => !(x.core == c.core && x.seq == c.seq))),
        redTurn := mset s.redTurn cluster (c.core % 4) }

/-- The address of lane i of a strided or indexed access (R183). -/
def laneAddress (c : VCmd) (idx : VReg) (i : Nat) : Nat :=
  let w := tyWidth c.o.ty
  match c.op with
  | .vldx | .vstx =>
    (c.p0 + BitVec.ofInt 64 (sextI (elem idx w i) w * ((w / 8 : Nat) : Int))).toNat
  | _ => (c.p0 + BitVec.ofNat 64 i * c.p1).toNat

/-- The active lanes of a strided or indexed access, with their addresses. -/
def activeLanes (c : VCmd) (k : PReg) (idx : VReg) : List (Nat × Nat) :=
  let w := 8 * memBytesOf c.o
  ((List.range (laneCount w)).filter (activeLane k w)).map (fun i => (i, laneAddress c idx i))

/-- The groups of some lanes, in order (R266); the count bounds them. -/
def laneGroups : Nat → List (Nat × Nat × Nat) → List (List (Nat × Nat × Nat))
  | 0, _ => []
  | k + 1, l =>
    if l = [] then []
    else
      let r := takeGroup [] l
      r.1 :: laneGroups k r.2

/-- The bytes that some lanes of a store write: the width of a lane, and the data register. -/
def laneBytes (n : Nat) (d : VReg) (l : List (Nat × Nat × Nat)) : List (Nat × List (Byte × Bool)) :=
  l.map (fun x => (x.2.2, allBytes (natBytes n (elem d (8 * n) x.1))))

/-- A serialising memory command: its checks are precise (R164). A store is performed with them; a load then reads its
lanes, group after group (R266). -/
def State.serialMemory (s : State) (c : VCmd) (r : Taken) (len : Nat) : Result State :=
  let x := r.input c
  let n := memBytesOf c.o
  let ls := activeLanes c x.act x.b
  let s := s.inCommandOrder s.cur
  match ls.find? (fun l => l.2 % n != 0) with
  | some l => s.trap cMISALIGN (BitVec.ofNat 64 l.2)
  | none =>
    s.vaccess (isVStore c.op) (ls.map (fun l => (l.2, n))) fun s ps =>
      let lanes := (ls.zip ps).map (fun q => (q.1.1, q.1.2, q.2.1))
      if isVStore c.op then
        let d := (r.role .d).headD 0
        let lines := storeLines (laneBytes n d lanes)
        if s.me.qldBefore c.seq ps then .next (s.stall .serial)
        else if !(s.log s.cur).fits (storeUnits lines) then .next (s.stall (.log (storeUnits lines)))
        else
          let s := s.setMe { s.me with vq := r.t.vq, vqweir := r.t.vqweir }
          let s := s.storeAll s.cur c.seq lines
            ((laneGroups lanes.length lanes).map (fun g => scratchLines (storeLines (laneBytes n d g))))
          s.endVector s.me len
      else
        let q : LaneReq := ⟨n, c.pre.zm, x.d.getD 0 0, lanes, [], none⟩
        let ds := destV c.op c.o c.base
        let s := s.enterReads s.cur 0 (.strand c.seq) (lanes.map (fun x => (x.2.2, n)))
        let t := { s.me with vq := r.t.vq, vqweir := r.t.vqweir }.markDest c.op c.o
        s.endVector { t with
          pend := t.pend ++ [⟨.v ds, if lanes = [] then q.source else .lanes q, c.seq, [], some c.op⟩],
          vbad := t.vbad.filter (fun n => !ds.contains n) } len

/-- A serialising instruction: it runs once every earlier command has started and its sources can be read
(R164). -/
def State.serial (s : State) (c : VCmd) (len : Nat) : Result State :=
  if s.me.vcq != [] || s.me.lanesDue then .next (s.stall .serial)
  else
    match s.me.takeAll c.base (vargs c.op c.o c.pre) with
    | none => .next (s.stall .serial)
    | some r =>
      if r.t.awaitsAtom c then .next (s.stall .atoms)
      else if r.bad then s.endVector (r.t.failCmd c) len
      else
        match c.op with
        | .venc4 | .vdec4 =>
          let x := r.input c
          let y := x.compute c.op c.o
          match y.1 with
          | .format => s.trap cFORMAT 0
          | _ => s.endVector (((r.t.markDest c.op c.o).result c y).srAfter c.op c.o x) len
        | _ => s.serialMemory c r len

/-- The checks of VLD, VST, QLD, VLSLD and VLSST at send (R164, R169, R183, R186). -/
def State.sendChecks (s : State) (op : VOp) (o : OpV) (a : Word) (k : State → List (Nat × Nat) → Result State) :
    Result State :=
  match op with
  | .vld | .vst | .qld =>
    if a.toNat % memBytesOf o != 0 then s.trap cMISALIGN a
    else s.vaccess (op == .vst) (linePieces 9 a.toNat 512) k
  | .vlsld | .vlsst =>
    if a.toNat % 4 != 0 then s.trap cMISALIGN a
    else if 1024 ≤ a.toNat then s.trap cPROTECT a
    else k s []
  | _ => k s []

/-- A Pending destination at send (R66). -/
def Strand.destPending (t : Strand) (op : VOp) (o : OpV) : Option Why :=
  if writesG op then
    if t.gst o.vd.toNat = .pending then some (.reg false o.vd.toNat) else none
  else
    match (destV op o t.vrb).find? (fun n => t.vst n == .pending) with
    | some n => some (.reg true n)
    | none => none

/-- Sends a vector word, with its prefix, as a command (R111, R112, R160, R164); `len` is its length in
words. A QLD goes to the queue-load stage (R169). -/
def State.sendVector (s : State) (op : VOp) (o : OpV) (p : Pre) (len : Nat) : Result State :=
  let t := s.me
  let (r0, r1) := pairRegs o
  let pair := if usesPair op then [t.readG r0 false, t.readG r1 false] else []
  s.gate (t.checkArgs [] (vargs op o p) ++ pair) <|
    match t.destPending op o with
    | some w => .next (s.stall w)
    | none =>
      let p0 := t.gval r0.toNat
      let p1 := t.gval r1.toNat
      let q := o.vd.toNat - 28
      if op = .qld then
        if 4 + (t.vqweir.contains q).toNat ≤ (mget t.vq q []).length then .next (s.stall (.queueFull q))
        else
          s.sendChecks op o (p0 + p1) fun s ps =>
            let t := s.me
            s.endVector { t with
              vq := mset t.vq q (mget t.vq q [] ++ [⟨.pending, p0 + p1, t.seq, 0, ps, 0⟩]) } len
      else
        let c : VCmd := ⟨t.seq, op, o, p, t.vrb, p0, p1, []⟩
        if 16 + t.vweir.toNat ≤ t.vocc then .next (s.stall .vectorFull)
        else if serialising op then s.serial c len
        else
          s.sendChecks op o (p0 + p1) fun s ps =>
            let t := s.me.markDest op o
            s.endVector { t with vcq := t.vcq ++ [{ c with pieces := ps }] } len

/-- vadd (R171). -/
def execVadd (o : OpV) (s : State) : Result State := s.sendVector .vadd o Pre.none 1
/-- vsub (R171). -/
def execVsub (o : OpV) (s : State) : Result State := s.sendVector .vsub o Pre.none 1
/-- vmul (R171). -/
def execVmul (o : OpV) (s : State) : Result State := s.sendVector .vmul o Pre.none 1
/-- vmulh (R171). -/
def execVmulh (o : OpV) (s : State) : Result State := s.sendVector .vmulh o Pre.none 1
/-- vimin (R171). -/
def execVimin (o : OpV) (s : State) : Result State := s.sendVector .vimin o Pre.none 1
/-- vimax (R171). -/
def execVimax (o : OpV) (s : State) : Result State := s.sendVector .vimax o Pre.none 1
/-- vand (R171). -/
def execVand (o : OpV) (s : State) : Result State := s.sendVector .vand o Pre.none 1
/-- vor (R171). -/
def execVor (o : OpV) (s : State) : Result State := s.sendVector .vor o Pre.none 1
/-- vxor (R171). -/
def execVxor (o : OpV) (s : State) : Result State := s.sendVector .vxor o Pre.none 1
/-- vshl (R171). -/
def execVshl (o : OpV) (s : State) : Result State := s.sendVector .vshl o Pre.none 1
/-- vshr (R171). -/
def execVshr (o : OpV) (s : State) : Result State := s.sendVector .vshr o Pre.none 1
/-- vsar (R171). -/
def execVsar (o : OpV) (s : State) : Result State := s.sendVector .vsar o Pre.none 1
/-- vabs (R171). -/
def execVabs (o : OpV) (s : State) : Result State := s.sendVector .vabs o Pre.none 1
/-- vfadd (R172). -/
def execVfadd (o : OpV) (s : State) : Result State := s.sendVector .vfadd o Pre.none 1
/-- vfsub (R172). -/
def execVfsub (o : OpV) (s : State) : Result State := s.sendVector .vfsub o Pre.none 1
/-- vfmul (R172). -/
def execVfmul (o : OpV) (s : State) : Result State := s.sendVector .vfmul o Pre.none 1
/-- vfma (R172). -/
def execVfma (o : OpV) (s : State) : Result State := s.sendVector .vfma o Pre.none 1
/-- vfms (R172). -/
def execVfms (o : OpV) (s : State) : Result State := s.sendVector .vfms o Pre.none 1
/-- vdiv (R172). -/
def execVdiv (o : OpV) (s : State) : Result State := s.sendVector .vdiv o Pre.none 1
/-- vsqrt (R172). -/
def execVsqrt (o : OpV) (s : State) : Result State := s.sendVector .vsqrt o Pre.none 1
/-- vmin (R172). -/
def execVmin (o : OpV) (s : State) : Result State := s.sendVector .vmin o Pre.none 1
/-- vmax (R172). -/
def execVmax (o : OpV) (s : State) : Result State := s.sendVector .vmax o Pre.none 1
/-- vminn (R172). -/
def execVminn (o : OpV) (s : State) : Result State := s.sendVector .vminn o Pre.none 1
/-- vmaxn (R172). -/
def execVmaxn (o : OpV) (s : State) : Result State := s.sendVector .vmaxn o Pre.none 1
/-- vfabs (R172). -/
def execVfabs (o : OpV) (s : State) : Result State := s.sendVector .vfabs o Pre.none 1
/-- vfneg (R172). -/
def execVfneg (o : OpV) (s : State) : Result State := s.sendVector .vfneg o Pre.none 1
/-- vcvt (R173). -/
def execVcvt (o : OpV) (s : State) : Result State := s.sendVector .vcvt o Pre.none 1
/-- vcvtw (R173). -/
def execVcvtw (o : OpV) (s : State) : Result State := s.sendVector .vcvtw o Pre.none 1
/-- vcvtn (R173). -/
def execVcvtn (o : OpV) (s : State) : Result State := s.sendVector .vcvtn o Pre.none 1
/-- venc4 (R174). -/
def execVenc4 (o : OpV) (s : State) : Result State := s.sendVector .venc4 o Pre.none 1
/-- vdec4 (R174). -/
def execVdec4 (o : OpV) (s : State) : Result State := s.sendVector .vdec4 o Pre.none 1
/-- vmov (R175). -/
def execVmov (o : OpV) (s : State) : Result State := s.sendVector .vmov o Pre.none 1
/-- vsplat (R175). -/
def execVsplat (o : OpV) (s : State) : Result State := s.sendVector .vsplat o Pre.none 1
/-- viota (R175). -/
def execViota (o : OpV) (s : State) : Result State := s.sendVector .viota o Pre.none 1
/-- vget (R175). -/
def execVget (o : OpV) (s : State) : Result State := s.sendVector .vget o Pre.none 1
/-- vset (R175). -/
def execVset (o : OpV) (s : State) : Result State := s.sendVector .vset o Pre.none 1
/-- vperm (R176). -/
def execVperm (o : OpV) (s : State) : Result State := s.sendVector .vperm o Pre.none 1
/-- vzip (R176). -/
def execVzip (o : OpV) (s : State) : Result State := s.sendVector .vzip o Pre.none 1
/-- vunzip (R176). -/
def execVunzip (o : OpV) (s : State) : Result State := s.sendVector .vunzip o Pre.none 1
/-- vrot (R176). -/
def execVrot (o : OpV) (s : State) : Result State := s.sendVector .vrot o Pre.none 1
/-- vslideup (R176). -/
def execVslideup (o : OpV) (s : State) : Result State := s.sendVector .vslideup o Pre.none 1
/-- vslidedn (R176). -/
def execVslidedn (o : OpV) (s : State) : Result State := s.sendVector .vslidedn o Pre.none 1
/-- vcompress (R176). -/
def execVcompress (o : OpV) (s : State) : Result State := s.sendVector .vcompress o Pre.none 1
/-- vexpand (R176). -/
def execVexpand (o : OpV) (s : State) : Result State := s.sendVector .vexpand o Pre.none 1
/-- vrev (R176). -/
def execVrev (o : OpV) (s : State) : Result State := s.sendVector .vrev o Pre.none 1
/-- vfcmp (R177). -/
def execVfcmp (o : OpV) (s : State) : Result State := s.sendVector .vfcmp o Pre.none 1
/-- vicmp (R177). -/
def execVicmp (o : OpV) (s : State) : Result State := s.sendVector .vicmp o Pre.none 1
/-- kand (R178). -/
def execKand (o : OpV) (s : State) : Result State := s.sendVector .kand o Pre.none 1
/-- kor (R178). -/
def execKor (o : OpV) (s : State) : Result State := s.sendVector .kor o Pre.none 1
/-- kxor (R178). -/
def execKxor (o : OpV) (s : State) : Result State := s.sendVector .kxor o Pre.none 1
/-- kandn (R178). -/
def execKandn (o : OpV) (s : State) : Result State := s.sendVector .kandn o Pre.none 1
/-- knot (R178). -/
def execKnot (o : OpV) (s : State) : Result State := s.sendVector .knot o Pre.none 1
/-- kpopc (R179). -/
def execKpopc (o : OpV) (s : State) : Result State := s.sendVector .kpopc o Pre.none 1
/-- kfirst (R179). -/
def execKfirst (o : OpV) (s : State) : Result State := s.sendVector .kfirst o Pre.none 1
/-- vexp2 (R180). -/
def execVexp2 (o : OpV) (s : State) : Result State := s.sendVector .vexp2 o Pre.none 1
/-- vlog2 (R180). -/
def execVlog2 (o : OpV) (s : State) : Result State := s.sendVector .vlog2 o Pre.none 1
/-- vrcp (R180). -/
def execVrcp (o : OpV) (s : State) : Result State := s.sendVector .vrcp o Pre.none 1
/-- vrsqrt (R180). -/
def execVrsqrt (o : OpV) (s : State) : Result State := s.sendVector .vrsqrt o Pre.none 1
/-- vtanh (R180). -/
def execVtanh (o : OpV) (s : State) : Result State := s.sendVector .vtanh o Pre.none 1
/-- vsigm (R180). -/
def execVsigm (o : OpV) (s : State) : Result State := s.sendVector .vsigm o Pre.none 1
/-- vsum (R181). -/
def execVsum (o : OpV) (s : State) : Result State := s.sendVector .vsum o Pre.none 1
/-- vscan (R181). -/
def execVscan (o : OpV) (s : State) : Result State := s.sendVector .vscan o Pre.none 1
/-- vrmax (R182). -/
def execVrmax (o : OpV) (s : State) : Result State := s.sendVector .vrmax o Pre.none 1
/-- vrmin (R182). -/
def execVrmin (o : OpV) (s : State) : Result State := s.sendVector .vrmin o Pre.none 1
/-- vld (R183). -/
def execVld (o : OpV) (s : State) : Result State := s.sendVector .vld o Pre.none 1
/-- vst (R183). -/
def execVst (o : OpV) (s : State) : Result State := s.sendVector .vst o Pre.none 1
/-- vlds (R183). -/
def execVlds (o : OpV) (s : State) : Result State := s.sendVector .vlds o Pre.none 1
/-- vsts (R183). -/
def execVsts (o : OpV) (s : State) : Result State := s.sendVector .vsts o Pre.none 1
/-- vldx (R183). -/
def execVldx (o : OpV) (s : State) : Result State := s.sendVector .vldx o Pre.none 1
/-- vstx (R183). -/
def execVstx (o : OpV) (s : State) : Result State := s.sendVector .vstx o Pre.none 1
/-- qld (R169). -/
def execQld (o : OpV) (s : State) : Result State := s.sendVector .qld o Pre.none 1
/-- vlsld (R186). -/
def execVlsld (o : OpV) (s : State) : Result State := s.sendVector .vlsld o Pre.none 1
/-- vlsst (R186). -/
def execVlsst (o : OpV) (s : State) : Result State := s.sendVector .vlsst o Pre.none 1

/-- pq (R75, R76): the prefix and the word after it are one instruction. -/
def execPq (p : Pre) (second : IWord) (s : State) : Result State :=
  match vectorOf second with
  | some (op, o) => s.sendVector op o p 2
  | none => s.trap cUNDEF (second ++ encPq p)

end Sys2Proof.Machine
end

