-- ==== Sys2Proof/Machine/Order.lean ====
section
/-! DEFINITION. Release and acquire (R306 to R312), LOGQ (R311), the window part of an acquire (R486), and
the fences MFENCE and PFENCE (R324, R325). -/

namespace Sys2Proof.Machine

/-- A producer that REL waits for: a load or atomic, the record write of an FPOP, a vector memory command of R163, or
a delivery that still has keys to lift to (R307, R391). -/
def Prod.access (p : Prod) : Bool :=
  p.vec.any isVMemory || p.lift != [] || (match p.src with
    | .load _ _ _ | .atom _ | .sent _ | .fpop _ _ _ _ _ => true
    | _ => false)

/-- Every earlier load, atomic and vector memory command is delivered or performed, and so is every earlier scratchpad
write (R307). -/
def Strand.accessesDone (t : Strand) : Bool :=
  t.vectorMemoryDone && t.pend.all (fun p => !p.access) && t.coreWritesDone

/-- A producer that ACQ waits for: a global load or atomic, a vector load, or a delivery that still has keys to lift
to (R310). -/
def Prod.globalRead (p : Prod) : Bool :=
  p.vec.any isVLoad || p.lift != [] || (match p.src with
    | .load pa _ _ => isGlobal pa
    | .atom r | .sent r => isGlobal r.pa
    | _ => false)

/-- Every earlier global load and atomic, vector load and queue load has delivered (R310). -/
def Strand.loadsDone (t : Strand) : Bool :=
  t.vcq.all (fun c => !isVLoad c.op) && t.queuesDone && t.pend.all (fun p => !p.globalRead)

/-- The point of a publication, or of a later one, has reached every present die (R307). -/
def State.pointDone (s : State) (core num : Nat) : Bool :=
  (s.log core).points.any (fun p => decide (num ≤ p.num) && s.everywhere p)
/-- Every record of a log below an index is pressed (R307). -/
def Log.pressedTo (l : Log) (idx : Nat) : Bool := l.recs.all (fun r => idx ≤ r.idx)

/-- What a REL at a scope waits for after its publication (R307): its number and index are given. -/
def relCond (scope : BitVec 3) (num idx : Nat) : Cond :=
  match scope.toNat with
  | 0 | 1 => .always
  | 2 | 3 => .pointEverywhere num
  | _ => .pressedTo idx

/-- Whether that condition holds. -/
def State.relMet (s : State) (core : Nat) (scope : BitVec 3) (num idx : Nat) : Bool :=
  match scope.toNat with
  | 0 | 1 => true
  | 2 | 3 => s.pointDone core num
  | _ => (s.log core).pressedTo idx

/-- Release at a scope, then go on (R307): used by REL, HALT and the barrier arrivals. `stage` is the stage
of the instruction's wait at which it is in its release; the next stage is the wait after the publication. -/
def State.release (s : State) (scope : BitVec 3) (stage : Nat) (k : State → Result State) : Result State :=
  match s.me.wait with
  | some ⟨n, a, b, _⟩ =>
    if n = stage + 1 then
      if s.relMet s.cur scope a b then k s
      else .next (s.waitOn ⟨stage + 1, a, b, s.now⟩ (relCond scope a b))
    else k s
  | none =>
    if !s.me.accessesDone then .next (s.stall (.until .accessesDone))
    else
      let s := s.publishRel s.cur
      let l := s.log s.cur
      if s.relMet s.cur scope l.pubs l.pub then k s
      else .next (s.waitOn ⟨stage + 1, l.pubs, l.pub, s.now⟩ (relCond scope l.pubs l.pub))

/-- rel (R307). -/
def execRel (scope : BitVec 3) (s : State) : Result State :=
  s.release scope 0 fun s => s.endWith s.me

/-- A log that a strand may not name or that holds nothing (R309, R311). -/
def State.logHidden (s : State) (core log : Nat) : Bool :=
  Config.cores ≤ log || !s.present (dieOf log) || (s.secureCore log && !s.secureCore core)

/-- The logs that a source set names at a scope (R308, R309). -/
def State.namedLogs (s : State) (core : Nat) (scope : BitVec 3) (x : Word) : List Nat :=
  let all := List.range Config.cores
  let l :=
    if x.getLsbD 63 then
      match scope.toNat with
      | 0 => [core]
      | 1 => all.filter (fun c => c / 4 == core / 4)
      | 2 => all.filter (fun c => (s.strand c).group == (s.strand core).group &&
          (s.strand c).group != none && (s.strand c).here)
      | _ => all
    else
      let blk := x.toNat / 2 ^ 32 % 16
      (List.range 32).filterMap fun i => if x.getLsbD i then some (32 * blk + i) else none
  l.filter (fun c => !s.logHidden core c)

/-- Acquires logs (R310): takes each publication that has reached the strand's die, and lifts the clock. -/
def State.acquire (s : State) (core : Nat) : List Nat → State
  | [] => s
  | c :: cs =>
    let (pub, stamp) := s.pubSeen core c
    let t := (s.strand core).acquirePast pub (s.log c).past
    let s := s.setStrand core { t with acq := mset t.acq c (max pub (mget t.acq c 0)) }
    State.acquire (s.lift core stamp) core cs

/-- The home-atomics bit (R298, R310): every later load takes home states from now on. -/
def State.raiseHome (s : State) (core : Nat) (host : Bool) : State :=
  let t := s.strand core
  s.setStrand core { t with homeFloor := s.now, hostFloor := if host then s.now else t.hostFloor }

/-- The acquire of an export window (R486): the floors of its lines, and the greatest key written. -/
def State.acquireWindow (s : State) (core handle : Nat) : State :=
  match mfind s.wins handle with
  | none => s
  | some w =>
    if w.imp then s
    else
      let t := s.strand core
      let lo := w.base.toNat
      let f := w.pins.map fun p =>
        ((p.pa + (lo - p.va)) / 64, (p.pa + (min (lo + w.len) (p.va + p.size) - p.va)) / 64, s.now)
      (s.setStrand core { t with winFloors := f ++ t.winFloors }).lift core w.top

/-- A window handle of the strand's context (R483). -/
def State.ownWindow (s : State) (core handle : Nat) : Bool :=
  match mfind s.wins handle with
  | some w => some w.asid == (s.strand core).asid
  | none => false

/-- acq, with or without .h (R308 to R310). -/
def acquireInstr (o : OpE) (scope : BitVec 3) (home : Bool) (s : State) : Result State :=
  s.src2 o.h false o.a o.ea fun x w =>
    let win := w.toNat % 2 ^ 16
    if w.getLsbD 63 && !s.ownWindow s.cur win then s.trap cWINDOW (BitVec.ofNat 64 win)
    else if !s.me.loadsDone then .next (s.stall (.until .loadsDone))
    else
      let s := s.acquire s.cur (s.namedLogs s.cur scope x)
      let s := if home then s.raiseHome s.cur (4 ≤ scope.toNat) else s
      let s := if w.getLsbD 63 then s.acquireWindow s.cur win else s
      s.endWith (s.fetchFrom s.cur s.me)

/-- acq (R310). -/
def execAcq (o : OpE) (scope : BitVec 3) (s : State) : Result State := acquireInstr o scope false s
/-- acq.h (R310). -/
def execAcqH (o : OpE) (scope : BitVec 3) (s : State) : Result State := acquireInstr o scope true s

/-- An append waits for units of a log: of an ST or a serialising store, of a VST, of an engine's write, or of a packet of
the front end (R301, R311). -/
def State.appendWaits (s : State) (core : Nat) : Bool :=
  let t := s.strand core
  ((s.log core).held && !s.packets.isEmpty) || s.vstHeld core || (t.st == .stalled && (match t.why with
    | .log _ => true
    | _ => false)) || t.chan.any (fun c => c.2.runs.any (fun r => r.since.isSome))

/-- One counter of a log (R311). -/
def State.logCounter (s : State) (core log sel : Nat) : Nat :=
  let l := s.log log
  match sel with
  | 0 => l.occ + l.appended * 2 ^ 19 + (decide (Config.logPressure ≤ l.occ)).toNat * 2 ^ 38 +
      (s.appendWaits log).toNat * 2 ^ 39 +
      (l.recs.any (fun r => r.poison.isSome || r.badHeader)).toNat * 2 ^ 40
  | 1 => l.app
  | 2 => l.pub
  | 3 => l.prs
  | 4 => l.stamp.time * 2 ^ 9 + l.stamp.core
  | 5 => l.disc
  | 6 => mget (s.strand core).acq log 0
  | _ => 0

/-- logq (R311): the log as it stands at issue. -/
def execLogq (o : OpE) (s : State) : Result State :=
  s.src1 o.a o.ea fun x =>
    let n := if x.getLsbD 31 then x.toNat / 2 ^ 16 % 512 else s.cur
    let v := if x.getLsbD 31 && s.logHidden s.cur n then 0 else s.logCounter s.cur n (x.toNat % 16)
    s.produce o.h (.word (BitVec.ofNat 64 v))

/-- The SEQ of each bound channel's latest command, for the fences. -/
def Strand.chanSeqs (t : Strand) : List (Nat × Nat) := t.chan.map (fun c => (c.1, c.2.seq))

/-- A copy command among those waiting in a channel. -/
def QCmd.isCmd : QCmd → Option Cmd
  | .cmd c => some c
  | _ => none

/-- Commands of a channel that have not begun (R324). -/
def Chan.unbegun (c : Chan) : List Cmd := c.queue.filterMap QCmd.isCmd ++ c.buf
/-- Commands of a channel that are not complete. -/
def Chan.unfinished (c : Chan) : List Cmd := c.unbegun ++ c.runs.map Run.cmd

/-- The marker of a channel has reached the head (R324): every earlier command has begun, and every other
entry of the queue, all of which the stalled strand put there, has applied. -/
def Chan.markerDone (c : Chan) (limit : Nat) : Bool :=
  c.unbegun.all (fun x => limit < x.seq) && c.queue.all (fun q => q.isCmd.isSome)

/-- Every marker that an MFENCE pushed has reached its queue's head (R324). -/
def State.markersDone (s : State) (core : Nat) (mask : Word) (limits : List (Nat × Nat)) : Bool :=
  let t := s.strand core
  (List.range 4).all (fun h => !mask.getLsbD h || (match mfind t.frag h with
    | some f => f.tbl.cmdq.isEmpty
    | none => true)) &&
  limits.all (fun l => !mask.getLsbD (4 + l.1) || (match mfind t.chan l.1 with
    | some c => c.markerDone l.2
    | none => true)) &&
  (!mask.getLsbD 12 || t.vectorIdle)

/-- The snapshot that a waiting fence left (R324, R325). -/
def Strand.holdOf (t : Strand) (id : Nat) : Option Hold := t.holds.find? (fun h => h.id == id)

/-- mfence (R324). -/
def execMfence (o : OpE) (s : State) : Result State :=
  s.src1 o.h false fun mask =>
    match s.me.wait with
    | none =>
      let h : Hold := ⟨s.nextId, s.me.seq, 0, 0, s.me.chanSeqs, 0, [], []⟩
      if s.markersDone s.cur mask h.chans then s.endWith s.me
      else
        let s := { s.setMe { s.me with holds := s.me.holds ++ [h] } with nextId := s.nextId + 1 }
        .next (s.waitOn ⟨1, h.id, mask.toNat, s.now⟩ (.markers h.id))
    | some w =>
      match s.me.holdOf w.a with
      | none => s.endWith s.me
      | some h =>
        if s.markersDone s.cur mask h.chans then
          s.endWith { s.me with holds := s.me.holds.filter (fun x => x.id != h.id) }
        else .next (s.waitOn w (.markers h.id))

/-- A load, atomic, FPOP, store or vector memory command of the core path, earlier than a place in program order, that
is not performed (R314, R325, R391). -/
def Strand.coreDue (t : Strand) (seq : Nat) : Bool :=
  t.pend.any (fun p => decide (p.seq < seq) && (match p.src with
    | .load _ _ _ | .atom _ | .sent _ | .fpop _ _ _ _ _ | .lanes _ => true
    | _ => false)) ||
  t.writes.any (fun w => w.path < 2 && decide (w.tag < seq)) ||
  t.vcq.any (fun c => decide (c.seq < seq) && (isVMemory c.op || c.op == .vlsld || c.op == .vlsst)) ||
  t.vq.any (fun q => q.2.any (fun e => e.fe == .pending && decide (e.seq < seq)))

/-- A command of the copy path or of the gather path, given before a fence, that is not complete (R325). -/
def Strand.engineDue (t : Strand) (h : Hold) (gather : Bool) : Bool :=
  t.chan.any fun c => c.2.unfinished.any (fun x => decide (x.fence ≤ h.id) && ((x.kind == .gth) == gather))

/-- A window operation or ring send, before a fence, that has not been sent (R325). -/
def State.collectiveDue (s : State) (core : Nat) (h : Hold) : Bool :=
  (s.die (dieOf core)).winq.any (fun w => w.core == core && decide (w.id < h.op)) ||
  h.rings.any (fun r => match mfind s.rings r.1 with
    | some g => decide (g.own - g.blocks.length < r.2)
    | none => false)

/-- The fragment tables with a step in flight, and the steps they have ended (R325). -/
def Strand.stepsDue (t : Strand) : List (Nat × Nat) :=
  (t.frag.filter (fun f => f.2.tbl.inStep)).map (fun f => (f.1, f.2.tbl.steps))

/-- A step of a table that was in flight at a fence is so still, or a write of a step that had started is not yet
performed (R325). -/
def Strand.matrixDue (t : Strand) (h : Hold) : Bool :=
  h.steps.any (fun x => match mfind t.frag x.1 with
    | some f => f.tbl.inStep && f.tbl.steps == x.2
    | none => false) ||
  t.writes.any (fun w => 2 ≤ w.path && (decide (w.id < h.id) || h.steps.contains (w.path - 2, w.tag)))

/-- Every earlier access of every from-path of a fence is performed (R325). -/
def State.performed (s : State) (core : Nat) (h : Hold) : Bool :=
  let t := s.strand core
  !((h.src.getLsbD 0 && t.coreDue h.seq) || (h.src.getLsbD 1 && t.matrixDue h) || (h.src.getLsbD 2 && t.engineDue h false) ||
    (h.src.getLsbD 3 && t.engineDue h true) || (h.src.getLsbD 4 && s.collectiveDue core h))

/-- Work of a path that a strand handed off after some fence which still holds it (R325). -/
def State.heldBack (s : State) (core path id : Nat) : Bool :=
  (s.strand core).holds.any fun h =>
    decide (h.id < id) && h.dst.getLsbD path && !s.performed core h

/-- The rings that a strand is the member of, with the own blocks they have accepted. -/
def State.ringOwns (s : State) (core : Nat) : List (Nat × Nat) :=
  (s.rings.filter (fun r => r.2.core == core)).map (fun r => (r.1, r.2.own))

/-- pfence (R325). -/
def execPfence (o : OpE) (s : State) : Result State :=
  if o.h = 0 || o.a = 0 then s.endWith s.me
  else
    match s.me.wait with
    | some w =>
      match s.me.holdOf w.a with
      | none => s.endWith s.me
      | some h => if s.performed s.cur h then s.endWith s.me else .next (s.waitOn w (.performed h.id))
    | none =>
      let h : Hold := ⟨s.nextId, s.me.seq, o.h, o.a, [], s.nextId, s.ringOwns s.cur, s.me.stepsDue⟩
      let s := { s with nextId := s.nextId + 1 }
      let s := s.setMe { s.me with holds := s.me.holds.filter (fun x => !s.performed s.cur x) ++ [h] }
      if o.a.getLsbD 0 && !s.performed s.cur h then
        .next (s.waitOn ⟨1, h.id, 0, s.now⟩ (.performed h.id))
      else s.endWith s.me

end Sys2Proof.Machine
end

