-- ==== Sys2Proof/Machine/Barrier.lean ====
section
/-! DEFINITION. Barrier cells and route tags (R363 to R380): arrivals, generations, the pending-byte counter,
and the barrier instructions. A cell or tag is named by its line in the barrier window. -/

namespace Sys2Proof.Machine

/-- Fields of CONFIG (R366). -/
def cfgW (x : Word) : Nat := x.toNat % 8
def cfgScope (x : Word) : Nat := x.toNat / 2 ^ 3 % 8
def cfgRoot (x : Word) : Bool := x.getLsbD 6
def cfgPk (x : Word) : Nat := x.toNat / 2 ^ 7 % 4
def cfgPd (x : Word) : Nat := x.toNat / 2 ^ 9 % 8

/-- A route tag's line. -/
def isTag (line : Nat) : Bool := 3072 ≤ line
/-- A live cell or tag (R364). -/
def BCell.live (c : BCell) : Bool := c.st != .free

/-- The line of the parent that a child names (R366). -/
def parentLine (line : Nat) (cfg : Word) : Option Nat :=
  match cfgPk cfg with
  | 1 => some (512 * cfgPd cfg + line % 512)
  | 2 => some (3072 + cfgPd cfg)
  | _ => none

/-- The live children of a root or tag on some die (R366). -/
def State.children (s : State) (line : Nat) : List Nat :=
  (s.cells.filter (fun c => c.2.live && !isTag c.1 && parentLine c.1 c.2.cfg == some line)).map (·.1)

/-- The member cores of a leaf with the publications that their arrivals covered (R370). -/
def BCell.covered (c : BCell) (line : Nat) : List (Nat × Nat) :=
  if cfgRoot c.cfg then []
  else ((List.range 64).filter (fun i => c.mask.getLsbD i)).map fun i =>
    (64 * (line / 512) + i, mget c.rels (64 * (line / 512) + i) 0)

/-- Sets DONE in the arrival records of a generation (R367, R369). -/
def Strand.markDone (t : Strand) (line gen : Nat) (rels : List (Nat × Nat)) : Strand :=
  { t with arr := t.arr.map fun r =>
      if r.line = line ∧ r.gen = gen then { r with done := true, rels := rels } else r }

/-- Writes an arrival record (R369): in place of the cell's own, or of the oldest of eight. -/
def Strand.addArr (t : Strand) (r : ArrRec) : Strand :=
  let l := t.arr.filter (fun x => x.line != r.line)
  { t with arr := (if 8 ≤ l.length then l.drop 1 else l) ++ [r] }

/-- The strand of a BARR or BARW learns what became of its arrival (R375): stage 3 counted, stage 4 failed. -/
def Strand.toldArrival (t : Strand) (line stage : Nat) : Strand :=
  match t.wait with
  | some w => if w.stage = 2 ∧ w.a = line then { t with wait := some { w with stage := stage } } else t
  | none => t

/-- The strand of a group that stands or stood on a core: there, or in its save image; none once it has ended. -/
def State.strandOf (s : State) (core : Nat) (group : Option Nat) : Option Strand :=
  let t := s.strand core
  if t.here && t.group == group then some t
  else (group.bind (fun g => mfind s.images (imageKey g core))).map Image.strand
/-- Changes that strand where it is. -/
def State.changeStrand (s : State) (core : Nat) (group : Option Nat) (f : Strand → Strand) : State :=
  let t := s.strand core
  if t.here && t.group == group then s.setStrand core (f t)
  else
    match group with
    | none => s
    | some g =>
      match mfind s.images (imageKey g core) with
      | some i => { s with images := mset s.images (imageKey g core) { i with strand := f i.strand } }
      | none => s

/-- Counts an arrival at a cell that is Open (R367, R379). -/
def State.countAt (s : State) (a : Arrival) : State :=
  let c := s.cell a.line
  let rels := if a.who = 32 then c.rels else mset c.rels a.core (max a.pub (mget c.rels a.core 0))
  let s := s.setCell a.line { c with
    arr := c.arr + 1, rels := rels, st := if c.arr + 1 = c.exp then .held else c.st }
  if a.who = 0 then
    s.changeStrand a.core a.group (fun t => (t.toldArrival a.line 3).addArr ⟨a.line, c.gen, false, []⟩)
  else s

/-- The first arrival that waits at a Held cell leaves the list. -/
def takeHeld (line : Nat) : List Arrival → Option (Arrival × List Arrival)
  | [] => none
  | a :: l =>
    if a.line = line ∧ a.held then some (a, l)
    else
      match takeHeld line l with
      | some (b, r) => some (b, a :: r)
      | none => none

/-- Held arrivals count against the new generation, oldest first (R367). -/
def State.countHeld (s : State) (line : Nat) : Nat → State
  | 0 => s
  | n + 1 =>
    if (s.cell line).st = .held then s
    else
      match takeHeld line s.arrivals with
      | none => s
      | some (a, l) => ({ s with arrivals := l }.countAt a).countHeld line n

/-- MASK and NMV after a completion: a BMASK of its tick waits for the next one (R367, R380). -/
def BCell.remask (c : BCell) (now : Nat) : BCell :=
  if c.setAt = now + 1 then { c with mask := c.prev.getD c.mask, prev := none }
  else if c.nmv then { c with mask := c.next, nmv := false }
  else c

/-- Completion of one cell or tag in a tick (R367): the next generation opens, and waiting arrivals are counted. -/
def State.nextGenAt (s : State) (tick line : Nat) (rels : List (Nat × Nat)) : State :=
  let c := s.cell line
  let d : BCell := { c.remask tick with
    gen := (c.gen + 1) % 2 ^ 16, arr := 0, st := .opened, rels := [], waitParent := false }
  let s := s.setCell line { d with st := if d.exp = 0 then .held else .opened }
  let s : State := { s with cores := s.cores.map fun k =>
    (k.1, { k.2 with strand := k.2.strand.markDone line c.gen rels }) }
  let s : State := { s with images := s.images.map fun i =>
    (i.1, { i.2 with strand := i.2.strand.markDone line c.gen rels }) }
  s.countHeld line s.arrivals.length

/-- Completion of one cell or tag now. -/
def State.nextGen (s : State) (line : Nat) (rels : List (Nat × Nat)) : State := s.nextGenAt s.now line rels

/-- Whether the condition of a cell holds (R367). -/
def BCell.cond (c : BCell) : Bool := c.st == .held && c.pend == 0

/-- The publications of all children of a root or tag, as its completion gives them to every waiter
(R370). -/
def State.familyRels (s : State) (line : Nat) : List (Nat × Nat) :=
  (s.children line).flatMap (fun l => (s.cell l).covered l)

/-- What follows when a cell may have met its condition (R367, R368): a leaf or root without a parent
completes; a child sends one arrival, which a tag counts at once; a tag completes later. The count bounds the
completions of one moment; generations with EXP 0 complete one in each tick (log 54). -/
def State.settle (s : State) (line : Nat) : Nat → State
  | 0 => s
  | n + 1 =>
    let c := s.cell line
    if !c.cond || isTag line then s
    else
      match parentLine line c.cfg with
      | none =>
        let rels := if cfgRoot c.cfg then s.familyRels line else c.covered line
        let kids := s.children line
        let s := s.nextGen line rels
        let s := if cfgRoot c.cfg then { s with compl := s.compl ++ kids.map (fun k => (k, rels)) } else s
        if (s.cell line).exp = 0 then s else s.settle line n
      | some p =>
        if c.waitParent then s
        else
          let s := s.setCell line { c with waitParent := true }
          if isTag p then
            if (s.cell p).live then s.countAt ⟨p, 32, line, none, 0, 0, false⟩ else s
          else { s with arrivals := s.arrivals ++ [⟨p, 32, line, none, 0, 0, false⟩] }

/-- Settles a cell after an arrival or a completion. -/
def State.settleCell (s : State) (line : Nat) : State := s.settle line (s.arrivals.length + 2)
/-- A cell changed by an instruction or a decrement: its condition is judged once every change of the tick is made
(R371, R377). -/
def State.touchCell (s : State) (line : Nat) (c : BCell) : State :=
  { s.setCell line c with cellDue := if s.cellDue.contains line then s.cellDue else s.cellDue ++ [line] }
/-- The cells changed in this tick settle (R371). -/
def State.settleCells (s : State) : State :=
  s.cellDue.foldl (fun s l => s.settleCell l) { s with cellDue := [] }
/-- A cell without a parent whose EXP is 0 completes a generation in each of n ticks from one on while PEND is zero, and
takes a new mask at the first of these completions whose tick is past that of the BMASK (R367, R376, R380; log 54). -/
def State.spinCell (s : State) (line tick : Nat) : Nat → State
  | 0 => s
  | n + 1 =>
    let c := s.cell line
    if !c.cond || isTag line || (parentLine line c.cfg).isSome || c.exp != 0 then s
    else if c.nmv then (s.nextGenAt tick line []).spinCell line (tick + 1) n
    else s.setCell line { c with gen := (c.gen + n + 1) % 2 ^ 16 }
/-- The same for every cell. -/
def State.spinCells (s : State) (n : Nat) : State := s.cells.foldl (fun s c => s.spinCell c.1 s.now n) s

/-- A table ends on a fault of its own (R248): Faulted, with the cause and address. -/
def Tbl.fail (t : Tbl) (cause : Cause) (a : Word) : Tbl :=
  { t with st := .faulted, cause := cause, caddr := a, inStep := false, steps := t.steps + t.inStep.toNat, row := 0, pops := [], taken := [],
           stopDue := false, markStop := false, blocked := none }

/-- The table of a handle of a strand. -/
def Strand.tblOf (t : Strand) (h : Nat) : Option Tbl :=
  if h < 4 then (mfind t.frag h).map Frag.tbl else (mfind t.chan (h - 8)).map Chan.tbl
/-- Replaces it. -/
def Strand.putTbl (t : Strand) (h : Nat) (u : Tbl) : Strand :=
  if h < 4 then
    match mfind t.frag h with
    | some f => { t with frag := mset t.frag h { f with tbl := u } }
    | none => t
  else
    match mfind t.chan (h - 8) with
    | some c => { t with chan := mset t.chan (h - 8) { c with tbl := u } }
    | none => t

/-- An arrival that meets a Free cell fails (R375, R380). The table of a SIGB ends on it while it runs (R220); for a table
that is Halted, Stopped or Parked by then the failure is dropped, which R235 leaves open: DESIGN CHOICE, unsafe (log 104). -/
def State.failArrival (s : State) (a : Arrival) : State :=
  if a.who = 0 then s.changeStrand a.core a.group (fun t => t.toldArrival a.line 4)
  else if a.who = 32 then s
  else
    let h := a.who - 1
    match (s.strandOf a.core a.group).bind (fun t => t.tblOf h) with
    | some u =>
      if u.st = .running then
        (s.changeStrand a.core a.group (fun t => t.putTbl h (u.fail cFRAG_STATE 0))).faultOf a.core 2 cFRAG_STATE false 0
          (handleCode h) 0 0 0
      else s
    | none => s

/-- Every write that comes before an arrival is performed: those of the earlier steps of its table (R322, R368). -/
def State.arrivalReady (s : State) (a : Arrival) : Bool :=
  a.who == 0 || a.who == 32 ||
    (match s.strandOf a.core a.group with
      | none => true
      | some t =>
        if a.who < 5 then !t.writes.any (fun w => w.path == 1 + a.who && decide (w.tag < a.after))
        else (mfind t.chan (a.who - 9)).elim true
          (fun x => !x.unfinished.any (fun c => c.order && decide (c.seq ≤ a.after))))

/-- The n-th arrival is counted, or waits at a Held cell (R367, R368). -/
def State.arrive (s : State) (n : Nat) : State :=
  match s.arrivals[n]? with
  | none => s
  | some a =>
    let c := s.cell a.line
    if a.held || !s.arrivalReady a then s
    else if c.st = .held then
      { s with arrivals := s.arrivals.set n { a with held := true } }
    else
      let s := { s with arrivals := s.arrivals.eraseIdx n }
      if c.st = .free then s.failArrival a else (s.countAt a).settleCell a.line

/-- ARRIVAL_COUNTED (R368). -/
def execArrivalCounted (n : Nat) (s : State) : Result State := .next (s.arrive n)

/-- CHILD_ARRIVAL (R368): the arrival of a child's condition is counted at its root cell. -/
def execChildArrival (die cell : Nat) (s : State) : Result State :=
  if Config.dies ≤ die || 512 ≤ cell then .fault .noSuchObject
  else
    match s.arrivals.findIdx? (fun a => a.who == 32 && a.core == 512 * die + cell) with
    | some n => .next (s.arrive n)
    | none => .next s

/-- TAG_COMPLETE (R368): a tag whose children all hold completes them in the same tick. -/
def execTagComplete (tag : Nat) (s : State) : Result State :=
  if 8 ≤ tag then .fault .noSuchObject
  else
    let line := 3072 + tag
    if (s.cell line).cond then
      let rels := s.familyRels line
      let kids := s.children line
      let s := s.nextGen line rels
      .next (kids.foldl (fun s k => (s.nextGen k rels).settleCell k) s)
    else .next s

/-- ROOT_COMPLETION_DELIVERY (R368): a root's completion reaches a child, which completes. -/
def execRootCompletionDelivery (die cell : Nat) (s : State) : Result State :=
  if Config.dies ≤ die || 512 ≤ cell then .fault .noSuchObject
  else
    let line := 512 * die + cell
    match s.compl.find? (fun c => c.1 == line) with
    | some c =>
      let s := { s with compl := s.compl.filter (fun x => x.1 != line) }
      .next ((s.nextGen line c.2).settleCell line)
    | none => .next s

/-- The result of a change of PEND (R371): the new value, or none when it would leave the range. -/
def pendAdd (p : BitVec 48) (n : Int) : Option (BitVec 48) :=
  let v := p.toInt + n
  if v < -(2 ^ 47 : Nat) ∨ ((2 ^ 47 : Nat) : Int) ≤ v then none else some (BitVec.ofInt 48 v)

/-- A copy's decrement of a cell of its strand's die (R371): the cause when it fails. -/
def State.pendDown (s : State) (core cell n : Nat) : State × Option Cause :=
  let line := 512 * dieOf core + cell
  let c := s.cell line
  let foreign := !(s.strand core).mode && !((s.strand core).asid.elim false (fun i => s.ownsLine i line))
  if foreign then (s, some cPROTECT)
  else if !c.live then (s, some cFRAG_STATE)
  else
    match pendAdd c.pend (-(n : Int)) with
    | none => (s, some cFRAG_STATE)
    | some p => (s.touchCell line { c with pend := p }, none)

/-- The checks of a barrier instruction on the address in g_h (R373). -/
def State.barrierGate (s : State) (a : Word) (k : Nat → Result State) : Result State :=
  let o := a.toNat - 0xFF30000000000000
  if a.toNat % 64 != 0 then s.trap cMISALIGN a
  else if a.toNat < 0xFF30000000000000 || Config.barrierBytes ≤ o then s.trap cPROTECT a
  else if o < 0x30000 && !s.present (o / 2 ^ 15) then s.trap cABSENT a
  else if !s.me.mode && !(s.me.asid.elim false (fun i => s.ownsLine i (o / 64))) then s.trap cPROTECT a
  else k (o / 64)

/-- A CONFIG that breaks R366 for a line, or a root's mask that does (R374). -/
def badConfig (line : Nat) (mask cfg : Word) : Bool :=
  decide (2 ^ 12 ≤ cfg.toNat) || cfgW cfg == 0 || decide (5 < cfgW cfg) || cfgScope cfg == 0 ||
    decide (3 < cfgScope cfg) || cfgPk cfg == 3 || (cfgPk cfg == 1 && decide (5 < cfgPd cfg)) ||
    (cfgRoot cfg && (cfgW cfg != 1 || cfgPk cfg != 0 || mask.extractLsb' 6 58 != 0)) ||
    (isTag line && !cfgRoot cfg)

/-- The parent that a child's CONFIG names accepts it (R374). -/
def State.parentOk (s : State) (line : Nat) (cfg : Word) : Bool :=
  match parentLine line cfg with
  | none => true
  | some p =>
    let c := s.cell p
    c.live && cfgRoot c.cfg && c.mask.getLsbD (line / 512) &&
      (!isTag p || (s.children p).all (fun k => k == line || k / 512 != line / 512))

/-- binit (R374). -/
def execBinit (o : OpE) (s : State) : Result State :=
  s.src3 o.h false o.a o.ea o.b o.eb fun a mask cfg =>
    s.barrierGate a fun line =>
      let c := s.cell line
      let idle := c.arr == 0 && c.pend == 0
      if cfg = 0 then
        if !c.live || !idle || s.children line != [] then s.trap cFRAG_STATE 0
        else
          let s := { s with cells := mdel s.cells line }
          s.endWith s.me
      else if badConfig line mask cfg || (c.live && !idle) || !s.parentOk line cfg then s.trap cFRAG_STATE 0
      else
        let d : BCell := { c with
          st := .opened, arr := 0, mask := mask, nmv := false, cfg := cfg, rels := [], waitParent := false, setAt := 0,
          prev := none,
          gen := if c.live then c.gen else 0, pend := if c.live then c.pend else 0 }
        let s := s.touchCell line { d with st := if d.exp = 0 then .held else .opened }
        s.endWith s.me

/-- A core that may arrive at a line (R375): a live leaf that names it. -/
def State.mayArrive (s : State) (core line : Nat) : Bool :=
  let c := s.cell line
  !isTag line && c.live && !cfgRoot c.cfg && dieOf core == line / 512 && c.mask.getLsbD (core % 64)

/-- The record of a strand for a line. -/
def Strand.arrOf (t : Strand) (line : Nat) : Option ArrRec := t.arr.find? (fun r => r.line == line)

/-- Every publication that a completed generation covers has reached a core's die (R370). -/
def State.delivered (s : State) (core : Nat) (r : ArrRec) : Bool :=
  r.done && r.rels.all (fun x => decide (x.2 ≤ (s.pubSeen core x.1).1))

/-- The wait for a recorded generation and its acquire (R370, R375). -/
def State.awaitGen (s : State) (line : Nat) : Result State :=
  match s.me.arrOf line with
  | none => s.trap cFRAG_STATE 0
  | some r =>
    if s.delivered s.cur r then
      let s := s.acquire s.cur (r.rels.map (·.1))
      s.endWith { s.me with arr := s.me.arr.filter (fun x => x.line != line) }
    else .next (s.waitOn ⟨5, line, 0, s.now⟩ (.generation line))

/-- The arrival of BARR and BARW, and what follows once it is counted (R375); `waits` says that it is a BARW, whose
arrival a save leaves on its way (R379). -/
def State.barrierArrive (s : State) (o : OpE) (waits : Bool) (k : State → Nat → Result State) : Result State :=
  match s.me.wait with
  | some ⟨2, _, _, _⟩ => .next (s.stall (.until .counted))
  | some ⟨3, line, _, _⟩ => k s line
  | some ⟨4, _, _, _⟩ => s.trap cFRAG_STATE 0
  | some ⟨5, line, _, _⟩ => s.awaitGen line
  | _ =>
    s.src1 o.h false fun a =>
      s.barrierGate a fun line =>
        if !s.mayArrive s.cur line then s.trap cFRAG_STATE 0
        else
          s.release (s.cell line).scope 0 fun s =>
            let a : Arrival := ⟨line, 0, s.cur, s.me.group, (s.log s.cur).pub, 0, false⟩
            .next (({ s with arrivals := s.arrivals ++ [a] } : State).waitOn ⟨2, line, waits.toNat, s.now⟩ .counted)

/-- barr (R368, R375). -/
def execBarr (o : OpE) (s : State) : Result State := s.barrierArrive o false fun s _ => s.endWith s.me
/-- barw (R375). -/
def execBarw (o : OpE) (s : State) : Result State := s.barrierArrive o true fun s line => s.awaitGen line
/-- bwait (R375). -/
def execBwait (o : OpE) (s : State) : Result State :=
  match s.me.wait with
  | some w => s.awaitGen w.a
  | none => s.src1 o.h false fun a => s.barrierGate a fun line => s.awaitGen line

/-- bmask (R376, R380). -/
def execBmask (o : OpE) (s : State) : Result State :=
  s.src2 o.h false o.a o.ea fun a mask =>
    s.barrierGate a fun line =>
      let c := s.cell line
      if !c.live || (cfgRoot c.cfg && mask.extractLsb' 6 58 != 0) ||
          (s.children line).any (fun k => !mask.getLsbD (k / 512)) then s.trap cFRAG_STATE 0
      else
        let prev := if c.setAt = s.now + 1 then c.prev else if c.nmv then some c.next else none
        let s := s.touchCell line { c with next := mask, nmv := true, prev := prev, setAt := s.now + 1 }
        s.endWith s.me

/-- bpend (R371, R377). -/
def execBpend (o : OpE) (s : State) : Result State :=
  s.src2 o.h false o.a o.ea fun a x =>
    s.barrierGate a fun line =>
      let c := s.cell line
      if !c.live then s.trap cFRAG_STATE 0
      else
        match pendAdd c.pend (x.setWidth 48).toInt with
        | none => s.trap cFRAG_STATE 0
        | some p =>
          let s := s.touchCell line { c with pend := p }
          s.endWith s.me

/-- bq (R378): the status word is taken when the producer delivers. -/
def execBq (o : OpE) (s : State) : Result State :=
  s.src1 o.h false fun a =>
    s.barrierGate a fun line => s.produce o.b (.cell (line / 512) (line % 512))

/-- The arrival of a SIGB on a cell of the strand's die (R235, R368, R375): the cause when it fails. -/
def State.signalCell (s : State) (core handle cell : Nat) : State × Option Cause :=
  let line := 512 * dieOf core + cell
  let foreign := !(s.strand core).mode && !((s.strand core).asid.elim false (fun i => s.ownsLine i line))
  if foreign then (s, some cPROTECT)
  else if !s.mayArrive core line then (s, some cFRAG_STATE)
  else
    let t := s.strand core
    let after := if handle < 4 then (t.tblOf handle).elim 0 Tbl.steps else (mfind t.chan (handle - 8)).elim 0 Chan.seq
    ({ s with arrivals := s.arrivals ++ [⟨line, 1 + handle, core, t.group, 0, after, false⟩] }, none)

end Sys2Proof.Machine
end

