-- ==== Sys2Proof/Machine/Elements.lean ====
section
/-! DEFINITION. The element types of the array and of bank formats (R95, R272): sizes, values, the conversion
of R38, and the conversion of a copy between typed banks (R274). -/

namespace Sys2Proof.Machine

/-- Bytes of an element; FP4 block data has none of its own (R26, R95). -/
def etSize (ty : Nat) : Nat :=
  match ty with
  | 0 => 0
  | 5 | 6 => 2
  | 7 => 4
  | _ => 1

/-- The floating-point format of a type code (R95). -/
def etFmt (ty : Nat) : Fmt :=
  match ty with
  | 1 => .e4m3
  | 2 => .e5m2
  | 5 => .bf16
  | 6 => .fp16
  | 7 => .fp32
  | _ => .e2m1

/-- kc of a type code (R95). -/
def etKc (ty : Nat) : Nat :=
  match ty with
  | 0 => 64
  | 5 | 6 => 16
  | 7 => 4
  | _ => 32

/-- i8 and n8. -/
def etInt (ty : Nat) : Bool := ty == 3 || ty == 4
/-- The integer that a code of i8 or n8 stands for. -/
def etIntVal (ty code : Nat) : Int := if ty = 3 then sextI code 8 else ((code % 256 : Nat) : Int)
/-- The value of a code. -/
def etVal (ty code : Nat) : Val := if etInt ty then ofInt (etIntVal ty code) else valOf (etFmt ty) code

/-- A value on its way through a conversion, and the integer it is when it comes from an integer type. -/
structure CVal where
  v : Val
  i : Option Int
  deriving DecidableEq, Repr

/-- The conversion of R38 into any type but the FP4 block format. -/
def etConv (ty rm : Nat) (sat : Bool) (rnd : Nat) (x : CVal) : Nat × Flags :=
  if etInt ty then
    match x.i with
    | some n => if sat then clampI (ty == 3) 8 n else (wrapI n 8, 0)
    | none => toInt (ty == 3) 8 rm rnd x.v
  else roundVal (etFmt ty) rm sat rnd x.v

/-- Splits a list into runs of n; the count bounds them. -/
def runsOf {α : Type} (n : Nat) : Nat → List α → List (List α)
  | 0, _ => []
  | k + 1, l => if l = [] then [] else l.take n :: runsOf n k (l.drop n)

/-- A code of n bytes, the least significant first. -/
def codeOf : List Byte → Nat
  | [] => 0
  | b :: l => b.toNat + 256 * codeOf l

/-- The bytes of a code. -/
def codeBytes : Nat → Nat → List Byte
  | 0, _ => []
  | n + 1, x => BitVec.ofNat 8 x :: codeBytes n (x / 256)

/-- The elements that some bytes of a type hold, or none on FORMAT (R274). -/
def decodeElems (ty : Nat) (bs : List Byte) : Option (List CVal) :=
  if ty = 0 then
    let segs := runsOf 384 (bs.length / 384 + 1) bs
    if bs.length % 384 = 0 && segs.all segWf then
      some (segs.flatMap fun seg => (List.range 512).map fun j => ⟨segVal seg j, none⟩)
    else none
  else if bs.length % etSize ty = 0 then
    some ((runsOf (etSize ty) (bs.length + 1) bs).map fun b =>
      ⟨etVal ty (codeOf b), if etInt ty then some (etIntVal ty (codeOf b)) else none⟩)
  else none

/-- The random word of element i of a converting copy (R274). -/
def copyRandom (sr : Word) (seq i : Nat) : Nat :=
  (mix64 (sr + BitVec.ofNat 64 seq * 0xD1B54A32D192ED03 + BitVec.ofNat 64 (i + 1) * srGamma)).toNat % 2 ^ 32

/-- Elements as bytes of a type, or none on FORMAT (R31, R38, R274). -/
def encodeElems (ty rm : Nat) (sat : Bool) (thr : Nat) (sr : Word) (seq : Nat) (l : List CVal) :
    Option (List Byte) :=
  if ty = 0 then
    if l.length % 512 = 0 then
      (runsOf 512 (l.length / 512 + 1) l).foldr (fun ys acc =>
        match encSeg (ys.map (fun y => v32 (rne32 y.v).1)) thr, acc with
        | some r, some bs => some (r.1 ++ bs)
        | _, _ => none) (some [])
    else none
  else
    some (l.zipIdx.flatMap fun x =>
      codeBytes (etSize ty) (etConv ty rm sat (copyRandom sr seq x.2) x.1).1)

/-- A format register's fields (R272). -/
def fmtType (f : BitVec 32) : Nat := f.toNat % 16
def fmtSat (f : BitVec 32) : Bool := f.getLsbD 4
def fmtRm (f : BitVec 32) (frm : BitVec 3) : Nat := if f.toNat / 32 % 8 = 7 then frm.toNat else f.toNat / 32 % 8
def fmtThr (f : BitVec 32) : Nat := f.toNat / 256 % 256
/-- A bank of an element type (R272). -/
def fmtTyped (f : BitVec 32) : Bool := fmtType f ≤ 7

/-- A conversion to a wider float, which keeps every value (R38). -/
def widens (src dst : Nat) : Bool := !etInt src && !etInt dst && src != 0 && decide (etSize src < etSize dst)

/-- Whether a copy from a bank of one format into a bank of another converts (R274). -/
def converts (src dst : BitVec 32) : Bool := fmtTyped src && fmtTyped dst && fmtType src != fmtType dst

/-- What a converting copy writes, or none on FORMAT (R274). -/
def convertCopy (src dst : BitVec 32) (frm : BitVec 3) (sr : Word) (seq : Nat) (bs : List Byte) :
    Option (List Byte) :=
  match decodeElems (fmtType src) bs with
  | none => none
  | some l => encodeElems (fmtType dst) (fmtRm dst frm) (fmtSat dst && !widens (fmtType src) (fmtType dst)) (fmtThr dst)
      sr seq l

end Sys2Proof.Machine
end

