-- ==== Sys2Proof/Machine/Extent.lean ====
section
/-! DEFINITION. Extents and pages of engine commands (R461, R462): an extent resolved page by page into
places, the limit of 64 translation pages, and each die's pin table. -/

namespace Sys2Proof.Machine

/-- What an extent resolves to: places with their lengths and the pages counted so far, a fault with its
address, or a wait for a translation. -/
inductive Ext where
  | ok (l : List (Nat × Nat)) (pages : List PinRef)
  | bad (cause : Cause) (a : Word)
  | wait (a : Word)
  deriving DecidableEq, Repr

/-- Goes on with the pages that an extent counted. -/
def Ext.bind (e : Ext) (k : List (Nat × Nat) → List PinRef → Ext) : Ext :=
  match e with
  | .ok l p => k l p
  | .bad c a => .bad c a
  | .wait a => .wait a

/-- One run of an extent: bytes of one page, or of one piece of a scratchpad region. -/
inductive Run1 where
  | ok (pa n : Nat) (page : Option PinRef)
  | bad (cause : Cause)
  | wait
  deriving DecidableEq, Repr

/-- Bytes from an address to the end of its piece of a scratchpad region (R259 to R262). -/
def pieceLeft (x : Nat) : Nat :=
  match x / 2 ^ 52 % 16 with
  | 0 => 2 ^ 21 - x % 2 ^ 21
  | 1 => 2 ^ 19 - x % 2 ^ 19
  | 2 => 2 ^ 20 - x % 2 ^ 20
  | _ => 64 - x % 64

/-- What a place is for an engine command (R336, R461): a source may lie neither in the barrier window nor on
a barrier page, and a destination not in the barrier window. -/
def engineRun (dest : Bool) (n : Nat) (page : Option PinRef) : Place → Run1
  | .bad c => .bad c
  | .wait => .wait
  | .at pa =>
    if isBarrier pa && !dest then .bad cPROTECT
    else if isBarrier pa && !isBarrierPage pa then .bad cBARRIER_CLOBBER
    else .ok pa n page

/-- The first run of an extent of n bytes at an address, when `pages` were counted before; `none` stands for
the page that would be the 65th (R461). -/
def State.firstRun (s : State) (core : Nat) (dest : Bool) (x n : Nat) (pages : List PinRef) : Option Run1 :=
  let acc := if dest then Access.write else .read
  let t := s.strand core
  if x < 2 ^ 56 then
    match t.mode, t.asid with
    | false, some asid =>
      match s.look core asid x with
      | .leaf l =>
        let m := min n (l.va + l.size - x)
        if pages.length = 64 && !pages.any (fun p => p.va == l.va && p.size == l.size) then none
        else
          match s.leafPlace l x m acc (s.secureCore core) with
          | .at pa => some (engineRun dest m (some ⟨asid, l.va, pa - (x - l.va), l.size⟩) (.at pa))
          | r => some (engineRun dest m none r)
      | .page => if pages.length = 64 then none else some (.bad cPAGE)
      | .request =>
        if pages.length = 64 then none
        else if s.pageRefused core asid x then some (.bad cPAGE) else some .wait
    | _, _ =>
      let m := min n (2 ^ 56 - x)
      some (engineRun dest m none (s.globalPlace core x m acc))
  else
    let m := min n (pieceLeft x)
    some (engineRun dest m none (s.place core (BitVec.ofNat 64 x) m acc))

/-- Adds a page to those counted, once (R461). -/
def addPage (pages : List PinRef) : Option PinRef → List PinRef
  | none => pages
  | some p => if pages.contains p then pages else pages ++ [p]

/-- Resolves an extent in ascending address; `base` is what SPAN reports, and the count bounds the runs. -/
def State.extent (s : State) (core : Nat) (dest : Bool) (base : Word) :
    Nat → Nat → Nat → List PinRef → Ext
  | 0, _, _, _ => .bad cSPAN base
  | k + 1, a, n, pages =>
    if n = 0 then .ok [] pages
    else
      let x := a % 2 ^ 64
      match s.firstRun core dest x n pages with
      | none => .bad cSPAN base
      | some (.bad c) => .bad c (BitVec.ofNat 64 x)
      | some .wait => .wait (BitVec.ofNat 64 x)
      | some (.ok pa m page) =>
        (State.extent s core dest base k (x + m) (n - m) (addPage pages page)).bind
          fun l p => .ok ((pa, m) :: l) p

/-- Runs that an extent can have: 64 pages, 384 pieces of the shared scratchpad, and one at each end. -/
def extentRuns : Nat := 512

/-- The TLB fills of the pages that a command touched (R460). -/
def State.touchPages (s : State) (core : Nat) (pages : List PinRef) : State :=
  pages.foldl (fun s p => s.touch core (BitVec.ofNat 64 p.va)) s

/-- The in-flight count of a physical page (R462). -/
def Die.pinCount (x : Die) (pa : Nat) : Nat :=
  ((x.pins.filter (fun p => p.page.pa == pa)).map Pin.count).sum
/-- Entries of the pin table in use: physical pages with a count (R462). -/
def Die.pinned (x : Die) : List Nat := (x.pins.map (fun p => p.page.pa)).eraseDups
/-- Whether the pin table can take some pages (R462). -/
def Die.canPin (x : Die) (l : List PinRef) : Bool :=
  decide ((x.pinned ++ ((l.map PinRef.pa).eraseDups.filter (fun pa => !x.pinned.contains pa))).length ≤ 8192) &&
    l.all (fun p => decide (x.pinCount p.pa < 65535))
/-- Adds 1 to the count of a page. -/
def pinAdd (p : PinRef) : List Pin → List Pin
  | [] => [⟨p, 1⟩]
  | q :: l => if q.page = p then { q with count := q.count + 1 } :: l else q :: pinAdd p l
/-- Takes 1 from the count of a page; an entry without a count is free. -/
def pinSub (p : PinRef) : List Pin → List Pin
  | [] => []
  | q :: l =>
    if q.page = p then (if q.count ≤ 1 then l else { q with count := q.count - 1 } :: l) else q :: pinSub p l
/-- Pins the pages of a command on a die (R462). -/
def State.pin (s : State) (d : Nat) (l : List PinRef) : State :=
  s.setDie d { s.die d with pins := l.foldl (fun m p => pinAdd p m) (s.die d).pins }
/-- The pages of a command are pinned no longer (R462). -/
def State.unpin (s : State) (d : Nat) (l : List PinRef) : State :=
  s.setDie d { s.die d with pins := l.foldl (fun m p => pinSub p m) (s.die d).pins }

/-- The runs of bytes off to off + n − 1 of a resolved extent. -/
def subRuns : List (Nat × Nat) → Nat → Nat → List (Nat × Nat)
  | [], _, _ => []
  | (pa, m) :: l, off, n =>
    if n = 0 then []
    else if m ≤ off then subRuns l (off - m) n
    else if n ≤ m - off then [(pa + off, n)]
    else (pa + off, m - off) :: subRuns l 0 (n - (m - off))

/-- Takes the control core's way with an extent: a precise trap, a wait for a translation, or the next
action. -/
def State.resolved (s : State) (e : Ext) (k : State → List (Nat × Nat) → List PinRef → Result State)
    (why : Word → Why := Why.translation) : Result State :=
  match e with
  | .bad c a => (s.touch s.cur a).trap c a
  | .wait a => .next ((s.touch s.cur a).stall (why a))
  | .ok l p => k (s.touchPages s.cur p) l p

end Sys2Proof.Machine
end

