-- ==== Sys2Proof/Machine/Fragment.lean ====
section
/-! DEFINITION. Fragments (R188 to R218): tiles and deckles, each die's allocator, reshaping and its drain
rule, cascade links, and the fragment instructions. -/

namespace Sys2Proof.Machine

/-- A rectangle of tiles (R191): origin, and the logarithms of height and width. -/
structure Rect where
  row0 : Nat
  col0 : Nat
  lh : Nat
  lw : Nat
  deriving DecidableEq, Repr

/-- Its tiles, by 16 times the row plus the column (R188). -/
def Rect.tiles (q : Rect) : List Nat :=
  (List.range (2 ^ q.lh)).flatMap fun r =>
    (List.range (2 ^ q.lw)).map fun c => 16 * (q.row0 + r) + (q.col0 + c)
/-- A legal rectangle (R192). -/
def Rect.legal (q : Rect) : Bool :=
  decide (q.lh ≤ 4) && decide (q.lw ≤ 4) && q.row0 % 2 ^ q.lh == 0 && q.col0 % 2 ^ q.lw == 0 &&
    decide (q.row0 < 16) && decide (q.col0 < 16)
/-- Two rectangles that share a tile. -/
def Rect.meets (p q : Rect) : Bool :=
  overlap p.row0 (2 ^ p.lh) q.row0 (2 ^ q.lh) && overlap p.col0 (2 ^ p.lw) q.col0 (2 ^ q.lw)
/-- The service block of a tile (R188). -/
def tileBlock (t : Nat) : Nat := 4 * (t / 64) + t % 16 / 4

/-- The rectangle of a fragment. -/
def Frag.rect (f : Frag) : Rect := ⟨f.row0, f.col0, f.lh, f.lw⟩
/-- Height in tiles. -/
def Frag.h (f : Frag) : Nat := 2 ^ f.lh
/-- Width in tiles. -/
def Frag.w (f : Frag) : Nat := 2 ^ f.lw
/-- The deckle (R191). -/
def Frag.deckle (f : Frag) : Nat :=
  f.secure.toNat * 2 ^ 23 + f.die * 2 ^ 20 + f.seq * 2 ^ 16 + f.lw * 2 ^ 12 + f.lh * 2 ^ 8 +
    f.col0 * 2 ^ 4 + f.row0

/-- The WORLD of a core (R126, R548; log 13). -/
def State.worldOf (s : State) (core : Nat) : Bool :=
  (mget s.secmap (dieOf core) 0).getLsbD (clusterOf core)
/-- The world of a service block (R188). -/
def State.blockWorld (s : State) (d b : Nat) : Bool := (mget s.secmap d 0).getLsbD b
/-- The state of a tile (R189): 0 Free, 1 Leased, 2 Scrubbing, 3 Suspect, 4 Failed. -/
def State.tileState (s : State) (d t : Nat) : Nat :=
  if !s.present d || (s.die d).failed.contains (tileBlock t) then 4 else mget (s.die d).tiles t 0

/-- The strands that hold leases on a die: those on its cores, and those saved from them. -/
def State.holders (s : State) (d : Nat) : List Strand :=
  ((s.cores.filter (fun c => dieOf c.1 == d)).map (fun c => c.2.strand)) ++
    ((s.images.filter (fun i => dieOf (i.1 % 512) == d)).map (fun i => i.2.strand))

/-- Tiles of a die that a queue's strands have leased (R198). -/
def State.used (s : State) (d q : Nat) : Nat :=
  (((s.holders d).flatMap (fun t => t.frag.map (·.2))).filter (fun f => f.qid == q)).foldl
      (fun n f => n + f.h * f.w) 0 +
    ((s.die d).reqs.filter (fun r => r.qid == q && r.grant.isSome)).foldl
      (fun n r => n + 2 ^ r.lh * 2 ^ r.lw) 0

/-- PRI of a queue (R198). -/
def State.pri4 (s : State) (q : Nat) : Nat :=
  match mfind s.queues q with
  | some x => x.pri
  | none => 0
/-- WT of a queue (R198). -/
def State.weight (s : State) (q : Nat) : Nat :=
  match mfind s.queues q with
  | some x => max 1 x.wt
  | none => 1

/-- The queue from which a strand's group was launched (R196); 65,536 for a strand of no group (log 15). -/
def State.queueOf (s : State) (core : Nat) : Nat :=
  match (s.strand core).group with
  | none => 65536
  | some g => match mfind s.kernels (groupKernel g) with
    | some k => k.qid
    | none => 65536

/-- The rectangles that a request may take, in row-major order (R197). -/
def LeaseReq.rects (r : LeaseReq) : List Rect :=
  let l : List Rect := match r.fix with
    | some (a, b) => [⟨a, b, r.lh, r.lw⟩]
    | none => (List.range 256).map (fun i => ⟨i / 16, i % 16, r.lh, r.lw⟩)
  l.filter Rect.legal

/-- The shared bank with which a tile is paired (R193, R262). -/
def tileBank (d t : Nat) : Nat := 6 * (8 * (t / 32) + t % 16 / 2) + d

/-- A rectangle whose tiles all lie in blocks of a request's world, and whose banks are granted to its
context (R197, R441). A strand in F mode is free of the second check (log 7). -/
def State.inWorld (s : State) (d : Nat) (r : LeaseReq) (q : Rect) : Bool :=
  q.tiles.all fun t => s.blockWorld d (tileBlock t) == r.secure &&
    (r.asid.isNone || mfind s.banks (tileBank d t) == r.asid)

/-- A request holds a reservation (R199). -/
def Resv.holds (v : Resv) (r : LeaseReq) : Bool := v.core == r.core && v.h == r.h && v.regrant == r.regrant
/-- A die without the reservation of a request that is granted or withdrawn (R199). -/
def Die.unreserve (x : Die) (r : LeaseReq) : Die :=
  match x.resv with
  | some v => if v.holds r then { x with resv := none, arb := true } else x
  | none => x

/-- The reservation of a die keeps a rectangle from every other request (R199). -/
def State.kept (s : State) (d : Nat) (r : LeaseReq) (q : Rect) : Bool :=
  match (s.die d).resv with
  | some v => !v.holds r && q.meets ⟨v.row0, v.col0, v.lh, v.lw⟩
  | none => false

/-- The lowest free sequencer of a die. -/
def Die.freeSeq (x : Die) : Option Nat := (List.range 16).find? (fun i => !x.seqs.contains i)

/-- Where a request can be placed now (R197). -/
def State.canPlace (s : State) (d : Nat) (r : LeaseReq) : Option Rect :=
  if (s.die d).freeSeq.isNone then none
  else r.rects.find? fun q =>
    q.tiles.all (fun t => s.tileState d t == 0) && s.inWorld d r q && !s.kept d r q

/-- The order of grants (R198): the request that comes first. -/
def State.reqFirst (s : State) (d : Nat) (a b : LeaseReq) : LeaseReq :=
  let ua := s.used d a.qid * s.weight b.qid
  let ub := s.used d b.qid * s.weight a.qid
  let aFirst :=
    if s.pri4 a.qid != s.pri4 b.qid then decide (s.pri4 b.qid < s.pri4 a.qid)
    else if ua != ub then decide (ua < ub)
    else if a.tick != b.tick then decide (a.tick < b.tick)
    else decide (a.core ≤ b.core)
  if aFirst then a else b

/-- Sets the state of some tiles. -/
def Die.setTiles (x : Die) (l : List Nat) (n : Nat) : Die :=
  { x with tiles := l.foldl (fun m t => if n = 0 then mdel m t else mset m t n) x.tiles }

/-- Grants a request (R198). -/
def State.award (s : State) (d : Nat) (r : LeaseReq) (q : Rect) (seq : Nat) : State :=
  let x := ((s.die d).setTiles q.tiles 1).unreserve r
  s.setDie d { x with
    seqs := seq :: x.seqs,
    reqs := x.reqs.map (fun y => if y = r then { y with grant := some (q.row0, q.col0, seq) } else y) }

/-- One round of arbitration after the other (R198); the count bounds them. -/
def State.arbitrate (s : State) (d : Nat) : Nat → State
  | 0 => s
  | n + 1 =>
    match (s.die d).reqs.filter (fun r => r.grant.isNone && (s.canPlace d r).isSome) with
    | [] => s
    | r :: rs =>
      let r := rs.foldl (s.reqFirst d) r
      match s.canPlace d r, (s.die d).freeSeq with
      | some q, some seq => (s.award d r q seq).arbitrate d n
      | _, _ => s

/-- The allocator of a die arbitrates, if something that can change its choice happened in this tick (R198). -/
def State.arbitrated (s : State) (d : Nat) : State :=
  if (s.die d).arb then
    let s := s.arbitrate d (s.die d).reqs.length
    s.setDie d { s.die d with arb := false }
  else s

/-- ALLOCATOR_ARBITRATION (R198). A tick does not end before it has happened (R198; `State.advance`). -/
def execAllocatorArbitration (die : Nat) (s : State) : Result State :=
  if Config.dies ≤ die then .fault .noSuchObject else .next (s.arbitrated die)

/-- A newly leased fragment (R200): planes zero, bank empty, table Unloaded, Idle. -/
def newFrag (q : Rect) (seq die : Nat) (secure : Bool) (qid : Nat) : Frag :=
  { row0 := q.row0, col0 := q.col0, lh := q.lh, lw := q.lw, seq := seq, die := die, secure := secure,
    suspect := false, reshaping := false, qid := qid, tbl := Tbl.start, bank := [], plane0 := [],
    plane1 := [], active1 := false, link := none, nv := false, ovf := false, iov := false, bad := [], proof := 0 }

/-- Takes a request away: it leaves, and the allocator arbitrates (R198). -/
def State.dropReq (s : State) (d : Nat) (r : LeaseReq) : State :=
  s.setDie d { s.die d with reqs := (s.die d).reqs.erase r, arb := true }
/-- A request arrives (R196, R198). -/
def State.addReq (s : State) (d : Nat) (r : LeaseReq) : State :=
  s.setDie d { s.die d with reqs := (s.die d).reqs ++ [r], arb := true }

/-- A fragment that a restore leased again (R209): its table stays, its planes are zero. -/
def Frag.again (f : Frag) (q : Rect) (seq : Nat) : Frag :=
  { f with row0 := q.row0, col0 := q.col0, seq := seq, plane0 := [], plane1 := [], suspect := false, bad := [], proof := 0 }

/-- The FLEASE of a strand completes at its grant, or at its deadline (R212). -/
def State.endLease (s : State) (core : Nat) : State :=
  let t := s.strand core
  (s.setStrand core (t.finish (t.pc + 4))).singleStep core t

/-- A grant takes effect (R200, R209, R212). -/
def State.bindLease (s : State) (core : Nat) (r : LeaseReq) (q : Rect) (seq : Nat) : State :=
  let d := dieOf core
  let s := s.dropReq d r
  match r.regrant with
  | some g =>
    match mfind s.images (imageKey g core) with
    | none => s
    | some i =>
      match i.reclaimed.find? (fun x => x.1 == r.h) with
      | none => s
      | some x =>
        { s with images := mset s.images (imageKey g core) { i with
            strand := { i.strand with frag := mset i.strand.frag r.h (x.2.again q seq) },
            reclaimed := i.reclaimed.filter (fun y => y.1 != r.h), regranted := r.h :: i.regranted } }
  | none =>
    let t := s.strand core
    (s.setStrand core { t with frag := mset t.frag r.h (newFrag q seq d r.secure r.qid) }).endLease core

/-- LEASE_GRANT (R200). -/
def execLeaseGrant (core : Nat) (s : State) : Result State :=
  if Config.cores ≤ core then .fault .noSuchObject
  else
    match (s.die (dieOf core)).reqs.find? (fun r => r.core == core && r.grant.isSome) with
    | some r =>
      match r.grant with
      | some (a, b, seq) => .next (s.bindLease core r ⟨a, b, r.lh, r.lw⟩ seq)
      | none => .next s
    | none => .next s

/-- The rectangle that a reservation takes (R199): the fewest tiles that are not Free. -/
def State.reserveRect (s : State) (d : Nat) (r : LeaseReq) : Option Rect :=
  let cost := fun (q : Rect) => (q.tiles.filter (fun t => s.tileState d t != 0)).length
  let l := r.rects.filter fun q =>
    q.tiles.all (fun t => decide (s.tileState d t < 3)) && s.inWorld d r q
  match l with
  | [] => none
  | q :: qs => some (qs.foldl (fun best x => if cost x < cost best then x else best) q)

/-- Ticks after which a request may receive the reservation (R199). -/
def reservationTicks : Nat := 65536

/-- The eligible request with the earliest arrival receives the reservation of a die that has none (R199). Where it has no
rectangle in service left, which R199 says is never reached, no request receives one: DESIGN CHOICE, unsafe (log 101). -/
def State.reserve (s : State) (d : Nat) : State :=
  let x := s.die d
  match x.resv, x.reqs.filter (fun r => r.grant.isNone && decide (r.tick + reservationTicks ≤ s.now)) with
  | none, r :: rs =>
    let r := rs.foldl (fun a b => if b.tick < a.tick ∨ (b.tick = a.tick ∧ b.core < a.core) then b else a) r
    match s.reserveRect d r with
    | some q => s.setDie d { x with resv := some ⟨r.core, r.h, r.regrant, q.row0, q.col0, q.lh, q.lw⟩, arb := true }
    | none => s
  | _, _ => s
/-- RESERVATION (R199). A tick does not end before it has happened (`State.advance`). -/
def execReservation (die : Nat) (s : State) : Result State :=
  if Config.dies ≤ die then .fault .noSuchObject else .next (s.reserve die)

/-- Ticks of Scrubbing (R200). -/
def scrubTicks : Nat := 256

/-- Tiles enter Scrubbing, and from there Free or Suspect (R200); their sequencer is free. -/
def State.scrub (s : State) (d : Nat) (tiles : List Nat) (seq : Nat) (suspect : Bool) : State :=
  let x := (s.die d).setTiles tiles 2
  s.setDie d { x with
    seqs := x.seqs.filter (· != seq), arb := true,
    scrub := x.scrub ++ tiles.map (fun t => (t, s.now + scrubTicks, suspect)) }

/-- SCRUB_COMPLETE (R200). -/
def execScrubComplete (die : Nat) (s : State) : Result State :=
  if Config.dies ≤ die then .fault .noSuchObject
  else
    let x := s.die die
    let due := x.scrub.filter (fun t => decide (t.2.1 ≤ s.now))
    let x := due.foldl (fun x t => x.setTiles [t.1] (if t.2.2 then 3 else 0)) x
    .next (s.setDie die { x with
      scrub := x.scrub.filter (fun t => decide (s.now < t.2.1)), arb := x.arb || due != [] })

/-- Some requests leave (R198, R199): what was granted and not yet bound is released. -/
def State.leaveReqs (s : State) (d : Nat) (l : List LeaseReq) : State :=
  l.foldl (fun s r =>
    let s := s.dropReq d r
    let s := s.setDie d ((s.die d).unreserve r)
    match r.grant with
    | some (a, b, seq) => s.scrub d (Rect.tiles ⟨a, b, r.lh, r.lw⟩) seq false
    | none => s) s

/-- Withdraws the lease requests of a strand (R208, R210, R212). -/
def State.withdraw (s : State) (core : Nat) : State :=
  let d := dieOf core
  let x := s.die d
  s.leaveReqs d (x.reqs.filter (fun r => r.core == core && r.regrant.isNone))

/-- FLEASE_DEADLINE (R212): a grant that the same tick allows is made first (R218). -/
def execFleaseDeadline (core : Nat) (s : State) : Result State :=
  if Config.cores ≤ core then .fault .noSuchObject
  else
    let d := dieOf core
    match (s.die d).reqs.find? (fun r => r.core == core && r.grant.isNone && r.deadline != 0) with
    | none => .next s
    | some r =>
      if !r.deadline.ule (s.ptime core) then .next s
      else
        let s := s.arbitrated d
        if (s.die d).reqs.any (fun y => y.core == core && y.regrant.isNone && y.grant.isSome) then .next s
        else .next ((s.withdraw core).endLease core)

/-- The requests of a die whose deadlines lie before this tick are withdrawn, and their strands go on (R212): a grant could
be made up to the deadline's own tick, and for a deadline already past at issue in the tick of the request. -/
def State.expireLeases (s : State) (d : Nat) : State :=
  ((s.die d).reqs.filter (fun r => r.grant.isNone && r.deadline != 0 && r.deadline.ult (s.ptime r.core))).foldl
    (fun s r => (s.withdraw r.core).endLease r.core) s

/-- A shape that could never be granted (R212). -/
def State.neverFits (s : State) (d : Nat) (r : LeaseReq) : Bool :=
  !r.rects.any fun q => q.tiles.all (fun t => decide (s.tileState d t < 3)) && s.inWorld d r q

/-- A lease request of a strand is pending (R212). -/
def State.leasePending (s : State) (core : Nat) : Bool :=
  (s.die (dieOf core)).reqs.any (fun r => r.core == core && r.regrant.isNone)

/-- flease and flease.fix (R212): without a pending request the wait is over. -/
def flease (fix : Bool) (o : OpE) (s : State) : Result State :=
  let h := o.h.toNat
  let d := dieOf s.cur
  match s.me.wait with
  | some w => if s.leasePending s.cur then .next (s.waitOn w .lease) else s.endWith s.me
  | none =>
    s.src2 o.a o.ea o.b o.eb fun x dl =>
      let n := x.toNat
      let r : LeaseReq :=
        { core := s.cur, asid := if s.me.mode then none else s.me.asid, h := h, qid := s.queueOf s.cur, lh := n / 2 ^ 8 % 8, lw := n / 2 ^ 12 % 8,
          fix := if fix then some (n % 16, n / 2 ^ 4 % 16) else none, secure := s.worldOf s.cur,
          deadline := dl, tick := s.now, regrant := none, grant := none }
      if (mfind s.me.frag h).isSome then s.trap cFRAG_STATE 0
      else if 4 < r.lh || 4 < r.lw || s.neverFits d r then s.trap cFRAG_STATE 0
      else
        let s := s.addReq d r
        .next (s.waitOn ⟨1, 0, 0, s.now⟩ .lease)

/-- flease (R212). -/
def execFlease (o : OpE) (s : State) : Result State := flease false o s
/-- flease.fix (R212). -/
def execFleaseFix (o : OpE) (s : State) : Result State := flease true o s

/-- A table that runs, or that a queued TGO is about to start (R254), or that a rewind starts again (R245). That a queued TGO
makes its table Running for TGO, FORK, FFREE and FFUSE is not stated: DESIGN CHOICE, unsafe (log 107). -/
def Tbl.busy (t : Tbl) : Bool :=
  t.st == .running || (t.st == .halted && t.rewinding) || t.cmdq.any (fun c => match c with
    | .go _ _ _ => true
    | _ => false)

/-- A handle is unleased: no fence names a step of its table any more (R325). -/
def Strand.forget (t : Strand) (h : Nat) : Strand :=
  { t with holds := t.holds.map fun x => { x with steps := x.steps.filter (fun y => y.1 != h) } }

/-- Removes the link that some fragments of a strand have to a handle (R213), and the steps of its table that a fence
names. -/
def Strand.unlinkTo (t : Strand) (h : Nat) : Strand :=
  { t.forget h with frag := t.frag.map fun f =>
      (f.1, match f.2.link with
        | some l => if l.dst = h then { f.2 with link := none } else f.2
        | none => f.2) }

/-- Performs the window writes of a table that still wait for their sub-banks (R213, R225, R315). -/
def State.performTable (s : State) (core h : Nat) : State :=
  if (s.strand core).writesOf (2 + h) then s.performWrites core (fun w => w.path == 2 + h) else s

/-- Releases a lease (R213): its links go, the writes of its table are performed, its tiles are scrubbed, its
sequencer is free, its handle is unleased. -/
def State.freeFrag (s : State) (core h : Nat) : State :=
  let t := s.strand core
  match mfind t.frag h with
  | none => s
  | some f =>
    ((s.setStrand core { t.unlinkTo h with frag := mdel (t.unlinkTo h).frag h }).performTable core h).scrub f.die
      f.rect.tiles f.seq f.suspect

/-- Releases the leases of a strand in ascending handle order (R213). -/
def State.freeFrags (s : State) (core : Nat) : State :=
  (List.range 4).foldl (fun s h => s.freeFrag core h) s

/-- ffree (R213): the writes of the table that still wait are performed as it completes. -/
def execFfree (o : OpE) (s : State) : Result State :=
  match mfind s.me.frag o.h.toNat with
  | none => s.trap cFRAG_STATE 0
  | some f =>
    if f.tbl.busy || f.reshaping then s.trap cFRAG_STATE 0
    else
      let s := s.freeFrag s.cur o.h.toNat
      s.endWith s.me

/-- A fragment has an outgoing or incoming link (R203). -/
def Strand.linked (t : Strand) (h : Nat) : Bool :=
  t.frag.any fun f => match f.2.link with
    | some l => f.1 == h || l.dst == h
    | none => false

/-- A reshape that waits (R201): the handle, the other one, the axis, the sequencer and the destination.
It is kept in the waiting instruction: stage 1 for a split, 2 for a fuse, 3 for an unchain. -/
structure Reshape where
  h : Nat
  other : Nat
  axis : Bool
  seq : Nat
  dst : Nat
  deriving DecidableEq, Repr

/-- Packs a reshape into a waiting instruction. -/
def Reshape.pack (r : Reshape) : Nat := r.h + 4 * r.other + 16 * r.axis.toNat + 32 * r.seq + 512 * r.dst
/-- The reshape of a waiting instruction. -/
def Reshape.unpack (n : Nat) : Reshape :=
  ⟨n % 4, n / 4 % 4, n / 16 % 2 == 1, n / 32 % 16, n / 512 % 32⟩

/-- A bank that holds nothing (R201, R233). -/
def Frag.bankEmpty (f : Frag) : Bool := f.bank.isEmpty

/-- A running table that stands at a TSTART (R201). -/
def Tbl.atMarker (t : Tbl) : Bool :=
  match t.words[t.upc]? with
  | some w => !t.inStep && w.extractLsb' 26 6 == 0x08
  | none => false

/-- The drain rule on one fragment (R201). -/
def Frag.drainRule (f : Frag) : Bool := (f.tbl.st != .running || f.tbl.atMarker) && f.bankEmpty

/-- Marks a fragment as Reshaping or not (R194). -/
def Strand.markReshape (t : Strand) (h : Nat) (b : Bool) : Strand :=
  match mfind t.frag h with
  | some f => { t with frag := mset t.frag h { f with reshaping := b } }
  | none => t

/-- A sequencer is free again (R198, R214, R215). -/
def State.freeSeq (s : State) (d seq : Nat) : State :=
  s.setDie d { s.die d with seqs := (s.die d).seqs.filter (· != seq), arb := true }

/-- A table that stops at once under a discard (R201): it takes its checkpoint, and its restart label when
it has one. -/
def Tbl.discardStop (t : Tbl) : Tbl :=
  if t.st = .running then
    { t with st := .stopped, upc := if t.rv then t.restart else t.ck.upc, idx := t.ck.idx,
             lv := (List.range 4).foldl (fun m g => mset m (8 + g) (t.ck.bases.getD g 0)) t.lv,
             epi := t.ck.epi, eseq := t.ck.eseq, claims := t.ck.claims, frees := [], inStep := false,
             steps := t.steps + t.inStep.toNat, row := 0, pops := [], taken := [], stopDue := false, markStop := false, blocked := none, rewinding := false }
  else t

/-- Slots of a channel that some claims hold. -/
def claimedOf (l : List Claim) (ch : Nat) : Nat := ((l.filter (fun c => c.ch == ch)).map Claim.claimed).sum

/-- Slots that a table claimed after its checkpoint return to FILL (R244). -/
def Strand.unclaim (t : Strand) (h : Nat) (x : Tbl) : Strand :=
  { t with chan := t.chan.map fun (c : Nat × Chan) =>
      let n := claimedOf x.claims c.1 - claimedOf x.ck.claims c.1
      (c.1, { c.2 with cbuf := c.2.cbuf.map (fun b => { b with cons := b.cons.map (fun u =>
        if u.who = 1 + h then { u with fill := u.fill + n, claim := u.claim - n } else u) }) }) }

/-- A table that the drain rule stops at its marker (R201, R220). -/
def Tbl.drainStop (t : Tbl) : Tbl :=
  if t.st = .running then
    { t with st := .stopped, inStep := false, stopDue := false, markStop := false, blocked := none }
  else t

/-- The part of a plane that lies in a rectangle of cells, moved to its origin (R202). -/
def movePlane (p : SMap Cell) (r0 c0 rows cols : Nat) : SMap Cell :=
  (p.filter (fun c => decide (r0 ≤ c.1 / 256) && decide (c.1 / 256 < r0 + rows) && decide (c0 ≤ c.1 % 256) &&
    decide (c.1 % 256 < c0 + cols))).map (fun c => (c.1 - 256 * r0 - c0, c.2))

/-- A plane moved away from the origin. -/
def shiftPlane (p : SMap Cell) (r0 c0 : Nat) : SMap Cell := p.map (fun c => (c.1 + 256 * r0 + c0, c.2))

/-- The cells in error that lie in a rectangle of cells, moved to its origin. -/
def moveBad (l : List (Nat × Nat)) (r0 c0 rows cols : Nat) : List (Nat × Nat) :=
  (l.filter (fun c => decide (c.1 ≤ 2) && decide (r0 ≤ c.2 / 256) && decide (c.2 / 256 < r0 + rows) &&
    decide (c0 ≤ c.2 % 256) && decide (c.2 % 256 < c0 + cols))).map (fun c => (c.1, c.2 - 256 * r0 - c0))

/-- Cells in error moved away from the origin; `swap` exchanges the planes. -/
def shiftBad (l : List (Nat × Nat)) (r0 c0 : Nat) (swap : Bool) : List (Nat × Nat) :=
  (l.filter (fun c => decide (c.1 ≤ 2))).map (fun c => (if swap then 3 - c.1 else c.1, c.2 + 256 * r0 + c0))

/-- Puts every entry of a map into another one. -/
def mergeMap {α : Type} (a b : SMap α) : SMap α := b.foldl (fun m x => mset m x.1 x.2) a

/-- Completes a split (R214): the first half keeps handle, sequencer and table; the second takes the new
handle with an Unloaded table. DESIGN CHOICE: the rules do not say which half keeps the sticky NV, OF and IOV of the
fragment (R44); the first half does, and the second starts with none (log 82). -/
def State.split (s : State) (core : Nat) (r : Reshape) (f : Frag) (tbl : Tbl) : State :=
  let lh := if r.axis then f.lh else f.lh - 1
  let lw := if r.axis then f.lw - 1 else f.lw
  let dr := if r.axis then 0 else 2 ^ lh
  let dc := if r.axis then 2 ^ lw else 0
  let rows := 16 * 2 ^ lh
  let cols := 16 * 2 ^ lw
  let part := fun (r0 c0 : Nat) (f : Frag) => { f with
    lh := lh, lw := lw, row0 := f.row0 + r0, col0 := f.col0 + c0, bank := [],
    plane0 := movePlane f.plane0 (16 * r0) (16 * c0) rows cols,
    plane1 := movePlane f.plane1 (16 * r0) (16 * c0) rows cols, reshaping := false,
    bad := moveBad f.bad (16 * r0) (16 * c0) rows cols }
  let a := part 0 0 { f with tbl := tbl }
  let b := part dr dc { f with tbl := Tbl.start, seq := r.seq, nv := false, ovf := false, iov := false }
  let t := s.strand core
  let t := { t with frag := mset (mset t.frag r.h a) r.other b }
  s.setStrand core (t.setG r.dst (BitVec.ofNat 64 (a.deckle + b.deckle * 2 ^ 32)))

/-- The union of two equal adjacent rectangles, when it is legal (R215). -/
def Rect.union (p q : Rect) : Option Rect :=
  let u : Option Rect :=
    if p.lh ≠ q.lh ∨ p.lw ≠ q.lw then none
    else if p.col0 = q.col0 ∧ (p.row0 + 2 ^ p.lh = q.row0 ∨ q.row0 + 2 ^ p.lh = p.row0) then
      some ⟨min p.row0 q.row0, p.col0, p.lh + 1, p.lw⟩
    else if p.row0 = q.row0 ∧ (p.col0 + 2 ^ p.lw = q.col0 ∨ q.col0 + 2 ^ p.lw = p.col0) then
      some ⟨p.row0, min p.col0 q.col0, p.lh, p.lw + 1⟩
    else none
  match u with
  | some u => if u.legal then some u else none
  | none => none

/-- Completes a fuse (R215): h takes the union and keeps its table; the other handle is unleased. Cells keep
both planes; the active plane of the absorbed fragment stays active (R202). DESIGN CHOICE: the rules do not say what
becomes of the sticky NV, OF and IOV of the absorbed fragment (R44); they go with it (log 82). -/
def State.fuse (s : State) (core : Nat) (r : Reshape) (f g : Frag) (tbl : Tbl) : State :=
  match f.rect.union g.rect with
  | none => s
  | some u =>
    let (g0, g1) := if f.active1 = g.active1 then (g.plane0, g.plane1) else (g.plane1, g.plane0)
    let flaws := fun (x : Frag) => shiftBad x.bad (16 * (x.row0 - u.row0)) (16 * (x.col0 - u.col0))
    let at_ := fun (x : Frag) (p : SMap Cell) => shiftPlane p (16 * (x.row0 - u.row0)) (16 * (x.col0 - u.col0))
    let a := { f with
      row0 := u.row0, col0 := u.col0, lh := u.lh, lw := u.lw, bank := [], tbl := tbl, reshaping := false,
      bad := flaws f false ++ flaws g (f.active1 != g.active1),
      plane0 := mergeMap (at_ f f.plane0) (at_ g g0), plane1 := mergeMap (at_ f f.plane1) (at_ g g1) }
    let s := s.performTable core r.other
    let t := (s.strand core).forget r.other
    let t := { t with frag := mdel (mset t.frag r.h a) r.other }
    (s.setStrand core (t.setG r.dst (BitVec.ofNat 64 a.deckle))).freeSeq f.die g.seq

/-- Completes an unchain (R216). -/
def State.unchain (s : State) (core h : Nat) : State :=
  let t := s.strand core
  match mfind t.frag h with
  | some f => s.setStrand core { t with frag := mset t.frag h { f with link := none, reshaping := false } }
  | none => s

/-- What a reshape that waits does next. -/
inductive Progress where
  | wait
  | done
  | fail (cause : Cause) (handle : Nat) (tval : Word)
  deriving DecidableEq, Repr

/-- c.TVAL of a table's fault (R131). -/
def Tbl.tval (t : Tbl) : Word :=
  if t.cause = cPROTECT || t.cause = cMISALIGN || t.cause = cFORMAT || t.cause = cUE_DATA then t.caddr else 0

/-- The drain rule on the fragments of a split or fuse, and the ways in which it can no longer be met while it waits
(R214, R215); `old` says that the table had ended on its fault before. -/
def reshapeProgress (f : Frag) (h : Nat) (old empty rule : Bool) : Progress :=
  if f.tbl.st = .faulted && !old then .fail f.tbl.cause (handleCode h) f.tbl.tval
  else if (f.tbl.st = .halted || f.tbl.st = .stopped) && !empty then .fail cFRAG_STATE 0 0
  else if rule then .done
  else .wait

/-- A DRAIN to the cascade is in progress (R216). -/
def Tbl.cascading (t : Tbl) : Bool :=
  t.inStep && (match t.words[t.upc]? with
    | some w => w.extractLsb' 26 6 == 0x06 && w.getLsbD 23
    | none => false)

/-- What the reshape that a strand waits for does next (R214 to R216). -/
def Strand.reshapeNext (t : Strand) (w : Wait) : Progress :=
  let r := Reshape.unpack w.a
  match mfind t.frag r.h with
  | none => .fail cFRAG_STATE 0 0
  | some f =>
    if w.stage = 1 then reshapeProgress f r.h (w.b == 1) f.bankEmpty f.drainRule
    else if w.stage = 2 then
      match mfind t.frag r.other with
      | none => .fail cFRAG_STATE 0 0
      | some g =>
        reshapeProgress f r.h (w.b == 1) (f.bankEmpty && g.bankEmpty) (f.drainRule && g.drainRule)
    else
      match f.link with
      | none => .fail cFRAG_STATE 0 0
      | some l =>
        if l.entries = [] then (if f.tbl.cascading then .wait else .done)
        else
          match mfind t.frag l.dst with
          | some g => if g.tbl.busy then .wait else .fail cFRAG_STATE 0 0
          | none => .fail cFRAG_STATE 0 0

/-- Carries out a reshape whose condition holds, on the strand of a core. -/
def State.reshapeDo (s : State) (core : Nat) (w : Wait) (discard : Bool) : State :=
  let r := Reshape.unpack w.a
  let s : State := match mfind (s.strand core).frag r.h with
    | some f =>
      if discard && f.tbl.st = .running then s.setStrand core ((s.strand core).unclaim r.h f.tbl) else s
    | none => s
  let t := s.strand core
  let stop := fun (x : Tbl) => if discard then x.discardStop else x.drainStop
  match w.stage, mfind t.frag r.h, mfind t.frag r.other with
  | 1, some f, _ => s.split core r f (stop f.tbl)
  | 2, some f, some g => s.fuse core r f g (stop f.tbl)
  | _, _, _ => s.unchain core r.h

/-- One attempt of a split, fuse or unchain of the strand in focus that waits. A destination is never marked Pending
meanwhile, and one that traps after it has waited leaves its destination as it was, by R117 and not by R64 and R66: DESIGN
CHOICE, unsafe (log 96). -/
def State.reshapeStep (s : State) (w : Wait) : Result State :=
  let r := Reshape.unpack w.a
  match s.me.reshapeNext w with
  | .wait => .next (s.waitOn w .reshape)
  | .done =>
    let s := s.reshapeDo s.cur w false
    s.endWith s.me
  | .fail c h tv =>
    let s := s.setMe (s.me.markReshape r.h false)
    let s := if w.stage = 1 then s.freeSeq (dieOf s.cur) r.seq else s
    s.trapHandle c (BitVec.ofNat 4 h) tv

/-- Runs an operation with another core in focus. -/
def State.focus (s : State) (core : Nat) (k : State → Result State) : Result State :=
  match k { s with cur := core } with
  | .next t => .next { t with cur := s.cur }
  | r => r

/-- RESHAPE_COMPLETE (R201, R214 to R216). -/
def execReshapeComplete (core : Nat) (s : State) : Result State :=
  if Config.cores ≤ core then .fault .noSuchObject
  else
    match (s.strand core).why, (s.strand core).wait with
    | .until .reshape, some w =>
      match s.focus core (fun s => s.reshapeStep w) with
      | .next s' => .next (s'.singleStep core (s.strand core))
      | r => r
    | _, _ => .next s

/-- Starts a reshape: at once under discard, and otherwise with its first attempt. The fragment under h is Reshaping
while it waits (R195, R214 to R216). -/
def State.reshapeStart (s : State) (stage : Nat) (r : Reshape) (discard : Bool) : Result State :=
  let old := (mfind s.me.frag r.h).elim false (fun f => f.tbl.st == .faulted)
  let w : Wait := ⟨stage, r.pack, old.toNat, s.now⟩
  if discard then
    let s := s.reshapeDo s.cur w true
    s.endWith s.me
  else
    (s.setMe (s.me.markReshape r.h true)).reshapeStep w

/-- fsplit and fsplit.discard (R214). -/
def fsplit (discard : Bool) (o : OpE) (s : State) : Result State :=
  match s.me.wait with
  | some w => s.reshapeStep w
  | none =>
    s.src1 o.a o.ea fun x => s.dest o.b (
      let h := o.h.toNat
      let nh := x.toNat % 4
      let axis := x.getLsbD 8
      match mfind s.me.frag h with
      | none => s.trap cFRAG_STATE 0
      | some f =>
        if f.suspect || s.me.linked h || (mfind s.me.frag nh).isSome ||
            (if axis then f.lw else f.lh) == 0 then s.trap cFRAG_STATE 0
        else
          match (s.die f.die).freeSeq with
          | none => s.trap cFRAG_STATE 0
          | some seq =>
            if !discard && !f.tbl.busy && !f.bankEmpty then s.trap cFRAG_STATE 0
            else
              (s.setDie f.die { s.die f.die with seqs := seq :: (s.die f.die).seqs }).reshapeStart 1
                ⟨h, nh, axis, seq, o.b.toNat⟩ discard)

/-- fsplit (R214). -/
def execFsplit (o : OpE) (s : State) : Result State := fsplit false o s
/-- fsplit.discard (R214). -/
def execFsplitDiscard (o : OpE) (s : State) : Result State := fsplit true o s

/-- ffuse and ffuse.discard (R215). -/
def ffuse (discard : Bool) (o : OpE) (s : State) : Result State :=
  match s.me.wait with
  | some w => s.reshapeStep w
  | none =>
    s.src1 o.a o.ea fun x => s.dest o.b (
      let h := o.h.toNat
      let oh := x.toNat % 4
      match mfind s.me.frag h, mfind s.me.frag oh with
      | some f, some g =>
        if f.suspect || g.suspect || h == oh || s.me.linked h || s.me.linked oh ||
            (f.rect.union g.rect).isNone || g.tbl.busy then s.trap cFRAG_STATE 0
        else if !discard && !f.tbl.busy && !(f.bankEmpty && g.bankEmpty) then s.trap cFRAG_STATE 0
        else s.reshapeStart 2 ⟨h, oh, false, 0, o.b.toNat⟩ discard
      | _, _ => s.trap cFRAG_STATE 0)

/-- ffuse (R215). -/
def execFfuse (o : OpE) (s : State) : Result State := ffuse false o s
/-- ffuse.discard (R215). -/
def execFfuseDiscard (o : OpE) (s : State) : Result State := ffuse true o s

/-- Two rectangles of which a side of one lies along a side of the other (R203). -/
def Rect.adjacent (p q : Rect) : Bool :=
  ((p.row0 + 2 ^ p.lh == q.row0 || q.row0 + 2 ^ q.lh == p.row0) &&
    overlap p.col0 (2 ^ p.lw) q.col0 (2 ^ q.lw)) ||
  ((p.col0 + 2 ^ p.lw == q.col0 || q.col0 + 2 ^ q.lw == p.col0) &&
    overlap p.row0 (2 ^ p.lh) q.row0 (2 ^ q.lh))

/-- Whether following the outgoing links from a handle meets another one (R203). -/
def Strand.reaches (t : Strand) (goal : Nat) : Nat → Nat → Bool
  | 0, _ => false
  | n + 1, h => h == goal || (match mfind t.frag h with
    | some f => (match f.link with
      | some l => t.reaches goal n l.dst
      | none => false)
    | none => false)

/-- A new link (R204, R216): the counts of R242 start at zero on both sides. -/
def Strand.chain (t : Strand) (h dst : Nat) (f g : Frag) : Strand :=
  let f := { f with link := some ⟨dst, [], false, 0, 0, 0⟩, tbl := { f.tbl with ck := { f.tbl.ck with pushed := 0 } } }
  let g := { g with tbl := { g.tbl with ck := { g.tbl.ck with popped := 0 } } }
  { t with frag := mset (mset t.frag h f) dst g }

/-- fchain (R203, R216). -/
def execFchain (o : OpE) (s : State) : Result State :=
  s.src1 o.a o.ea fun x =>
    let h := o.h.toNat
    let sh := x.toNat % 4
    match mfind s.me.frag h, mfind s.me.frag sh with
    | some f, some g =>
      if f.suspect || g.suspect || h == sh || !f.rect.adjacent g.rect || f.link.isSome ||
          s.me.frag.any (fun y => match y.2.link with
            | some l => l.dst == sh
            | none => false) || s.me.reaches h 4 sh then s.trap cFRAG_STATE 0
      else s.endWith (s.me.chain h sh f g)
    | _, _ => s.trap cFRAG_STATE 0

/-- funchain (R216). -/
def execFunchain (o : OpE) (s : State) : Result State :=
  match s.me.wait with
  | some w => s.reshapeStep w
  | none =>
    match mfind s.me.frag o.h.toNat with
    | none => s.trap cFRAG_STATE 0
    | some f =>
      if f.link.isNone then s.trap cFRAG_STATE 0
      else s.reshapeStart 3 ⟨o.h.toNat, o.h.toNat, false, 0, 0⟩ false

/-- The value that FQUERY delivers (R217). -/
def Strand.fquery (t : Strand) (h : Nat) : Nat :=
  match mfind t.frag h with
  | none => 0
  | some f =>
    let inl := (t.frag.find? (fun g => match g.2.link with
      | some l => l.dst == h
      | none => false)).map (·.1)
    let st := if f.reshaping then 3 else if f.tbl.st = .running then 2 else 1
    f.deckle + st * 2 ^ 32 + f.suspect.toNat * 2 ^ 36 +
      (match f.link with
        | some l => 2 ^ 40 + l.dst * 2 ^ 42 + min 32 l.entries.length * 2 ^ 48
        | none => 0) +
      (match inl with
        | some g => 2 ^ 41 + g * 2 ^ 44
        | none => 0)

/-- fquery (R217): the handle as it stands at issue. -/
def execFquery (o : OpE) (s : State) : Result State :=
  s.produce o.b (.word (BitVec.ofNat 64 (s.me.fquery o.h.toNat)))

end Sys2Proof.Machine
end

