-- ==== Sys2Proof/Machine/Channel.lean ====
section
/-! DEFINITION. Copy channels as their strand meets them (R332 to R359): opening and closing, enqueuing a
command and its checks, circular buffers and their slots, multicast counters, the copy sum's registers, and
breaks. -/

namespace Sys2Proof.Machine

/-- A channel that CHOPEN opens (R333, R353). -/
def Chan.opened (base : Word) (len : Nat) (rx : Option (Nat × Nat)) : Chan :=
  { st := .open, cause := 0, caddr := 0, base := base, len := len, written := [], seq := 0, rsum := 0,
    exp := 0, chain := false, chainWrites := [], chainSlots := 0, chainRslots := [], slip := 0, queue := [],
    weir := none, buf := [], runs := [], low := 0, discarded := [], cbuf := none, rx := rx, cnt := [],
    cntWeir := [], credits := [], ring := none, tbl := Tbl.start, lastBegin := 0, blocked := none }

/-- A channel of the strand on a core. -/
def State.chan (s : State) (core ch : Nat) : Option Chan := mfind (s.strand core).chan ch
/-- Replaces a channel. -/
def State.setChan (s : State) (core ch : Nat) (x : Chan) : State :=
  s.setStrand core { s.strand core with chan := mset (s.strand core).chan ch x }

/-- A bound channel of a core where it is: on the core, or in the save image, by its key, of a strand of that core
(R346, R351). -/
def State.findChan (s : State) (core ch : Nat) : Option (Option Nat × Chan) :=
  match s.chan core ch with
  | some x => some (none, x)
  | none => s.images.findSome? fun i =>
    if i.1 % 512 = core then (mfind i.2.strand.chan ch).map (fun x => (some i.1, x)) else none
/-- Replaces a channel there. -/
def State.putChan (s : State) (core ch : Nat) (x : Chan) : Option Nat → State
  | none => s.setChan core ch x
  | some key => match mfind s.images key with
    | some i =>
      let i := { i with strand := { i.strand with chan := mset i.strand.chan ch x } }
      { s with images := mset s.images key i }
    | none => s

/-- The bytes from an address to address + n − 1 lie in one region of R259 that is not the barrier window. -/
def regionHolds (a : Word) (n : Nat) : Bool :=
  let x := a.toNat
  let o := x % 2 ^ 52
  if x < 2 ^ 56 then x + n ≤ 2 ^ 56
  else if x < 0xFF00000000000000 || 0xFF30000000000000 ≤ x then false
  else o + n ≤ (match x / 2 ^ 52 % 16 with
    | 0 => Config.spBytes
    | 1 => 2 ^ 21
    | _ => Config.sharedBytes)

/-- The channel of a core that receives from a sender's channel into a buffer (R346). -/
def State.rxOf (s : State) (sender ch core : Nat) : Option (Nat × Chan) :=
  (s.strand core).chan.find? (fun c => c.2.rx == some (sender, ch) && c.2.cbuf.isSome)

/-- The channels of a core's strand, where it is on the core, or in its save image (R346). -/
def State.chansAt (s : State) (core : Nat) : SMap Chan :=
  (s.strand core).chan ++ s.images.flatMap (fun i => if i.1 % 512 = core then i.2.strand.chan else [])

/-- The counters that a newly opened channel finds: the free slots of the receivers that already name it, a Saved one
among them, which counts from its restore on (R346; log 16). -/
def State.firstCounts (s : State) (core ch : Nat) : SMap Nat :=
  (List.range 64).filterMap fun i =>
    let x := 64 * dieOf core + i
    match (s.chansAt x).find? (fun c => c.2.rx == some (core, ch) && c.2.cbuf.isSome) with
    | some (_, c) => c.cbuf.map (fun b => (x, b.free))
    | none => none

/-- chopen and chopen.rx (R353). -/
def chopen (rx : Bool) (o : OpE) (s : State) : Result State :=
  s.src2 o.a o.ea o.b o.eb fun a b =>
    let ch := o.h.toNat
    let len := b.toNat % 2 ^ 48
    let sender := a.toNat % 512
    if (s.chan s.cur ch).isSome then s.trap cFRAG_STATE 0
    else if rx then
      if Config.cores ≤ sender || dieOf sender != dieOf s.cur then s.trap cFRAG_STATE 0
      else
        let s := s.setChan s.cur ch
          { Chan.opened 0 0 (some (sender, a.toNat / 512 % 8)) with cnt := s.firstCounts s.cur ch }
        s.endWith s.me
    else if len != 0 && !regionHolds a len then s.trap cPROTECT a
    else
      let s := s.setChan s.cur ch
        { Chan.opened (if len = 0 then 0 else a) len none with cnt := s.firstCounts s.cur ch }
      s.endWith s.me

/-- chopen (R353). -/
def execChopen (o : OpE) (s : State) : Result State := chopen false o s
/-- chopen.rx (R346, R353). -/
def execChopenRx (o : OpE) (s : State) : Result State := chopen true o s

/-- Fields of the control words (R335, R347). -/
def Cmd.bv (c : Cmd) : Bool := c.ctl.getLsbD 31
def Cmd.bcell (c : Cmd) : Nat := c.ctl.toNat / 2 ^ 22 % 512
/-- WD of a CPY. -/
def Cmd.wd (c : Cmd) : Bool := c.kind == .cpy && c.ctl.getLsbD 21
/-- WIN of a CPY. -/
def Cmd.win (c : Cmd) : Nat := c.ctl.toNat % 2 ^ 16
/-- ROWS of a GTH. -/
def Cmd.rows (c : Cmd) : Nat := c.ctl.toNat / 2 ^ 48 % 2 ^ 16 + 1
/-- RSZ of a GTH, in bytes. -/
def Cmd.rsz (c : Cmd) : Nat := 4 * (c.ctl.toNat / 2 ^ 32 % 2 ^ 16 + 1)
/-- Bytes of one index of a GTH. -/
def Cmd.ixSize (c : Cmd) : Nat := if c.ctl.getLsbD 21 then 8 else 4
/-- The receivers that a CPYM masks, as cores (R346). -/
def Cmd.receivers (c : Cmd) (core : Nat) : List Nat :=
  ((List.range 64).filter (fun i => c.dst.getLsbD i)).map (fun i => 64 * dieOf core + i)

/-- The length of a command from its control word (R335, R347). -/
def lenOf (kind : CmdKind) (ctl : Word) : Nat :=
  match kind with
  | .gth => (ctl.toNat / 2 ^ 48 % 2 ^ 16 + 1) * (4 * (ctl.toNat / 2 ^ 32 % 2 ^ 16 + 1))
  | _ => ctl.toNat / 2 ^ 32

/-- A command as an instruction or a copy order gives it, before its checks (R334). -/
def Cmd.given (kind : CmdKind) (src dst ctl t idx : Word) (mode : Nat) (cb : Bool) (frm : BitVec 3)
    (sr : Word) (order : Bool) : Cmd :=
  { kind := kind, seq := 0, src := src, dst := dst, ctl := ctl, t := t, idx := idx, mode := mode, cb := cb,
    frm := frm, sr := sr, tick := 0, ready := 0, fence := 0, len := lenOf kind ctl, srcp := [], dstp := [],
    pins := [], exp := 0, order := order, due := 0, excused := 0, again := false }

/-- The extent that a command writes, where enqueuing translates one: the whole buffer under CB (R336). -/
def Cmd.target (c : Cmd) (x : Option Chan) : Word × Nat :=
  match c.kind with
  | .cpym => (0, 0)
  | _ =>
    if c.cb then
      match x.bind Chan.cbuf with
      | some b => (b.base, b.size * b.count)
      | none => (0, 0)
    else if c.wd then (0, 0)
    else (c.dst, c.len)

/-- The window that a WD command names is one that the context may write there (R336, R483, R490). -/
def State.wdCheck (s : State) (core : Nat) (c : Cmd) : Option Word :=
  match mfind s.wins c.win with
  | none => some (BitVec.ofNat 64 c.win)
  | some w =>
    if some w.asid != (s.strand core).asid || !w.imp then some (BitVec.ofNat 64 c.win)
    else if w.len < c.dst.toNat + c.len then some c.dst
    else none

/-- What the checks of an enqueue find: the command with its places and pages, a fault, or a wait for a
translation. -/
inductive Checked where
  | ok (c : Cmd)
  | bad (cause : Cause) (a : Word)
  | wait (a : Word)
  deriving DecidableEq, Repr

/-- The object checks of an enqueue (R336 step 3, R500). -/
def State.checkObject (s : State) (core ch : Nat) (c : Cmd) : Checked :=
  match s.chan core ch with
  | none => .bad cFRAG_STATE 0
  | some x =>
    if x.st = .broken then .bad cCHANNEL_BROKEN 0
    else if x.st ≠ .open then .bad cFRAG_STATE 0
    else if c.mode != 0 && c.len % 4 != 0 then .bad cFRAG_STATE 0
    else if c.cb && (c.wd || x.rx.isSome || x.ring.isSome ||
        (match x.cbuf with
          | none => true
          | some b => decide (b.size < c.len))) then .bad cFRAG_STATE 0
    else if c.wd then
      match s.wdCheck core c with
      | some tv => .bad cWINDOW tv
      | none => .ok c
    else .ok c

/-- The extents of a command, source before destination (R336 step 2, R347, R461). -/
def State.cmdExtents (s : State) (core ch : Nat) (c : Cmd) : Ext × List (Nat × Nat) :=
  let (d, dn) := c.target (s.chan core ch)
  if c.len = 0 then (.ok [] [], [])
  else if c.kind = .gth then
    let e := s.extent core true c.src extentRuns d.toNat dn []
    match e with
    | .ok dl p =>
      if c.idx.toNat < 0xFF00000000000000 || 0xFF10000000000000 ≤ c.idx.toNat then (.bad cPROTECT c.idx, [])
      else
        match s.extent core false c.src extentRuns c.idx.toNat (c.rows * c.ixSize) p with
        | .ok il p => (.ok il p, dl)
        | r => (r, [])
    | r => (r, [])
  else
    match s.extent core false c.src extentRuns c.src.toNat c.len [] with
    | .ok sl p =>
      match s.extent core true c.src extentRuns d.toNat dn p with
      | .ok dl p => (.ok sl p, dl)
      | r => (r, [])
    | r => (r, [])

/-- The checks of R336 in order. -/
def State.checkCmd (s : State) (core ch : Nat) (c : Cmd) : Checked :=
  if c.kind = .gth && c.idx.toNat % c.ixSize != 0 then .bad cMISALIGN c.idx
  else
    match s.cmdExtents core ch c with
    | (.bad cause a, _) => .bad cause a
    | (.wait a, _) => .wait a
    | (.ok sl p, dl) => s.checkObject core ch { c with srcp := sl, dstp := dl, pins := p }

/-- Room in a channel's command queue for its strand or for its table: 8 entries, and the weir for the one to which it
was granted (R113, R115, R336). -/
def Chan.room (x : Chan) (table : Bool) : Bool :=
  decide (x.queue.length < 8) || (x.weir == some table && x.queue.length == 8)
/-- The weir of the queue is free again at 8 entries or below (R115). -/
def Chan.settleWeir (x : Chan) : Chan := if x.queue.length ≤ 8 then { x with weir := none } else x

/-- Adds an entry at the tail of a channel's queue. -/
def State.pushQ (s : State) (core ch : Nat) (e : QCmd) : State :=
  match s.chan core ch with
  | none => s
  | some x => s.setChan core ch { x with queue := x.queue ++ [e] }

/-- Enqueues a checked command (R334, R336, R462). -/
def State.pushCmd (s : State) (core ch : Nat) (c : Cmd) : State :=
  match s.chan core ch with
  | none => s
  | some x =>
    let c := { c with seq := x.seq + 1, tick := s.now, fence := s.nextId }
    (s.setChan core ch { x with seq := x.seq + 1, queue := x.queue ++ [.cmd c] }).pin (dieOf core) c.pins

/-- Four source values from two register pairs (R352). -/
def State.pairs (s : State) (o : OpE) (k : Word → Word → Word → Word → Result State) : Result State :=
  let a := o.a
  let b := o.b
  s.gate [s.me.readG a o.ea, s.me.readG (a + 1) o.ea, s.me.readG b o.eb, s.me.readG (b + 1) o.eb]
    (k (s.me.gval a.toNat) (s.me.gval (a + 1).toNat) (s.me.gval b.toNat) (s.me.gval (b + 1).toNat))

/-- CPY, CPYM and GTH (R336, R354). -/
def State.copyInstr (s : State) (kind : CmdKind) (o : OpE) (cb : Bool) (sum : BitVec 2) : Result State :=
  s.pairs o fun x0 x1 y0 y1 =>
    let ch := o.h.toNat
    let idx : Word := 0xFF00000000000000 + BitVec.ofNat 64 (y0.toNat % 2 ^ 21)
    let c := Cmd.given kind x0 x1 y0 y1 idx sum.toNat cb s.me.frm s.me.srstate false
    match s.checkCmd s.cur ch c with
    | .bad cause a => (s.touch s.cur a).trap cause a
    | .wait a => .next ((s.touch s.cur a).stall (.translation a))
    | .ok c =>
      let s := s.touchPages s.cur c.pins
      if !((s.chan s.cur ch).elim true (Chan.room · false)) then .next (s.stall (.chanQueue ch))
      else if !(s.die (dieOf s.cur)).canPin c.pins then .next (s.stall .pins)
      else
        let s := s.pushCmd s.cur ch c
        s.endWith s.me

/-- cpy (R354). -/
def execCpy (o : OpE) (cb : Bool) (sum : BitVec 2) (s : State) : Result State := s.copyInstr .cpy o cb sum
/-- cpym (R346, R354). -/
def execCpym (o : OpE) (sum : BitVec 2) (s : State) : Result State := s.copyInstr .cpym o false sum
/-- gth (R347, R354). -/
def execGth (o : OpE) (cb : Bool) (sum : BitVec 2) (s : State) : Result State := s.copyInstr .gth o cb sum

/-- How far the commands of a channel have ended without a gap (R357). -/
def climb (l : List Nat) : Nat → Nat → Nat
  | 0, n => n
  | k + 1, n => if l.contains (n + 1) then climb l k (n + 1) else n

/-- Commands that completed or were discarded (R357). -/
def Chan.ended (x : Chan) (seqs : List Nat) : Chan :=
  let l := x.discarded ++ seqs
  let n := climb l l.length x.low
  { x with low := n, discarded := l.filter (fun q => decide (n < q)) }

/-- Every command not yet begun leaves a channel, and is pinned no longer (R349, R358, R462). -/
def State.dropUnbegun (s : State) (core ch : Nat) : State :=
  match s.chan core ch with
  | none => s
  | some x =>
    let l := x.unbegun
    let y := { x with queue := x.queue.filter (fun q => q.isCmd.isNone), buf := [], blocked := none }
    let s := s.setChan core ch ((y.ended (l.map Cmd.seq)).settleWeir)
    s.unpin (dieOf core) (l.flatMap Cmd.pins)

/-- An Open or Closing channel goes Broken (R333, R349, R350): the chain in progress never passes. One that has broken
keeps its cause. -/
def State.breakChan (s : State) (core ch : Nat) (cause : Cause) (a : Word) (seq : Nat) (aux : Word) : State :=
  let s := s.dropUnbegun core ch
  match s.chan core ch with
  | none => s
  | some x =>
    if x.cause != 0 then s
    else
    let s := s.setChan core ch { x with
      st := .broken, cause := cause, caddr := a, chain := false, chainWrites := [], chainSlots := 0,
      chainRslots := [] }
    s.faultOf core 3 cause false seq (handleCode (8 + ch)) 0 a aux

/-- The cause that a wait on a broken channel raises (R345, R356). -/
def Chan.waitCause (x : Chan) : Cause := if x.cause = cCOPY_SUM then cCOPY_SUM else cCHANNEL_BROKEN

/-- Adds filled slots for every consumer (R344). -/
def CBuf.fill (b : CBuf) (n : Nat) : CBuf :=
  { b with cons := b.cons.map (fun c => { c with fill := c.fill + n }) }
/-- A consumer of a buffer. -/
def CBuf.consumer (b : CBuf) (who : Nat) : Option Consumer := b.cons.find? (fun c => c.who == who)
/-- A consumer claims slots (R345). -/
def CBuf.claim (b : CBuf) (who n : Nat) : CBuf :=
  { b with cons := b.cons.map (fun c =>
      if c.who = who then { c with fill := c.fill - n, claim := c.claim + n } else c) }
/-- A consumer frees its oldest claims; a slot that every consumer has freed is free (R344, R345). -/
def CBuf.release (b : CBuf) (who n : Nat) : CBuf :=
  let cons := b.cons.map (fun c =>
    if c.who = who then { c with claim := c.claim - n, freed := c.freed + n } else c)
  let low := cons.foldl (fun m c => min m c.freed) (b.freedAll + b.count + 1)
  { b with cons := cons, free := b.free + (low - b.freedAll), freedAll := low }

/-- A credit for each freed slot of a receiver is on its way to its sender, where it stays until it is
applied, also while the sender is Saved (R346, R351). -/
def State.sendCredits (s : State) (receiver n : Nat) : Option (Nat × Nat) → State
  | none => s
  | some (core, ch) =>
    match s.findChan core ch with
    | some (home, x) => s.putChan core ch { x with credits := x.credits ++ List.replicate n receiver } home
    | none => s

/-- The address of a slot (R344). -/
def CBuf.slotAddr (b : CBuf) (j : Nat) : Word := b.base + BitVec.ofNat 64 (j % b.count * b.size)

/-- The places of some bytes of a strand's scratchpad regions. -/
def State.placesOf (s : State) (core : Nat) (a : Word) (n : Nat) : List (Nat × Nat) :=
  match s.extent core true a extentRuns a.toNat n [] with
  | .ok l _ => l
  | _ => []

/-- The formats between which a command converts (R274). -/
def State.convOf (s : State) (src dst : List (Nat × Nat)) : Option (BitVec 32 × BitVec 32) :=
  match src, dst with
  | (a, _) :: _, (b, _) :: _ =>
    if inBank a && inBank b then
      let f := s.format (bankOf a)
      let g := s.format (bankOf b)
      if converts f g then some (f, g) else none
    else none
  | _, _ => none

/-- A run takes the next free slot of its channel's buffer (R344). -/
def State.takeSlot (s : State) (core : Nat) (x : Chan) (r : Run) : Chan × Run :=
  match x.cbuf with
  | none => (x, r)
  | some b =>
    let p := s.placesOf core (b.slotAddr b.next) b.size
    ({ x with cbuf := some { b with next := b.next + 1, free := b.free - 1 } },
      { r with slot := some b.next, waitSlot := false, dstp := p,
               conv := if r.cmd.kind = .cpy then s.convOf r.cmd.srcp p else none })

/-- Free slots go to the runs that entered under the weir, and the weir is free again (R115, R344). -/
def State.giveSlots (s : State) (core : Nat) (x : Chan) : Chan :=
  match x.cbuf with
  | none => x
  | some b =>
    if b.free = 0 then x
    else
      match x.runs.find? Run.waitSlot with
      | none => { x with cbuf := some { b with weir := false } }
      | some r =>
        let (y, q) := s.takeSlot core x r
        { y with
          runs := y.runs.map (fun u => if u.cmd.seq = r.cmd.seq then q else u),
          cbuf := y.cbuf.map (fun c => { c with weir := false }) }

/-- A consumer frees its n oldest claimed slots of a channel's buffer (R345, R346). -/
def State.releaseSlots (s : State) (core ch who n : Nat) : State :=
  match s.chan core ch with
  | none => s
  | some x =>
    match x.cbuf with
    | none => s
    | some b =>
      let c := b.release who n
      let c := if b.free = 0 && c.free != 0 then { c with freshAt := s.now + 1 } else c
      let s := s.setChan core ch (s.giveSlots core { x with cbuf := some c })
      s.sendCredits core (c.freedAll - b.freedAll) x.rx

/-- cbpop (R345). -/
def execCbpop (o : OpE) (s : State) : Result State :=
  s.src1 o.a o.ea fun g =>
    let ch := o.h.toNat
    let n := g.toNat % 512
    match s.chan s.cur ch with
    | none => s.trap cFRAG_STATE 0
    | some x =>
      match x.cbuf.bind (fun b => (b.consumer 0).map (fun c => (b, c))) with
      | none => s.trap cFRAG_STATE 0
      | some (b, c) =>
        if x.st = .closing || n = 0 || 256 < n then s.trap cFRAG_STATE 0
        else if g.getLsbD 63 then
          if c.claim < n then s.trap cFRAG_STATE 0
          else
            let s := s.releaseSlots s.cur ch 0 n
            s.endWith s.me
        else if n ≤ c.fill then
          let s := s.setChan s.cur ch { x with cbuf := some (b.claim 0 n) }
          s.endWith s.me
        else if x.st = .broken then s.trap x.waitCause 0
        else .next (s.stall (.until (.slots ch n)))

/-- Fields of g_b of CBCFG (R343). -/
def cfgCons (x : Word) : Nat := x.toNat / 2 ^ 20 % 32
def cfgSize (x : Word) : Nat := (x.toNat / 2 ^ 8 % 2 ^ 12 + 1) * 64
def cfgCount (x : Word) : Nat := x.toNat % 2 ^ 8 + 1

/-- A buffer as CBCFG configures it (R343). -/
def cbufOf (base cfg : Word) : Option CBuf :=
  if cfgCons cfg = 0 then none
  else some
    { base := base, size := cfgSize cfg, count := cfgCount cfg, next := 0, free := cfgCount cfg, freedAll := 0,
      weir := false, freshAt := 0,
      cons := ((List.range 5).filter (fun i => (cfgCons cfg).testBit i)).map (fun i => ⟨i, 0, 0, 0⟩) }

/-- All slots lie in one scratchpad region, which for a .rx channel is the own core scratchpad (R343). -/
def slotsHeld (rx : Bool) (base cfg : Word) : Bool :=
  base.toNat % 64 == 0 && decide (0xFF00000000000000 ≤ base.toNat) &&
    (!rx || decide (base.toNat < 0xFF10000000000000)) && regionHolds base (cfgSize cfg * cfgCount cfg)

/-- cbcfg (R343, R352, R500): the checks are made at issue, and the buffer is set when the entry applies. -/
def execCbcfg (o : OpE) (s : State) : Result State :=
  s.src2 o.a o.ea o.b o.eb fun base cfg =>
    let ch := o.h.toNat
    match s.chan s.cur ch with
    | none => s.trap cFRAG_STATE 0
    | some x =>
      if x.st ≠ .open || x.ring.isSome || x.unfinished != [] ||
          (x.cbuf.elim false (fun b => b.cons.any (fun c => c.claim != 0))) ||
          (cfgCons cfg != 0 && !slotsHeld x.rx.isSome base cfg) then s.trap cFRAG_STATE 0
      else if !x.room false then .next (s.stall (.chanQueue ch))
      else
        let s := s.pushQ s.cur ch (.cbcfg base cfg)
        s.endWith s.me

/-- A CHWM or CHSUM enters the queue with its Pending destination (R352, R355, R357). -/
def State.chanQuery (s : State) (o : OpE) (e : Nat → QCmd) : Result State :=
  match s.chan s.cur o.h.toNat with
  | none => s.trap cFRAG_STATE 0
  | some x =>
    s.dest o.b (if !x.room false then .next (s.stall (.chanQueue o.h.toNat))
      else (s.pushQ s.cur o.h.toNat (e s.me.seq)).produce o.b (.chan s.me.seq))

/-- chwm (R355). -/
def execChwm (o : OpE) (s : State) : Result State := s.chanQuery o .chwm

/-- CHSUM with a value of q (R357). -/
def chsum (q : Nat) (o : OpE) (s : State) : Result State :=
  s.src1 o.a o.ea fun a => s.chanQuery o (fun id => .chsum q a id)

/-- chsum (R357). -/
def execChsum (o : OpE) (s : State) : Result State := chsum 0 o s
/-- chsum.exp (R357). -/
def execChsumExp (o : OpE) (s : State) : Result State := chsum 1 o s
/-- chsum.clr (R357). -/
def execChsumClr (o : OpE) (s : State) : Result State := chsum 2 o s
/-- chsum.stat (R357). -/
def execChsumStat (o : OpE) (s : State) : Result State := chsum 3 o s
/-- chsum.slip (R357). -/
def execChsumSlip (o : OpE) (s : State) : Result State := chsum 4 o s
/-- chsum.seq (R357). -/
def execChsumSeq (o : OpE) (s : State) : Result State := chsum 5 o s

/-- chwait (R356). -/
def execChwait (o : OpE) (s : State) : Result State :=
  s.src1 o.a o.ea fun a =>
    match s.chan s.cur o.h.toNat with
    | none => s.trap cFRAG_STATE 0
    | some x =>
      if x.len = 0 || decide (x.base.toNat + x.len - 1 < a.toNat) then s.trap cFRAG_STATE 0
      else if a.ult x.base || a.ule x.wm then s.endWith s.me
      else if x.st = .broken then s.trap x.waitCause 0
      else .next (s.stall (.until (.watermark o.h.toNat a)))

/-- Nothing of a channel is left to do (R358). -/
def Chan.quiet (x : Chan) : Bool := x.runs.isEmpty && x.buf.isEmpty && x.queue.isEmpty

/-- A handle returns to Closed (R333, R346, R358): its buffer, table and range go, and a receiver's counter at
its sender becomes zero. -/
def State.closeChan (s : State) (core ch : Nat) : State :=
  match s.chan core ch with
  | none => s
  | some x =>
    let t := s.strand core
    let s := s.setStrand core { t with chan := mdel t.chan ch }
    match x.rx with
    | none => s
    | some (c, h) =>
      match s.findChan c h with
      | none => s
      | some (home, y) => s.putChan c h { y with cnt := mdel y.cnt core } home

/-- chclose and chclose.discard (R358). -/
def chclose (discard : Bool) (o : OpE) (s : State) : Result State :=
  let ch := o.h.toNat
  match s.chan s.cur ch with
  | none => s.trap cFRAG_STATE 0
  | some x =>
    match s.me.wait with
    | some w =>
      if x.quiet then
        let s := s.closeChan s.cur ch
        s.endWith s.me
      else .next (s.waitOn w (.chanDone ch))
    | none =>
      if x.tbl.busy then s.trap cFRAG_STATE 0
      else
        let s := s.setChan s.cur ch { x with st := .closing }
        let s := if discard then s.dropUnbegun s.cur ch else s
        if (s.chan s.cur ch).elim true Chan.quiet then
          let s := s.closeChan s.cur ch
          s.endWith s.me
        else .next (s.waitOn ⟨1, 0, 0, s.now⟩ (.chanDone ch))

/-- chclose (R358). -/
def execChclose (o : OpE) (s : State) : Result State := chclose false o s
/-- chclose.discard (R358). -/
def execChcloseDiscard (o : OpE) (s : State) : Result State := chclose true o s

end Sys2Proof.Machine
end

