-- ==== Sys2Proof/Machine/CopyEngine.lean ====
section
/-! DEFINITION. The copy engine (R337 to R350): the time-sorted buffer, the begin of a command, its line
transfers, its completion with the copy sum, multicast credits, and the entries that apply in a channel's
queue. -/

namespace Sys2Proof.Machine

/-- Entries of a die's time-sorted buffer (R337). -/
def bufferEntries : Nat := 512

/-- The channels of the strands on a die's cores. -/
def State.dieChans (s : State) (d : Nat) : List Chan :=
  (s.cores.filter (fun c => dieOf c.1 == d)).flatMap (fun c => c.2.strand.chan.map (·.2))

/-- Entries held in a die's time-sorted buffer (R337). -/
def State.held (s : State) (d : Nat) : Nat := ((s.dieChans d).map (fun x => x.buf.length)).sum

/-- A channel's queue head may take an entry, of those that are free (R337). -/
def State.mayEnter (s : State) (d : Nat) (x : Chan) : Bool :=
  decide (s.held d < bufferEntries) &&
    (x.buf.isEmpty ||
      decide (((s.dieChans d).filter (fun y => y.st == .open && y.buf.isEmpty)).length < bufferEntries - s.held d))

/-- A command as it enters the time-sorted buffer (R337, R338, R348): one that a restore enqueued again keeps the EXP it
took, and with a time the tick that its slip counts from (R351; log 43). -/
def Cmd.entered (c : Cmd) (now : Nat) (exp : BitVec 32) : Cmd :=
  { c with
    ready := now + 4, due := if c.again && c.t != 0 then c.due else now + 4, excused := 0,
    exp := if c.again then c.exp else exp }

/-- QUEUE_HEAD_ENTRY (R337): at most one command of a channel leaves its queue in each tick. -/
def execQueueHeadEntry (core ch : Nat) (s : State) : Result State :=
  if Config.cores ≤ core || 8 ≤ ch then .fault .noSuchObject
  else
    match s.chan core ch with
    | none => .next s
    | some x =>
      match x.queue with
      | .cmd c :: rest =>
        if c.tick + 4 ≤ s.now && x.buf.all (fun b => decide (b.ready < s.now + 4)) &&
            s.mayEnter (dieOf core) x then
          let y : Chan := { x with queue := rest, buf := x.buf ++ [c.entered s.now x.exp] }
          .next (s.setChan core ch y.settleWeir)
        else .next s
      | _ => .next s

/-- The path of a command (R314, R340). -/
def Cmd.path (c : Cmd) : Nat := if c.kind = .gth then 3 else 2

/-- A read of the engine from the strand's view (R340): the bytes, or the error with its place (R349, R470).
A poisoned line counts as UE_DATA (log 17). -/
def State.engineRead (s : State) (core : Nat) : List (Nat × Nat) → List Byte × Option (Cause × Nat)
  | [] => ([], none)
  | (pa, n) :: l =>
    let r := s.read core pa n
    match if s.linkDead core pa then some cLINK_DEAD else r.err with
    | some c => ([], some (if c = cLOG_POISON then cUE_DATA else c, pa))
    | none =>
      let q := State.engineRead s core l
      (r.bytes ++ q.1, q.2)

/-- A begun command with nothing moved yet. -/
def Cmd.run (c : Cmd) : Run :=
  { cmd := c, slot := none, waitSlot := false, rslots := [], rwait := [], dstp := c.dstp, pos := 0, out := 0,
    buf := [], sum := 0, idx := [], conv := none, acked := c.len = 0 && !c.wd, since := none, names := [], rowp := [], rows := [] }

/-- The place of a multicast's slots that decides its conversion: that of the lowest receiver (R274;
log 18). -/
def State.rslotPlaces (s : State) (r : Run) : List (Nat × Nat) :=
  let l := (r.rslots.map (·.1)).foldl min Config.cores
  match r.rslots.find? (fun y => y.1 == l) with
  | none => []
  | some (x, rch, j) =>
    match (s.chan x rch).bind Chan.cbuf with
    | some b => s.placesOf x (b.slotAddr j) b.size
    | none => []
/-- The formats of a multicast that has its slots (R274). -/
def State.mcConv (s : State) (r : Run) : Run :=
  if r.rwait = [] then { r with conv := s.convOf r.cmd.srcp (s.rslotPlaces r) } else r

/-- Slots of receivers that a multicast takes as they are free (R346): the counter falls, and the receiver's
next slot is the run's. -/
def State.takeRslot (s : State) (core ch : Nat) (r : Run) (x : Nat) : State × Run :=
  match s.chan core ch, s.rxOf core ch x with
  | some me, some (rch, y) =>
    match y.cbuf with
    | none => (s, r)
    | some b =>
      let s := s.setChan core ch { me with
        cnt := mset me.cnt x (mget me.cnt x 0 - 1), cntWeir := me.cntWeir.filter (· != x) }
      match s.chan x rch with
      | none => (s, r)
      | some y =>
        (s.setChan x rch { y with cbuf := some { b with next := b.next + 1, free := b.free - 1 } },
          { r with rslots := r.rslots ++ [(x, rch, b.next)], rwait := r.rwait.filter (· != x) })
  | _, _ => (s, r)

/-- The receivers whose counter is zero, a receiver that is not there counting as zero (R346). -/
def State.emptyReceivers (s : State) (core ch : Nat) (x : Chan) (l : List Nat) : List Nat :=
  l.filter (fun c => mget x.cnt c 0 == 0 || (s.rxOf core ch c).isNone)

/-- What keeps the next command from its slot or counters (R338, R346): nothing, the gate, or the gate with a
granted weir (R115). -/
inductive Gate where
  | clear
  | blocked
  | weir
  deriving DecidableEq, Repr

/-- The gate of a command (R338): a slot freed in this tick serves it in the next (R362). -/
def State.cmdGate (s : State) (core ch : Nat) (x : Chan) (c : Cmd) : Gate :=
  if c.kind = .cpym then
    let e := s.emptyReceivers core ch x (c.receivers core)
    if e = [] then .clear
    else if e.all (fun r => x.cntWeir.contains r) && x.runs.all (fun r => r.rwait.isEmpty) then .weir
    else .blocked
  else if c.cb then
    match x.cbuf with
    | none => .clear
    | some b =>
      if b.free != 0 && b.freshAt != s.now + 1 && !x.runs.any Run.waitSlot then .clear
      else if b.weir && !x.runs.any Run.waitSlot then .weir else .blocked
  else .clear

/-- A receiver whose slots are shorter than a multicast (R346). -/
def State.shortReceiver (s : State) (core ch : Nat) (c : Cmd) : Bool :=
  (c.receivers core).any fun x => match s.rxOf core ch x with
    | some (_, y) => y.cbuf.elim false (fun b => decide (b.size < c.len))
    | none => false

/-- The indices of a gather (R347). -/
def indices (n : Nat) (bs : List Byte) : List Nat := (runsOf n (bs.length + 1) bs).map codeOf

/-- A WD command counts in SENT as it begins, as one operation of its handle (R484, R539). -/
def State.sendCopy (s : State) (core ch : Nat) (c : Cmd) (w : Win) : State :=
  { s with wins := mset s.wins c.win { w with
      sent := bump48 w.sent, sq := (w.sq + 1) % 2 ^ 32,
      outs := w.outs ++ [⟨w.sq, 0, s.ports.headD 0, dieOf core, s.now, c.dst.toNat, some (core, ch, c.seq),
        .op (.copy w.farIndex c.dst.toNat c.len 0 [])⟩] } }

/-- Bytes that a copy through a window has read are sent, as part of its operation (R479, R539). -/
def State.sendBytes (s : State) (core ch : Nat) (c : Cmd) (bs : List Byte) : State :=
  match mfind s.wins c.win with
  | none => s
  | some w =>
    let put := fun (o : Sent) => match o.chan, o.body with
      | some k, .op (.copy i off len at_ l) =>
        if k = (core, ch, c.seq) then { o with body := .op (.copy i off len at_ (l ++ bs)) } else o
      | _, _ => o
    { s with wins := mset s.wins c.win { w with outs := w.outs.map put } }

/-- A command has ended: it is entered for CHSUM, and its pages are pinned no longer (R357, R462). -/
def State.endCmd (s : State) (core ch : Nat) (c : Cmd) : State :=
  match s.chan core ch with
  | none => s
  | some x => (s.setChan core ch (x.ended [c.seq])).unpin (dieOf core) c.pins

/-- Gives the begun command its slots and formats, or breaks the channel (R344, R346, R347, R274, R349). -/
def State.startRun (s : State) (core ch : Nat) (c : Cmd) (weir : Bool) : State :=
  let add (s : State) (r : Run) : State :=
    match s.chan core ch with
    | some x => s.setChan core ch { x with runs := x.runs ++ [r] }
    | none => s
  let fail (cause : Cause) (a aux : Word) : State := (s.endCmd core ch c).breakChan core ch cause a c.seq aux
  if c.len = 0 && !c.cb && !c.wd && c.kind ≠ .cpym then add s c.run
  else
    match c.kind with
    | .cpym =>
      let l := c.receivers core
      if l = [] then add s { c with len := 0 }.run
      else if s.shortReceiver core ch c then fail cFRAG_STATE 0 0
      else
        let e := match s.chan core ch with
          | some x => s.emptyReceivers core ch x l
          | none => []
        let p := (l.filter (fun x => !e.contains x)).foldl (fun p x => p.1.takeRslot core ch p.2 x)
          (s, { c.run with rwait := e })
        add p.1 (p.1.mcConv p.2)
    | .gth =>
      let q := s.engineRead core c.srcp
      match q.2 with
      | some (cause, pa) => fail cause c.idx (syndrome cause pa s.freeCtr)
      | none =>
        let r := { c.run with idx := indices c.ixSize q.1 }
        if c.cb then
          if weir then add s { r with waitSlot := true }
          else
            match s.chan core ch with
            | none => s
            | some x => let (y, r) := s.takeSlot core x r; add (s.setChan core ch y) r
        else add s r
    | .cpy =>
      if c.wd then
        match mfind s.wins c.win with
        | none => fail cWINDOW c.dst 0
        | some w =>
          if w.broken != 0 then fail w.broken c.dst 0
          else if s.ports = [] then fail cLINK_DEAD c.dst 0
          else add (s.sendCopy core ch c w) c.run
      else if c.cb then
        if weir then add s { c.run with waitSlot := true }
        else
          match s.chan core ch with
          | none => s
          | some x => let (y, r) := s.takeSlot core x c.run; add (s.setChan core ch y) r
      else add s { c.run with conv := s.convOf c.srcp c.dstp }

/-- The slip of a command that begins now (R339): the ticks past its time and its ready tick, but for those that a free
slot, a counter or a PFENCE held it. -/
def State.slipOf (s : State) (core : Nat) (c : Cmd) : Nat :=
  let late := s.now - c.due
  (if c.t = 0 then late else min late ((s.ptime core).toNat - c.t.toNat)) - c.excused

/-- What a command waits for, but its time and the engine: a free slot or a counter (true), or a PFENCE (R338, R339). -/
def State.cmdHeld (s : State) (core ch : Nat) (x : Chan) (c : Cmd) : Option Bool :=
  if s.cmdGate core ch x c != .clear then some true
  else if s.heldBack core c.path c.fence then some false
  else none

/-- Of n ticks, those in which a command is held as it is now: one where a slot freed in this tick serves it in the next
(R339, R362). -/
def State.heldTicks (s : State) (core ch n : Nat) (x : Chan) (c : Cmd) : Nat :=
  if (s.cmdHeld core ch x c).isNone then 0
  else if (({ s with now := s.now + 1 } : State).cmdHeld core ch x c).isNone then min 1 n
  else n

/-- Ticks pass for the commands of a channel in the time-sorted buffer: those in which a slot, a counter or a PFENCE
holds a command that is due are not slip (R339), and its next command is blocked while it waits for a slot or a counter
(R114). -/
def State.passChan (s : State) (core ch n : Nat) (x : Chan) : Chan :=
  let lead := fun (c : Cmd) =>
    max (c.ready - s.now) (if c.t = 0 then 0 else c.t.toNat - (s.ptime core).toNat)
  let held := fun (c : Cmd) =>
    { c with excused := c.excused + (s.heldTicks core ch n x c - lead c) }
  let wait := match x.buf with
    | [] => none
    | c :: _ => if s.cmdHeld core ch x c = some true && decide (lead c < n) && s.heldTicks core ch n x c == n then some (x.blocked.getD (s.now + lead c)) else none
  { x with buf := x.buf.map held, blocked := wait }
/-- Ticks pass for every channel. -/
def State.passChans (s : State) (n : Nat) : State :=
  { s with cores := s.cores.map fun k => (k.1, { k.2 with strand := { k.2.strand with
      chan := k.2.strand.chan.map (fun c => (c.1, s.passChan k.1 c.1 n c.2)) } }) }

/-- Adds to the slip counter (R339). -/
def Chan.addSlip (x : Chan) (n : Nat) : Chan := { x with slip := min (x.slip + n) (2 ^ 48 - 1) }

/-- The part of a line that some bytes cover, as a record carries it (R286). -/
def bytePart (pa : Nat) (bs : List Byte) : Part := partOf pa (allBytes bs)

/-- Bytes split at line ends: places with their bytes; the count bounds them. -/
def splitLines : Nat → Nat → List Byte → List (Nat × List Byte)
  | 0, _, _ => []
  | k + 1, pa, bs =>
    if bs = [] then []
    else
      let m := 64 - pa % 64
      (pa, bs.take m) :: splitLines k (pa + m) (bs.drop m)

/-- The records of an engine write (R286): each maximal run of whole lines within a 4 KiB block, and each
partial line. -/
def engineRecords : List (Nat × List Byte) → List (List Part)
  | [] => []
  | (pa, bs) :: l =>
    let p := bytePart pa bs
    match engineRecords l with
    | [] => [[p]]
    | g :: gs =>
      match g with
      | [] => [p] :: gs
      | q :: _ =>
        if p.mask = BitVec.allOnes 64 && q.mask = BitVec.allOnes 64 && (64 * q.line) % 4096 != 0 then
          (p :: g) :: gs
        else [p] :: g :: gs

/-- Units of an engine record (R286). -/
def recordUnits (l : List Part) : Nat :=
  match l with
  | [p] => partUnits p
  | l => l.length + 1

/-- What a write of the engine does: it is performed, held by a full log, or fails. -/
inductive Wrote where
  | done (s : State)
  | held
  | failed (cause : Cause)
  deriving DecidableEq, Repr

/-- An engine write of bytes at a place (R281, R286, R340, R467): in place in a scratchpad, as records in
global memory, nowhere on a barrier page, where a live word makes it fail. -/
def State.engineWrite (s : State) (core pa : Nat) (bs : List Byte) : Wrote :=
  let ls := splitLines (bs.length / 64 + 2) pa bs
  if isBarrier pa then
    if ls.any (fun l => s.barrierLive l.1) then .failed cBARRIER_CLOBBER else .done s
  else if !isGlobal pa && s.linkDead core pa then .failed cLINK_DEAD
  else if isGlobal pa then
    let rs := engineRecords ls
    if !(s.log core).fits ((rs.map recordUnits).sum) then .held
    else .done (rs.foldl (fun s r => s.append core (recordUnits r) r) s)
  else .done (ls.foldl (fun s l => s.putLine l.1 (allBytes l.2)) s)

/-- An engine write of bytes over several places. -/
def State.engineWrites (s : State) (core : Nat) : List (Nat × Nat) → List Byte → Wrote
  | [], _ => .done s
  | (pa, n) :: l, bs =>
    match s.engineWrite core pa (bs.take n) with
    | .done s => State.engineWrites s core l (bs.drop n)
    | r => r

/-- The sum that delivered bytes add, at a place in the command's stream (R348). -/
def sumBytes (off : Nat) (bs : List Byte) : BitVec 32 :=
  BitVec.ofNat 32 ((bs.zipIdx.map (fun b => b.1.toNat * 256 ^ ((off + b.2) % 4))).sum)

/-- The address at which a run's strand says that it writes (R344); none for a multicast and for a write through a
window. -/
def Run.base (r : Run) (x : Chan) : Option Word :=
  if r.cmd.wd || r.cmd.kind = .cpym then none
  else if r.cmd.cb then
    match r.slot, x.cbuf with
    | some j, some b => some (b.slotAddr j)
    | _, _ => none
  else some r.cmd.dst

/-- The addresses under which a strand names bytes of a scratchpad (R259): ranges from their first to past their last. -/
def spNames (core pa n : Nat) : List (Nat × Nat) :=
  if sharedBase ≤ pa ∧ pa < spBase then [(0xFF20000000000000 + (pa - sharedBase), 0xFF20000000000000 + (pa - sharedBase) + n)]
  else if spBase ≤ pa ∧ pa < laneBase then
    let y := (pa - spBase) / 2 ^ 21
    let o := (pa - spBase) % 2 ^ 21
    let lo := max o 0x180000
    let quarter := 0xFF10000000000000 + y % 4 * 2 ^ 19
    (if y = core then [(0xFF00000000000000 + o, 0xFF00000000000000 + o + n)] else []) ++
      if y / 4 = core / 4 ∧ 0x180000 < o + n then [(quarter + lo - 0x180000, quarter + (o + n) - 0x180000)] else []
  else []

/-- Counts a range of written addresses towards the watermark (R341), as offsets in the channel's range. -/
def Chan.count (x : Chan) (w : Nat × Nat) : Chan :=
  let lo := max w.1 x.base.toNat
  let hi := min w.2 (x.base.toNat + x.len)
  if x.cause != 0 || hi ≤ lo then x
  else { x with written := addRange (lo - x.base.toNat) (hi - x.base.toNat) x.written }

/-- Where bytes of a run go: to places, or to the scratchpad of a receiver that has been saved meanwhile, by the key of its
save image. -/
structure Target where
  image : Option Nat
  places : List (Nat × Nat)
  deriving DecidableEq, Repr

/-- The receivers' channel that a multicast's slot belongs to. -/
def State.slotChan (s : State) (core ch x rch : Nat) : Option (Option Nat × Chan) :=
  (s.findChan x rch).bind fun y => if y.2.rx = some (core, ch) then some y else none

/-- The places that some bytes of a run are written to: at each receiver, at the address that a converting
command computes, or within the extent resolved before. -/
def State.runPlaces (s : State) (core ch : Nat) (x : Chan) (r : Run) (off n : Nat) : List Target :=
  if r.cmd.kind = .cpym then
    r.rslots.filterMap fun y => (s.slotChan core ch y.1 y.2.1).bind fun z => z.2.cbuf.map fun b =>
      ⟨z.1, [(spAddr y.1 ((b.slotAddr y.2.2).toNat % 2 ^ 52 + off), n)]⟩
  else if r.cmd.wd then []
  else if r.conv.isSome then (r.base x).toList.map (fun a => ⟨none, s.placesOf core (a + BitVec.ofNat 64 off) n⟩)
  else [⟨none, subRuns r.dstp off n⟩]

/-- Writes the same bytes at several targets (R346). -/
def State.writeEach (s : State) (core : Nat) (bs : List Byte) : List Target → Wrote
  | [] => .done s
  | l :: ls =>
    if (l.places.map (·.2)).sum < bs.length && l.places != [] then .failed cPROTECT
    else
      match l.image with
      | some key =>
        match mfind s.images key with
        | none => State.writeEach s core bs ls
        | some i =>
          let a := (l.places.headD (0, 0)).1
          let put := fun (m : List Host.Cell) (b : Byte × Nat) => memSet m (a + b.2) b.1
          State.writeEach { s with images := mset s.images key { i with scratch := bs.zipIdx.foldl put i.scratch } }
            core bs ls
      | none =>
        match s.engineWrites core l.places bs with
        | .done s => State.writeEach s core bs ls
        | r => r

/-- The bytes that a converting command delivers (R274): as many elements of the destination's type as its source holds,
with 512 elements in each 384 bytes of FP4. -/
def convLen (f g : BitVec 32) (len : Nat) : Nat :=
  let n := if fmtType f = 0 then len / 384 * 512 else len / etSize (fmtType f)
  if fmtType g = 0 then n / 512 * 384 else n * etSize (fmtType g)

/-- The bytes that a run delivers. -/
def Run.delivers (r : Run) : Nat :=
  match r.conv with
  | some (f, g) => convLen f g r.cmd.len
  | none => r.cmd.len

/-- The parts of lines that n bytes from an address cover, by their offsets from `off` on; the count bounds them. -/
def lineParts : Nat → Nat → Nat → Nat → List (Nat × Nat)
  | 0, _, _, _ => []
  | k + 1, a, off, n =>
    if n = 0 then []
    else
      let m := min n (64 - a % 64)
      (off, m) :: lineParts k (a + m) (off + m) (n - m)

/-- A run has yet to write bytes at some of these places (R340): each part of a line that it will write is taken by
itself. -/
def State.stillWrites (s : State) (core ch : Nat) (x : Chan) (l : List Target) (r : Run) : Bool :=
  let n := r.delivers - r.out
  let parts := if r.conv.isSome then lineParts (n / 64 + 2) (((r.base x).getD 0).toNat + r.out) r.out n else [(r.out, n)]
  (parts.flatMap fun w => s.runPlaces core ch x r w.1 w.2).any fun t => l.any fun u =>
    t.image == u.image && t.places.any (fun p => u.places.any (fun q => overlap p.1 p.2 q.1 q.2))

/-- An earlier command of the channel has yet to write bytes at some of these places (R340). -/
def State.earlierWrites (s : State) (core ch : Nat) (x : Chan) (r : Run) (l : List Target) : Bool :=
  (x.runs.takeWhile (fun u => u.cmd.seq != r.cmd.seq)).any (s.stillWrites core ch x l)

/-- Replaces a run of a channel. -/
def State.setRun (s : State) (core ch : Nat) (r : Run) : State :=
  match s.chan core ch with
  | none => s
  | some x => s.setChan core ch { x with runs := x.runs.map (fun u => if u.cmd.seq = r.cmd.seq then r else u) }

/-- A run of a channel by its SEQ. -/
def Chan.runOf (x : Chan) (seq : Nat) : Option Run := x.runs.find? (fun r => r.cmd.seq == seq)

/-- A run leaves its channel: its command has ended, and its pages are pinned no longer (R357, R462), nor those of a row
that it reads (R461); its operations between dies are done (R479). -/
def State.dropRun (s : State) (core ch : Nat) (c : Cmd) : State :=
  match s.chan core ch with
  | none => s
  | some x =>
    let rows := (x.runOf c.seq).elim [] Run.rows
    let s := (s.setChan core ch { x with runs := x.runs.filter (fun u => u.cmd.seq != c.seq) }).endCmd core ch c
    (s.unpin (dieOf core) rows).settleFlows (fun o => o.core == core && o.use == .copy ch c.seq)

/-- The failing command stops, and its channel goes Broken (R349). -/
def State.failRun (s : State) (core ch : Nat) (r : Run) (cause : Cause) (a : Word) (aux : Word) : State :=
  (s.dropRun core ch r.cmd).breakChan core ch cause a r.cmd.seq aux

/-- A window operation of a handle leaves its die's queue without being sent: its pages are pinned no longer. -/
def State.dropWinOps (s : State) (p : WinOp → Bool) : State :=
  (List.range 6).foldl (fun s d =>
    let l := (s.die d).winq.filter p
    (s.setDie d { s.die d with winq := (s.die d).winq.filter (fun o => !p o) }).unpin d (l.flatMap WinOp.pins)) s

/-- A copy through a window fails with its handle (R349, R495). -/
def State.failCopy (s : State) (cause : Cause) (core ch seq : Nat) : State :=
  match (s.chan core ch).bind (fun x => x.runOf seq) with
  | none => s
  | some r => s.failRun core ch r cause r.cmd.dst 0

/-- WINDOW_BREAK (R495): the record, with the syndrome of a failed read (R470); the operations not yet sent; and the
copies that used the handle. -/
def State.breakWin (s : State) (handle : Nat) (cause : Cause) (sq off : Nat) (aux : Word) : State :=
  match mfind s.wins handle with
  | none => s
  | some w =>
    if w.broken != 0 then s
    else
      let s := { s with wins := mset s.wins handle { w with broken := cause, outs := [] } }
      let s := s.dropWinOps (fun o => o.handle == handle)
      let s := s.fault w.asid ⟨3, cause, false, sq, s.groupWord (s.strand w.core).group, w.core, 0, dieOf w.core, 0,
        BitVec.ofNat 64 off, aux⟩
      (w.outs.filterMap Sent.chan).foldl (fun s c => s.failCopy cause c.1 c.2.1 c.2.2) s

/-- A read of a command's source fails: the command stops and its channel goes Broken (R349), and a copy through a window
breaks its handle too (R495, R539). -/
def State.failRead (s : State) (core ch : Nat) (r : Run) (cause : Cause) (a : Word) (aux : Word) : State :=
  let mine := fun (o : Sent) => o.chan == some (core, ch, r.cmd.seq)
  let s' := s.failRun core ch r cause a aux
  if r.cmd.wd then
    match (mfind s.wins r.cmd.win).bind (fun w => w.outs.find? mine) with
    | some o => s'.breakWin r.cmd.win cause o.sq o.off aux
    | none => s'
  else s'

/-- The destination address of a run's next byte, for a fault record. -/
def Run.at (r : Run) (x : Chan) : Word := (r.base x).getD r.cmd.dst + BitVec.ofNat 64 r.out

/-- The destination address of a run's first byte, which the record of a failing copy sum names (R350, R541). -/
def Run.start (r : Run) (x : Chan) : Word := (r.base x).getD r.cmd.dst

/-- The sizes of the parts of lines that n bytes from an address cover. -/
def lineSizes (a n : Nat) : List Nat := (splitLines (n / 64 + 2) a (List.replicate n 0)).map (fun l => l.2.length)

/-- Lines that a command has written decrement the pending-byte counter, one by one (R335, R371). -/
def State.pendLines (s : State) (core cell : Nat) : List Nat → State × Option Cause
  | [] => (s, none)
  | n :: l =>
    match s.pendDown core cell n with
    | (s, none) => State.pendLines s core cell l
    | r => r

/-- Bytes of a run have landed: each line decrements the counter of its command's cell (R335, R371). The lines of a
multicast do so once, however many receivers it has: DESIGN CHOICE, unsafe (log 85). -/
def State.landed (s : State) (core ch : Nat) (x : Chan) (r : Run) (a n : Nat) : State :=
  if r.cmd.bv then
    match s.pendLines core r.cmd.bcell (lineSizes a n) with
    | (s, none) => s
    | (s, some cause) => s.failRun core ch r cause (r.at x) 0
  else s

/-- A run's bytes have been written: they are counted, summed, and decrement the pending-byte counter, but for a write
through a window, which lands when it is acknowledged (R335, R339, R341, R348, R371, R539). -/
def State.wrote (s : State) (core ch : Nat) (r : Run) (l : List Target) (bs : List Byte) : State :=
  let last := r.conv.isNone || decide (r.delivers ≤ r.out + bs.length)
  match s.chan core ch with
  | none => s
  | some x =>
    let x := match r.since with
      | some t => x.addSlip (s.now - t)
      | none => x
    let here := (r.base x).toList.map fun a => ((a + BitVec.ofNat 64 r.out).toNat, (a + BitVec.ofNat 64 r.out).toNat + bs.length)
    let others := l.flatMap fun t => if t.image.isSome then [] else t.places.flatMap (fun p => spNames core p.1 p.2)
    let names := (here ++ others).foldl (fun m w => addRange w.1 w.2 m) r.names
    let x := if r.cmd.mode = 0 then (here ++ others).foldl Chan.count x else x
    let q := { r with out := r.out + bs.length, buf := if last then [] else r.buf, sum := r.sum + sumBytes r.out bs, since := none, names := names }
    let s := (s.setChan core ch x).setRun core ch q
    if r.cmd.wd then s else s.landed core ch x q (((r.base x).getD 0).toNat + r.out) bs.length

/-- Every byte of a command has been read and written, or sent (R539). -/
def Run.sent (r : Run) : Bool := r.cmd.len ≤ r.pos && r.buf.isEmpty

/-- The far end's acknowledgement of a command that writes through a window returns: its lines have landed (R539). -/
def State.ackRun (s : State) (core ch : Nat) (x : Chan) (r : Run) : State :=
  let q := { r with acked := true }
  if r.acked || !r.cmd.wd then s.setRun core ch q
  else (s.setRun core ch q).landed core ch x q r.cmd.dst.toNat r.cmd.len

/-- Places with the bytes that they take. -/
def placed : List (Nat × Nat) → List Byte → List (Nat × List (Byte × Bool))
  | [], _ => []
  | (pa, n) :: l, bs => (pa, allBytes (bs.take n)) :: placed l (bs.drop n)

/-- Writes the bytes that a run holds (R286, R301, R340, R349), after those that earlier commands of its channel write at
the same places. -/
def State.performRun (s : State) (core ch : Nat) (x : Chan) (r : Run) (bs : List Byte) : State :=
  let l := s.runPlaces core ch x r r.out bs.length
  if r.cmd.wd then (s.sendBytes core ch r.cmd bs).wrote core ch r [] bs
  else if s.earlierWrites core ch x r l then s.setRun core ch r
  else
    match s.writeEach core bs l with
    | .done s =>
      let direct := l.flatMap (fun t => if t.image.isSome then [] else placed t.places bs)
      (s.enterWrites core r.cmd.path (.copy ch r.cmd.seq) (direct.filter (fun p => !isGlobal p.1))).wrote core ch r l bs
    | .held => s.setRun core ch { r with since := some (r.since.getD s.now) }
    | .failed cause => s.failRun core ch r cause (r.at x) 0

/-- The place of a run's byte at an offset, when one list of places holds it. -/
def Run.placeAt (r : Run) (off : Nat) : Option Nat :=
  if r.cmd.kind = .cpym || r.cmd.wd then none
  else match subRuns r.dstp off 1 with
    | (pa, _) :: _ => some pa
    | [] => none

/-- Whether the bytes a run has read so far are written now (R286, R340): a whole line group in a scratchpad,
and in global memory a partial line or a maximal run of whole lines. -/
def Run.due (r : Run) : Bool :=
  r.buf != [] && (r.pos == r.cmd.len || r.cmd.wd ||
    match r.placeAt r.out with
    | none => r.pos % 64 == 0
    | some a =>
      let e := a + (r.pos - r.out)
      if isGlobal a then e % 4096 == 0 || (a % 64 != 0 && e % 64 == 0) else e % 64 == 0)

/-- The source address of the row of a gather that a run reads (R347). -/
def Run.row (r : Run) : Word := r.cmd.src + BitVec.ofNat 64 (r.idx.getD (r.pos / r.cmd.rsz) 0 * r.cmd.rsz)

/-- The source of the bytes that a run reads next: a row of a gather is translated as its reading begins (R347, R461), and
that of any other command was as it was enqueued. -/
def State.sourceOf (s : State) (core : Nat) (r : Run) : Ext :=
  if r.cmd.kind ≠ .gth then .ok r.cmd.srcp []
  else if r.rowp ≠ [] then .ok r.rowp r.rows
  else s.extent core false r.row extentRuns r.row.toNat r.cmd.rsz []

/-- The next source bytes of a run, up to the end of a destination line, of a source line where the command converts or
gathers, and of a row (R340, R347): their address, their offset in what is read, and their number. -/
def Run.nextBytes (r : Run) : Word × Nat × Nat :=
  let at_ := if r.conv.isSome then r.cmd.src.toNat + r.pos else (r.placeAt r.pos).getD r.pos
  let m := min (r.cmd.len - r.pos) (64 - at_ % 64)
  if r.cmd.kind = .gth then
    let o := r.pos % r.cmd.rsz
    let a := r.row + BitVec.ofNat 64 o
    (a, o, min (min m (r.cmd.rsz - o)) (64 - a.toNat % 64))
  else (r.cmd.src + BitVec.ofNat 64 r.pos, r.pos, m)

/-- The pages of a gather's row count while it is read (R461, R462). -/
def State.pinRow (s : State) (core ch : Nat) (r : Run) (l : List (Nat × Nat)) (pages : List PinRef) : State × Run :=
  if r.cmd.kind ≠ .gth || r.rowp ≠ [] then (s, r)
  else
    let r := { r with rowp := l, rows := pages }
    ((((s.touchPages core pages).pin (dieOf core) pages).setRun core ch r), r)

/-- Bytes of a run have been read; the pages of a row that ends count no longer (R461, R462). -/
def State.tookBytes (s : State) (core ch : Nat) (r : Run) (bs : List Byte) : State × Run :=
  let r := { r with pos := r.pos + bs.length, buf := r.buf ++ bs }
  if r.cmd.kind = .gth && r.pos % r.cmd.rsz == 0 then
    let q := { r with rowp := [], rows := [] }
    ((s.unpin (dieOf core) r.rows).setRun core ch q, q)
  else (s.setRun core ch r, r)

/-- The next line of a converting command that has read its source (R274, R348; log 19). -/
def State.convertRun (s : State) (core ch : Nat) (x : Chan) (r : Run) (f g : BitVec 32) : State :=
  match convertCopy f g r.cmd.frm r.cmd.sr r.cmd.number r.buf with
  | none => s.failRun core ch r cFORMAT r.cmd.src 0
  | some bs =>
    if bs.length % 4 != 0 then s.failRun core ch r cFORMAT r.cmd.src 0
    else
      let a := ((r.base x).getD 0).toNat + r.out
      s.performRun core ch x r ((bs.drop r.out).take (64 - a % 64))

/-- One line transfer of a run (R340): it writes what is due, or reads the next bytes and writes them when they
then are. -/
def State.transfer (s : State) (core ch : Nat) (x : Chan) (r : Run) : State :=
  if r.waitSlot || r.rwait != [] then s
  else if r.conv.isNone && r.due then s.performRun core ch x r r.buf
  else if r.cmd.len ≤ r.pos then
    match r.conv with
    | some (f, g) => if r.buf = [] then s else s.convertRun core ch x r f g
    | none => s
  else
    match s.sourceOf core r with
    | .wait a => s.touch core a
    | .bad cause a => (s.answered core).failRun core ch r cause a 0
    | .ok l pages =>
      if r.cmd.kind = .gth && r.rowp.isEmpty && !(s.die (dieOf core)).canPin pages then s
      else
        let (s, r) := s.pinRow core ch r l pages
        let (a, o, n) := r.nextBytes
        let places := subRuns l o n
        let q := s.engineRead core places
        match q.2 with
        | some (cause, pa) => s.failRead core ch r cause a (syndrome cause pa s.freeCtr)
        | none =>
          let s := s.enterReads core r.cmd.path (.copy ch r.cmd.seq) places
          let (s, r) := s.tookBytes core ch r q.1
          if r.conv.isNone && r.due then s.performRun core ch x r r.buf else s

/-- COPY_LINE_TRANSFER (R340). -/
def execCopyLineTransfer (core ch seq : Nat) (s : State) : Result State :=
  if Config.cores ≤ core || 8 ≤ ch then .fault .noSuchObject
  else
    match s.chan core ch with
    | none => .next s
    | some x =>
      match x.runOf seq with
      | none => .next s
      | some r => .next (s.transfer core ch x r)

/-- Every write of a command has been performed, and a write through a window is acknowledged (R334, R539). -/
def Run.finished (r : Run) : Bool :=
  r.cmd.len ≤ r.pos && r.buf.isEmpty && !r.waitSlot && r.rwait.isEmpty && (!r.cmd.wd || r.acked)

/-- Receivers' slots of a multicast are filled (R344, R346). -/
def State.fillRslots (s : State) (core ch : Nat) : List (Nat × Nat × Nat) → State
  | [] => s
  | (x, rch, _) :: l =>
    let s := match s.slotChan core ch x rch with
      | some (home, y) => s.putChan x rch { y with cbuf := y.cbuf.map (fun b => b.fill 1) } home
      | none => s
    State.fillRslots s core ch l

/-- A chain passes its comparison (R341, R344, R348): its writes count and its slots fill. -/
def State.passChain (s : State) (core ch : Nat) (x : Chan) : State :=
  let y := x.chainWrites.foldl Chan.count x
  (s.setChan core ch { y with
    chain := false, rsum := 0, chainWrites := [], chainSlots := 0, chainRslots := [],
    cbuf := y.cbuf.map (fun b => b.fill y.chainSlots) }).fillRslots core ch x.chainRslots

/-- The copy sum at a completion of mode 3, with what the command adds to the chain already in it (R348). -/
def State.lastOf (s : State) (core ch : Nat) (x : Chan) (exp : BitVec 32) (seq : Nat) (a : Word) : State :=
  if x.rsum = exp then s.passChain core ch x
  else
    (s.setChan core ch { x with rsum := 0 }).breakChan core ch cCOPY_SUM a seq 0

/-- A command completes, in SEQ order (R344, R346, R348). -/
def State.complete (s : State) (core ch : Nat) (r : Run) : State :=
  let s := s.dropRun core ch r.cmd
  match s.chan core ch with
  | none => s
  | some x =>
    let slots := if r.cmd.cb then 1 else 0
    let sum := if r.cmd.mode = 1 then r.sum else x.rsum + r.sum
    if r.cmd.mode = 0 then
      (s.setChan core ch { x with cbuf := x.cbuf.map (fun b => b.fill slots) }).fillRslots core ch r.rslots
    else if r.cmd.mode = 1 && x.chain then s.breakChan core ch cCOPY_SUM (r.start x) r.cmd.seq 0
    else if x.cause != 0 then
      s.setChan core ch { x with rsum := if r.cmd.mode = 3 then 0 else sum, chain := r.cmd.mode != 3 }
    else
      let y := { x with
        rsum := sum, chain := true,
        chainWrites := x.chainWrites ++ r.names, chainSlots := x.chainSlots + slots,
        chainRslots := x.chainRslots ++ r.rslots }
      let s := s.setChan core ch y
      if r.cmd.mode = 3 then s.lastOf core ch y r.cmd.exp r.cmd.seq (r.start x) else s

/-- A command that moves nothing completes at its begin, once the earlier ones of its channel have (R335, R348). -/
def State.settleRuns (s : State) (core ch : Nat) : Nat → State
  | 0 => s
  | k + 1 =>
    match (s.chan core ch).map Chan.runs with
    | some (r :: _) => if r.cmd.len = 0 && r.finished then (s.complete core ch r).settleRuns core ch k else s
    | _ => s
/-- The same for every begun command of a channel. -/
def State.settleEmpty (s : State) (core ch : Nat) : State :=
  s.settleRuns core ch ((s.chan core ch).elim 0 (fun x => x.runs.length))

/-- COMMAND_BEGIN (R338, R339). -/
def execCommandBegin (core ch : Nat) (s : State) : Result State :=
  if Config.cores ≤ core || 8 ≤ ch then .fault .noSuchObject
  else
    match s.chan core ch with
    | none => .next s
    | some x =>
      match x.buf with
      | [] => .next s
      | c :: rest =>
        if !(c.t.ule (s.ptime core) && decide (c.ready ≤ s.now) && decide (x.lastBegin ≤ s.now)) then .next s
        else if s.heldBack core c.path c.fence then .next s
        else
          match s.cmdGate core ch x c with
          | .blocked => .next s
          | g =>
            let y := { x.addSlip (s.slipOf core c) with buf := rest, blocked := none, lastBegin := s.now + 1 }
            .next ((((s.setChan core ch y).progressed core).startRun core ch c (g == .weir)).settleEmpty core ch)

/-- A SUMCHK that waits at its place in the channel comes before a later command's completion (R348, R361). -/
def Chan.sumDue (x : Chan) (seq : Nat) : Bool := x.tbl.inStep && x.tbl.row != 0 && decide (x.tbl.row < seq)

/-- COMMAND_COMPLETE (R348): the oldest begun command of a channel, once it has finished. -/
def execCommandComplete (core ch seq : Nat) (s : State) : Result State :=
  if Config.cores ≤ core || 8 ≤ ch then .fault .noSuchObject
  else
    match s.chan core ch with
    | none => .next s
    | some x =>
      match x.runs with
      | [] => .next s
      | r :: _ =>
        if r.cmd.seq = seq && r.finished && !x.sumDue seq then .next ((s.complete core ch r).settleEmpty core ch)
        else .next s

/-- Begun commands of a channel run to completion at once, as far as they can (R351, R358; log 20). -/
def State.finishRuns (s : State) (core ch : Nat) : Nat → State
  | 0 => s
  | k + 1 =>
    match s.chan core ch with
    | none => s
    | some x =>
      match x.runs with
      | [] => s
      | r :: _ =>
        let done := if r.sent then s.ackRun core ch x r else s
        match (done.chan core ch).bind (fun y => y.runOf r.cmd.seq) with
        | none => State.finishRuns done core ch k
        | some q =>
          if q.finished then State.finishRuns (done.complete core ch q) core ch k
          else State.finishRuns (done.transfer core ch x q) core ch k

/-- Operations of a channel's copies through windows whose commands are gone from it: their acknowledgements concern the
handle alone. -/
def State.detachCopies (s : State) (core ch : Nat) : State :=
  let gone := fun (o : Sent) => match o.chan with
    | some k => k.1 == core && k.2.1 == ch && ((s.chan core ch).bind (fun x => x.runOf k.2.2)).isNone
    | none => false
  let cut := fun (o : Sent) => if gone o then { o with chan := none } else o
  { s with wins := s.wins.map (fun w => (w.1, { w.2 with outs := w.2.outs.map cut })) }

/-- Steps that the begun commands of a channel need at most. -/
def Chan.work (x : Chan) : Nat := (x.runs.map (fun r => r.cmd.len + 2)).sum

/-- A channel acts as CHCLOSE.DISCARD at a kill (R351): a begun command that cannot go on ends there, and its pages are
pinned no longer (R462). -/
def State.killChan (s : State) (core ch : Nat) : State :=
  let s := s.dropUnbegun core ch
  match s.chan core ch with
  | none => s
  | some x =>
    let s := s.finishRuns core ch x.work
    let left := (s.chan core ch).elim [] (fun y => y.runs.flatMap (fun r => r.cmd.pins ++ r.rows))
    ((s.unpin (dieOf core) left).closeChan core ch).detachCopies core ch

/-- All channels of a strand close (R351). -/
def State.killChans (s : State) (core : Nat) : State :=
  (List.range 8).foldl (fun s ch => s.killChan core ch) s

/-- MULTICAST_CREDIT (R346): a freed slot of a receiver reaches the sender's counter. -/
def execMulticastCredit (core ch receiver : Nat) (s : State) : Result State :=
  if Config.cores ≤ core || 8 ≤ ch || Config.cores ≤ receiver then .fault .noSuchObject
  else
    match s.chan core ch with
    | none => .next s
    | some x =>
      if !x.credits.contains receiver then .next s
      else
        let x := { x with credits := x.credits.erase receiver, cnt := mset x.cnt receiver (mget x.cnt receiver 0 + 1) }
        let s := s.setChan core ch x
        match x.runs.find? (fun r => r.rwait.contains receiver) with
        | none => .next s
        | some r =>
          let (s, q) := s.takeRslot core ch r receiver
          .next (s.setRun core ch (s.mcConv q))

/-- The status word of CHSUM.STAT (R357). -/
def Chan.status (x : Chan) : Nat :=
  (match x.st with
    | .broken => 2
    | .closing => 3
    | _ => 1) * 2 ^ 60 + x.buf.length % 2 ^ 10 * 2 ^ 48 + min 8 x.queue.length * 2 ^ 44 +
    x.cbuf.isSome.toNat * 2 ^ 40 + x.cause.toNat * 2 ^ 32 +
    (match x.cbuf with
      | some b => (match b.consumer 0 with
          | some c => c.fill * 2 ^ 16
          | none => 0) + b.free
      | none => 0)

/-- What a CHSUM delivers, and the channel after it (R357). -/
def Chan.chsum (x : Chan) (q : Nat) (a : Word) : Word × Chan :=
  match q with
  | 1 => (x.rsum.setWidth 64, { x with exp := a.setWidth 32 })
  | 2 => (x.rsum.setWidth 64, { x with rsum := 0 })
  | 3 => (BitVec.ofNat 64 x.status, x)
  | 4 => (BitVec.ofNat 64 x.slip, x)
  | 5 => (BitVec.ofNat 64 (x.low % 2 ^ 32 * 2 ^ 32 + x.seq % 2 ^ 32), x)
  | _ => (x.rsum.setWidth 64, x)

/-- Supplies the producer of a CHWM or CHSUM. -/
def State.supplyChan (s : State) (core id : Nat) (v : Word) : State :=
  s.setStrand core ((s.strand core).supply id (.word v) [])

/-- A buffer is configured (R343); a receiver's counter at its sender becomes its COUNT (R346). -/
def State.configure (s : State) (core ch : Nat) (x : Chan) (base cfg : Word) : State :=
  let b := cbufOf base cfg
  let s := s.setChan core ch { x with cbuf := b }
  match x.rx with
  | none => s
  | some (c, h) =>
    match s.findChan c h with
    | none => s
    | some (home, y) =>
      let cnt := match b with
        | some b => mset y.cnt core b.count
        | none => mdel y.cnt core
      s.putChan c h { y with cnt := cnt } home

/-- The head of a channel's queue applies, where it is no copy and no table command (R343, R352, R355, R357). -/
def State.applyQueue (s : State) (core ch : Nat) : State :=
  match s.chan core ch with
  | none => s
  | some x =>
    match x.queue with
    | .chwm id :: rest => (s.setChan core ch { x with queue := rest }.settleWeir).supplyChan core id x.wm
    | .chsum q a id :: rest =>
      let r := ({ x with queue := rest }.settleWeir).chsum q a
      (s.setChan core ch r.2).supplyChan core id r.1
    | .cbcfg base cfg :: rest => s.configure core ch { x with queue := rest }.settleWeir base cfg
    | _ => s

/-- CHANNEL_QUEUE_APPLY (R343, R352, R355, R357). -/
def execChannelQueueApply (core ch : Nat) (s : State) : Result State :=
  if Config.cores ≤ core || 8 ≤ ch then .fault .noSuchObject else .next (s.applyQueue core ch)

end Sys2Proof.Machine
end

