-- ==== Sys2Proof/Machine/Table.lean ====
section
/-! DEFINITION. Micro-order tables as their strand meets them (R219 to R224, R249 to R256): images and TLOAD,
the command queue, starting, stopping, checkpoints, and the instructions FORK and RDV (R130, R131). A table is
named by its handle: 0 to 3 for f0 to f3, 8 to 15 for ch0 to ch7. -/

namespace Sys2Proof.Machine

/-- The table of a handle. -/
def State.tbl (s : State) (core h : Nat) : Option Tbl :=
  if h < 4 then (mfind (s.strand core).frag h).map Frag.tbl else (s.chan core (h - 8)).map Chan.tbl
/-- Replaces the table of a handle. -/
def State.setTbl (s : State) (core h : Nat) (t : Tbl) : State :=
  if h < 4 then
    match mfind (s.strand core).frag h with
    | some f => s.setStrand core { s.strand core with frag := mset (s.strand core).frag h { f with tbl := t } }
    | none => s
  else
    match s.chan core (h - 8) with
    | some x => s.setChan core (h - 8) { x with tbl := t }
    | none => s

/-- The configuration registers of a kind of table (R223, R360). -/
def configIndex (copy : Bool) (i : Nat) : Bool :=
  decide (i < 6) || (decide (8 ≤ i) && decide (i < 12)) || (decide (0x10 ≤ i) && decide (i < 0x28)) ||
    (if copy then (decide (0x40 ≤ i) && decide (i < 0x44)) || (decide (0x48 ≤ i) && decide (i < 0x4E))
     else decide (0x30 ≤ i) && decide (i < 0x3C))
/-- The bits of a configuration register (R223, R360). -/
def configBits (i : Nat) : Nat :=
  if i < 6 then 17 else if (0x30 ≤ i ∧ i < 0x34) ∨ i = 0x40 ∨ i = 0x41 then 32 else 64
/-- A value that TNEST refuses for an index (R251). -/
def configBad (copy : Bool) (i : Nat) (v : Word) : Bool :=
  !configIndex copy i || (decide (i < 6) && (v == 0 || decide (65536 < v.toNat))) ||
    (!copy && i == 0x3A && v.toNat / 2 ^ 16 != 0)

/-- Pushes and pops of a fragment's links (R242): of its outgoing link, and of its incoming one. -/
def Strand.linkCounts (t : Strand) (h : Nat) : Nat × Nat :=
  ((match (mfind t.frag h).bind Frag.link with
    | some l => l.pushed
    | none => 0),
   (match t.frag.findSome? (fun f => match f.2.link with
      | some l => if l.dst = h then some l.popped else none
      | none => none) with
    | some n => n
    | none => 0))

/-- Live bases of a table. -/
def Tbl.bases (t : Tbl) : List Word := (List.range 4).map (fun g => mget t.lv (8 + g) 0)
/-- Replaces the live bases. -/
def Tbl.setBases (t : Tbl) (l : List Word) : Tbl :=
  { t with lv := (List.range 4).foldl (fun m g => mset m (8 + g) (l.getD g 0)) t.lv }

/-- Slots of a channel that a table's CBFREEs have marked (R241). -/
def Tbl.marked (t : Tbl) (ch : Nat) : Nat := ((t.frees.filter (fun x => x.1 == ch)).map (·.2)).sum
/-- Takes released slots from a table's claims. -/
def freeClaim (ch n : Nat) (l : List Claim) : List Claim :=
  (l.map (fun c => if c.ch = ch then { c with claimed := c.claimed - n } else c)).filter (fun c => c.claimed != 0)
/-- The deferred releases of a table (R241, R243): each is one effect, performed unless it was before. -/
def State.releaseClaims (s : State) (core h : Nat) (t : Tbl) : State × Tbl :=
  t.frees.foldl (fun (r : State × Tbl) x =>
    let e := (r.2.eseq + 1) % 2 ^ 48
    let t : Tbl := { r.2 with claims := freeClaim x.1 x.2 r.2.claims, eseq := e }
    if t.ehw < e then (r.1.releaseSlots core x.1 (1 + h) x.2, { t with ehw := e }) else (r.1, t))
    (s, { t with frees := [] })

/-- Records a checkpoint (R242, R246): releases and re-bases come first. -/
def State.checkpoint (s : State) (core h : Nat) (t : Tbl) : State × Tbl :=
  let (s, t) := s.releaseClaims core h t
  let t := { t with
    lv := t.rebase.foldl (fun m (b : Nat × Word) => mset m (8 + b.1) b.2) t.lv, rebase := [], since := 0,
    poison := t.poison.filter (fun p => decide (t.eseq ≤ p.eseq)) }
  let n := (s.strand core).linkCounts h
  (s, { t with ck := ⟨t.upc, t.idx, t.bases, t.epi, t.eseq, t.claims, n.1, n.2⟩ })

/-- Starts a table (R224): from Loaded or Halted at word 0 with a first checkpoint, from Stopped where it
stood. -/
def State.startTbl (s : State) (core h : Nat) (t : Tbl) (frm : BitVec 3) (sr : Word) (fence : Nat) : State :=
  let u := { t with st := .running, lv := t.sh, frm := frm, sr := sr, started := true, fence := fence, rebase := [],
                    markStop := false, stopDue := false, blocked := none }
  if t.st = .stopped then s.setTbl core h u
  else
    let (s, u) := s.checkpoint core h
      { u with upc := 0, idx := [0, 0, 0, 0, 0, 0], eseq := 0, ehw := 0, epi := Epi.start, inStep := false,
               row := 0, pops := [], taken := [] }
    s.setTbl core h u

/-- One command of a table applies (R249 to R255). -/
def State.applyTCmd (s : State) (core h : Nat) (t : Tbl) : TCmd → State
  | .nest i v => s.setTbl core h { t with sh := mset t.sh i v }
  | .base g v now =>
    let t := { t with sh := mset t.sh (8 + g) v }
    s.setTbl core h (if !now then t
      else if t.st = .running then { t with rebase := t.rebase.filter (fun b => b.1 != g) ++ [(g, v)] }
      else { t with lv := mset t.lv (8 + g) v })
  | .restart l => s.setTbl core h { t with restart := l, rv := true }
  | .go frm sr fence =>
    if t.st = .loaded || t.st = .stopped || t.st = .halted then s.startTbl core h t frm sr fence else s
  | .stop mark =>
    if t.st ≠ .running then s
    else if mark then s.setTbl core h { t with markStop := true }
    else if t.inStep then s.setTbl core h { t with stopDue := true }
    else s.setTbl core h { t with st := .stopped, markStop := false, blocked := none }

/-- Takes the first table command from the head of a handle's queue; none where another entry is first. -/
def State.takeTCmd (s : State) (core h : Nat) : Option (State × TCmd) :=
  if h < 4 then
    match s.tbl core h with
    | some t =>
      match t.cmdq with
      | c :: rest =>
        some (s.setTbl core h { t with cmdq := rest, weir := t.weir && decide (8 < rest.length) }, c)
      | [] => none
    | none => none
  else
    match s.chan core (h - 8) with
    | some x =>
      match x.queue with
      | .tbl c :: rest => some (s.setChan core (h - 8) { x with queue := rest }.settleWeir, c)
      | _ => none
    | none => none

/-- The first command of a table's queue applies (R249). -/
def State.applyFirst (s : State) (core h : Nat) : State :=
  match s.takeTCmd core h with
  | none => s
  | some (s, c) =>
    match s.tbl core h with
    | some t => s.applyTCmd core h t c
    | none => s

/-- A table handle. -/
def isHandle (h : Nat) : Bool := decide (h < 4) || (decide (8 ≤ h) && decide (h < 16))

/-- TABLE_COMMAND_APPLY (R249). -/
def execTableCommandApply (core handle : Nat) (s : State) : Result State :=
  if Config.cores ≤ core || !isHandle handle then .fault .noSuchObject else .next (s.applyFirst core handle)

/-- Room in the queue that a table's commands enter (R113, R249). -/
def State.tblRoom (s : State) (h : Nat) : Bool :=
  if h < 4 then
    match s.tbl s.cur h with
    | some t => decide (t.cmdq.length < 8) || (t.weir && t.cmdq.length == 8)
    | none => true
  else (s.chan s.cur (h - 8)).elim true (Chan.room · false)

/-- A table command enters its queue, or the strand waits for room (R249). -/
def State.pushTbl (s : State) (h : Nat) (c : TCmd) : Result State :=
  if !s.tblRoom h then .next (s.stall (if h < 4 then .tableQueue h else .chanQueue (h - 8)))
  else if h < 4 then
    match s.tbl s.cur h with
    | some t =>
      let s := s.setTbl s.cur h { t with cmdq := t.cmdq ++ [c] }
      s.endWith s.me
    | none => s.trap cFRAG_STATE 0
  else
    let s := s.pushQ s.cur (h - 8) (.tbl c)
    s.endWith s.me

/-- A table instruction on a handle that binds a table; others raise FRAG_STATE (R249). -/
def State.withTbl (s : State) (h : Nat) (k : Tbl → Result State) : Result State :=
  match s.tbl s.cur h with
  | some t => k t
  | none => s.trap cFRAG_STATE 0

/-- tnest (R251). -/
def execTnest (o : OpE) (s : State) : Result State :=
  s.src2 o.a o.ea o.b o.eb fun a v =>
    let h := o.h.toNat
    let i := a.toNat % 256
    s.withTbl h fun _ =>
      if configBad (decide (4 ≤ h)) i v then s.trap cFRAG_STATE 0
      else s.pushTbl h (.nest i (BitVec.ofNat 64 (v.toNat % 2 ^ configBits i)))

/-- TBASE with or without .now (R252). -/
def tbase (now : Bool) (o : OpE) (s : State) : Result State :=
  s.src2 o.a o.ea o.b o.eb fun a v =>
    s.withTbl o.h.toNat fun _ => s.pushTbl o.h.toNat (.base (a.toNat % 4) v now)
/-- tbase (R252). -/
def execTbase (o : OpE) (s : State) : Result State := tbase false o s
/-- tbase.now (R252). -/
def execTbaseNow (o : OpE) (s : State) : Result State := tbase true o s

/-- Whether word i of a table is the literal of a PROOF (R222). -/
def literalAt (words : List IWord) (i : Nat) : Bool :=
  ((List.range words.length).foldl (fun (r : Bool × Bool) j =>
    let w := words.getD j 0
    let lit := r.1
    (!lit && w.extractLsb' 26 6 == 0x09, r.2 || (j == i && lit))) (false, false)).2

/-- Whether word i of a matrix table is a TSTART. -/
def tstartAt (words : List IWord) (i : Nat) : Bool :=
  decide (i < words.length) && (words.getD i 0).extractLsb' 26 6 == 0x08 && !literalAt words i

/-- trestart (R253). -/
def execTrestart (o : OpE) (s : State) : Result State :=
  s.src1 o.a o.ea fun a =>
    s.withTbl o.h.toNat fun t =>
      let i := a.toNat % 256
      if 4 ≤ o.h.toNat || t.st = .unloaded || !tstartAt t.words i then s.trap cFRAG_STATE 0
      else s.pushTbl o.h.toNat (.restart i)

/-- A TGO waits in the queue of a table's handle (R254). -/
def State.goQueued (s : State) (core h : Nat) : Bool :=
  if h < 4 then (s.tbl core h).elim false (fun t => t.cmdq.any (fun c => match c with
    | .go _ _ _ => true
    | _ => false))
  else (s.chan core (h - 8)).elim false (fun x => x.queue.any (fun q => match q with
    | .tbl (.go _ _ _) => true
    | _ => false))

/-- Why FORK or TGO may not start the table of a handle (R130, R207, R220, R254). -/
def State.startCheck (s : State) (core h : Nat) : Option Cause :=
  let state (t : Tbl) : Option Cause :=
    if t.busy || t.st = .unloaded || t.st = .faulted || t.st = .running then some cFRAG_STATE else none
  if h < 4 then
    match mfind (s.strand core).frag h with
    | none => some cFRAG_STATE
    | some f => if f.suspect then some cFRAG_STATE else state f.tbl
  else
    match s.chan core (h - 8) with
    | none => some cFRAG_STATE
    | some x =>
      if x.st = .broken then some cCHANNEL_BROKEN
      else if x.st ≠ .open || s.goQueued core h then some cFRAG_STATE
      else state x.tbl

/-- tgo (R254). -/
def execTgo (o : OpE) (s : State) : Result State :=
  match s.startCheck s.cur o.h.toNat with
  | some c => s.trap c 0
  | none => s.pushTbl o.h.toNat (.go s.me.frm s.me.srstate s.nextId)

/-- TSTOP with or without .mark (R255). -/
def tstop (mark : Bool) (o : OpE) (s : State) : Result State :=
  s.withTbl o.h.toNat fun _ => s.pushTbl o.h.toNat (.stop mark)
/-- tstop (R255). -/
def execTstop (o : OpE) (s : State) : Result State := tstop false o s
/-- tstop.mark (R255). -/
def execTstopMark (o : OpE) (s : State) : Result State := tstop true o s

/-- STATE of TSTAT (R256). -/
def Tbl.stateCode (t : Tbl) : Nat :=
  match t.st with
  | .unloaded => 0
  | .loaded => 1
  | .running => 2
  | .stopped => 3
  | .halted => 4
  | .faulted => 5
  | .parked => 2

/-- Fragment flags of a handle (R256). -/
def State.tblFlags (s : State) (core h : Nat) : Nat :=
  if h < 4 then
    match mfind (s.strand core).frag h with
    | some f => 4 * f.nv.toNat + 2 * f.ovf.toNat + f.iov.toNat
    | none => 0
  else 0

/-- The value that TSTAT delivers (R256). FLAGS holds NV in bit 43, OF in bit 42 and IOV in bit 41 (log 21). -/
def State.tstat (s : State) (core h q : Nat) (t : Tbl) : Nat :=
  match q with
  | 1 => (t.idx.getD 0 0) + (t.idx.getD 1 0) * 2 ^ 16 + (t.idx.getD 2 0) * 2 ^ 32 + (t.idx.getD 3 0) * 2 ^ 48
  | 2 => (t.idx.getD 4 0) + (t.idx.getD 5 0) * 2 ^ 16
  | 3 => t.eseq
  | 4 => t.ehw
  | _ =>
    t.restart * 2 ^ 48 + t.rv.toNat * 2 ^ 47 + s.tblFlags core h * 2 ^ 41 + (decide (4 ≤ h)).toNat * 2 ^ 40 +
      t.cause.toNat * 2 ^ 32 + t.ck.upc % 256 * 2 ^ 24 + t.stateCode * 2 ^ 16 + t.upc % 256 * 2 ^ 8 +
      (t.words.length - 1)

/-- TSTAT with a value of q (R256). -/
def tstat (q : Nat) (o : OpE) (s : State) : Result State :=
  s.withTbl o.h.toNat fun t =>
    s.produce o.b (.word (BitVec.ofNat 64 (s.tstat s.cur o.h.toNat q t)))
/-- tstat (R256). -/
def execTstat (o : OpE) (s : State) : Result State := tstat 0 o s
/-- tstat.idx0 (R256). -/
def execTstatIdx0 (o : OpE) (s : State) : Result State := tstat 1 o s
/-- tstat.idx4 (R256). -/
def execTstatIdx4 (o : OpE) (s : State) : Result State := tstat 2 o s
/-- tstat.eseq (R256). -/
def execTstatEseq (o : OpE) (s : State) : Result State := tstat 3 o s
/-- tstat.ehw (R256). -/
def execTstatEhw (o : OpE) (s : State) : Result State := tstat 4 o s

/-- Clears the fragment flags of a handle (R256). -/
def State.clearTblFlags (s : State) (core h : Nat) : State :=
  match mfind (s.strand core).frag h with
  | some f =>
    if h < 4 then
      s.setStrand core { s.strand core with
        frag := mset (s.strand core).frag h { f with nv := false, ovf := false, iov := false } }
    else s
  | none => s

/-- tstat.clr (R256). -/
def execTstatClr (o : OpE) (s : State) : Result State :=
  s.withTbl o.h.toNat fun t =>
    let v := BitVec.ofNat 64 (s.tstat s.cur o.h.toNat 8 t)
    s.dest o.b ((s.clearTblFlags s.cur o.h.toNat).produce o.b (.word v))

/-- A table image (R221). -/
structure Image0 where
  len : Nat
  copy : Bool
  rv : Bool
  restart : Nat
  counts : List Nat
  words : List IWord
  deriving DecidableEq, Repr

/-- The 32-bit words of some bytes. -/
def wordsOf (bs : List Byte) : List IWord := (runsOf 4 (bs.length + 1) bs).map (fun b => BitVec.ofNat 32 (codeOf b))

/-- Reads an image; nothing where its header, counts or length break R222. -/
def readImage (bs : List Byte) : Option Image0 :=
  let ws := wordsOf bs
  let h := (ws.getD 0 0).toNat
  let len := h % 512
  let counts := (List.range 6).map (fun l => (ws.getD (1 + l) 0).toNat)
  if bs.length % 4 != 0 || len = 0 || 256 < len || h / 2 ^ 19 != 0 || counts.any (fun c => decide (2 ^ 16 ≤ c)) ||
      ws.getD 7 0 != 0 || bs.length != 32 + 4 * len then none
  else
    some { len := len, copy := h / 2 ^ 9 % 2 == 1, rv := h / 2 ^ 10 % 2 == 1, restart := h / 2 ^ 11 % 256,
           counts := counts.map (· + 1), words := ws.drop 8 }

/-- One word of an image passes R96 and the target and place checks of R222. -/
noncomputable def wordOk (copy : Bool) (words : List IWord) (i : Nat) : Bool :=
  let w := words.getD i 0
  if literalAt words i then true
  else
    (match decodeOrder copy w (words.getD (i + 1) 0) with
      | .ok _ => true
      | .error _ => false) &&
    (match (w.extractLsb' 26 6).toNat with
      | 0x0E =>
        let t := (w.extractLsb' 15 8).toNat
        decide (t < words.length) && !literalAt words t
      | 0x0F =>
        let t := (w.extractLsb' 18 8).toNat
        decide (t < words.length) && !literalAt words t
      | 0x09 => decide (i + 1 < words.length)
      | _ => true)

/-- An image that the table of a kind accepts (R96, R222). -/
noncomputable def imageOk (copy : Bool) (g : Image0) : Bool :=
  g.copy == copy && (!g.rv || (!copy && tstartAt g.words g.restart)) &&
    (List.range g.words.length).all (wordOk copy g.words)

/-- A table that a TLOAD loads (R250). -/
def Tbl.load (t : Tbl) (keep : Bool) (g : Image0) : Tbl :=
  { t with
    st := .loaded, words := g.words, rv := g.rv, restart := g.restart, upc := 0, idx := [0, 0, 0, 0, 0, 0],
    cause := 0, caddr := 0, poison := [], started := false, rewinding := false, inStep := false, row := 0,
    pops := [], taken := [], stopDue := false, markStop := false, blocked := none,
    sh := if keep then t.sh else (List.range 6).foldl (fun m l => mset m l (BitVec.ofNat 64 (g.counts.getD l 1))) t.sh }

/-- The queue of a table holds nothing (R250). -/
def State.tblDrained (s : State) (core h : Nat) : Bool :=
  if h < 4 then (s.tbl core h).elim true (fun t => t.cmdq.isEmpty)
  else (s.chan core (h - 8)).elim true (fun x => x.queue.isEmpty)

/-- TLOAD with or without .keep (R250, R461). -/
noncomputable def tload (keep : Bool) (w : IWord) (o : OpE) (s : State) : Result State :=
  s.src2 o.a o.ea o.b o.eb fun a n =>
    let h := o.h.toNat
    s.withTbl h fun t =>
      if !s.tblDrained s.cur h then .next (s.stall (.until (.tableDrained h)))
      else if t.busy then s.trap cFRAG_STATE 0
      else if a.toNat % 32 != 0 then s.trap cMISALIGN a
      else
        s.resolved (s.extent s.cur false a extentRuns a.toNat n.toNat []) fun s l pages =>
          if !(s.die (dieOf s.cur)).canPin pages then .next (s.stall .pins)
          else
            let r := s.readPieces s.cur (fun _ => true) 0 l
            match r.err with
            | some (c, i) => r.s.trap c (a + BitVec.ofNat 64 i)
            | none =>
              match readImage r.bytes with
              | none => r.s.trap cUNDEF (w.setWidth 64)
              | some g =>
                if imageOk (decide (4 ≤ h)) g then
                  let s := (r.s.liftAll s.cur r.keys).setTbl s.cur h (t.load keep g)
                  s.endWith s.me
                else r.s.trap cUNDEF (w.setWidth 64)

/-- tload (R250). -/
noncomputable def execTload (o : OpE) (s : State) : Result State := tload false (encE 0x29 o 0 0) o s
/-- tload.keep (R250). -/
noncomputable def execTloadKeep (o : OpE) (s : State) : Result State := tload true (encE 0x29 o 0 1) o s

/-- The handles that a mask of FORK or RDV names, in ascending bit order (R130). -/
def maskHandles (m : Nat) : List Nat :=
  ((List.range 12).filter (fun i => m.testBit i)).map (fun i => if i < 4 then i else i + 4)

/-- Table commands at the head of a handle's queue apply before a FORK that names it, as those issued before
it do in time (R130, R249; log 22). -/
def State.applyLeading (s : State) (core h : Nat) : Nat → State
  | 0 => s
  | n + 1 =>
    match s.takeTCmd core h with
    | none => s
    | some _ => (s.applyFirst core h).applyLeading core h n

/-- Starts the tables of some handles (R130). -/
def State.startAll (s : State) (core : Nat) : List Nat → State
  | [] => s
  | h :: hs =>
    let s := match s.tbl core h with
      | some t => s.startTbl core h t (s.strand core).frm (s.strand core).srstate s.nextId
      | none => s
    State.startAll s core hs

/-- fork (R130). -/
def execFork (o : OpE) (s : State) : Result State :=
  s.src1 o.h false fun m =>
    let hs := maskHandles m.toNat
    let s := hs.foldl (fun s h => s.applyLeading s.cur h 9) s
    match hs.findSome? (s.startCheck s.cur) with
    | some c => s.trap c 0
    | none =>
      let s := s.startAll s.cur hs
      s.endWith s.me

/-- A named table is out of the running state, and what its copy orders wrote has been performed (R131). -/
def State.tblOut (s : State) (core h : Nat) : Bool :=
  match s.tbl core h with
  | none => true
  | some t =>
    !t.busy && !s.goQueued core h && (decide (h < 4) || (match s.chan core (h - 8) with
      | none => true
      | some x => x.st = .broken || !x.unfinished.any Cmd.order))

/-- The fault that RDV reports for a named table or channel (R131). -/
def State.tblFault (s : State) (core h : Nat) : Option (Cause × Word) :=
  if h < 4 then
    match s.tbl core h with
    | some t => if t.st = .faulted then some (t.cause, t.tval) else none
    | none => none
  else
    match s.chan core (h - 8) with
    | some x => if x.st = .broken then some (x.waitCause, 0) else none
    | none => none

/-- RDV on some handles, then go on (R131): used by RDV and HALT. The window writes of the named tables that still
wait are performed as it completes. -/
def State.join (s : State) (hs : List Nat) (k : State → Result State) : Result State :=
  if hs.any (fun h => (s.tbl s.cur h).isNone) then s.trap cFRAG_STATE 0
  else if !hs.all (s.tblOut s.cur) then
    .next (s.stall (.until (.tablesOut (BitVec.ofNat 12
      ((hs.map (fun h => if h < 4 then 2 ^ h else 2 ^ (h - 4))).sum)))))
  else
    let s := hs.foldl (fun s h => s.performTable s.cur h) s
    match hs.find? (fun h => (s.tblFault s.cur h).isSome) with
    | some h =>
      match s.tblFault s.cur h with
      | some (c, tv) => s.trapHandle c (BitVec.ofNat 4 (handleCode h)) tv
      | none => k s
    | none => k s

/-- rdv (R131). -/
def execRdv (o : OpE) (s : State) : Result State :=
  s.src1 o.h false fun m => s.join (maskHandles m.toNat) fun s => s.endWith s.me

end Sys2Proof.Machine
end

