-- ==== Sys2Proof/Machine/Array.lean ====
section
/-! DEFINITION. The array (R45 to R49, R226 to R240): windows, operands, the sum of a cell column, weight
cells, the epilogue, and the proof pattern. -/

namespace Sys2Proof.Machine

/-- hk and wk of a shape (R228). -/
def shapeTiles (c : BitVec 5) : Nat × Nat :=
  match c.toNat % 8 with
  | 0 => (1, 1)
  | 1 => (1, 16)
  | 2 => (2, 16)
  | 3 => (4, 4)
  | 4 => (4, 16)
  | 5 => (8, 8)
  | 6 => (8, 16)
  | _ => (16, 16)
/-- M of a shape (R228). -/
def shapeM (c : BitVec 5) : Nat :=
  match c.toNat / 8 with
  | 0 => 4
  | 1 => 16
  | 2 => 64
  | _ => 128

/-- An element as the array sees it: its value, zero for an escaped one, its integer, and the true value of an
escaped one (R45, R47, R48). -/
structure El where
  v : Val
  i : Int
  out : Option Val
  deriving DecidableEq, Repr

/-- A zero element. -/
def El.zero : El := ⟨.fin false 0 1, 0, none⟩
/-- The element that a code of a type other than FP4 stands for. -/
def El.ofCode (ty code : Nat) : El :=
  if etInt ty then ⟨.fin false 0 1, etIntVal ty code, none⟩ else ⟨etVal ty code, 0, none⟩
/-- Element j of a segment (R29). -/
def El.ofSeg (seg : List Byte) (j : Nat) : El :=
  if segScale seg j != 0 && segCode seg j == 8 then ⟨.fin false 0 1, 0, some (segVal seg j)⟩
  else ⟨segVal seg j, 0, none⟩
/-- The true value of an element. -/
def El.true_ (e : El) : Val := e.out.getD e.v

/-- The product of two elements, negated under mode 2 (R46, R235). -/
def prodEl (neg : Bool) (a b : Val) : Val × Flags :=
  let p := mulVal a b
  (if neg then p.1.flip else p.1, p.2)

/-- Flags of the array: float flags and IOV. -/
structure ArrFlags where
  f : Flags
  iov : Bool
  deriving DecidableEq, Repr

/-- Both. -/
def ArrFlags.or (a b : ArrFlags) : ArrFlags := ⟨a.f ||| b.f, a.iov || b.iov⟩

/-- cell_sum of R45 and R48 for one row of A and one column of B: the cells in ascending row, each with two
roundings, or with wrapped integer sums. -/
def cellSum (isInt neg : Bool) (kc : Nat) : Nat → Nat → List El → List El → Nat × ArrFlags
  | 0, ps, _, _ => (ps, ⟨0, false⟩)
  | rows + 1, ps, a, b =>
    let xs := (a.take kc).zip (b.take kc)
    let r : Nat × ArrFlags :=
      if isInt then
        let d := (xs.map (fun x => x.1.i * x.2.i)).sum
        let v := sextI ps 32 + (if neg then -d else d)
        (wrapI v 32, ⟨0, (clampI true 32 v).2 != 0⟩)
      else
        let q := sumStep ps (exactSum (xs.map (fun x => prodEl neg x.1.v x.2.v)))
        (q.1, ⟨q.2, false⟩)
    let q := cellSum isInt neg kc rows r.1 (a.drop kc) (b.drop kc)
    (q.1, r.2.or q.2)

/-- The outliers of one row and column, in ascending k, each with one fused rounding (R47). -/
def addOutliers (neg : Bool) : Nat → List (El × El) → Nat × Flags
  | ps, [] => (ps, 0)
  | ps, (x, y) :: l =>
    if x.out.isSome || y.out.isSome then
      let p := prodEl neg x.true_ y.true_
      let s := addVal 0 (v32 ps) p.1
      let r := rne32 s.1
      let q := addOutliers neg r.1 l
      (q.1, p.2 ||| s.2 ||| r.2 ||| q.2)
    else addOutliers neg ps l

/-- One element of an MMA's result (R45 to R48). -/
def mmaElem (ty rows : Nat) (neg : Bool) (seed : Nat) (a b : List El) : Nat × ArrFlags :=
  let r := cellSum (etInt ty) neg (etKc ty) rows seed a b
  if ty = 0 then
    let q := addOutliers neg r.1 (a.zip b)
    (q.1, ⟨r.2.f ||| q.2, r.2.iov⟩)
  else r

/-- A shared-scratchpad address (R259). -/
def isShared (a : Nat) : Bool :=
  decide (0xFF20000000000000 ≤ a) && decide (a < 0xFF20000000000000 + Config.sharedBytes)

/-- A byte of the shared scratchpad lies in a fragment's window (R193, R262). -/
def Frag.holdsByte (f : Frag) (o : Nat) : Bool :=
  let g := o / 2 ^ 20
  let q := o / 2 ^ 18 % 4
  let row := 2 * (g / 6 / 8) + q / 2
  let col := 2 * (g / 6 % 8) + q % 2
  g % 6 == f.die && decide (f.row0 ≤ row) && decide (row < f.row0 + f.h) && decide (f.col0 ≤ col) &&
    decide (col < f.col0 + f.w)

/-- n bytes from an address lie in a fragment's window (R193, R223). -/
def Frag.inWindow (f : Frag) (a n : Nat) : Bool :=
  n == 0 || (isShared a && isShared (a + n - 1) &&
    (let o := a - 0xFF20000000000000
     f.holdsByte o && f.holdsByte (o + n - 1) &&
      (List.range ((o + n - 1) / 2 ^ 18 - o / 2 ^ 18)).all fun i => f.holdsByte ((o / 2 ^ 18 + i + 1) * 2 ^ 18)))

/-- The place of a shared-scratchpad address. -/
def sharedPa (a : Nat) : Nat := sharedAddr (a - 0xFF20000000000000)

/-- The lines of a run of bytes. -/
def linesOf (pa n : Nat) : List Nat := if n = 0 then [] else (List.range ((pa + n - 1) / 64 - pa / 64 + 1)).map (· + pa / 64)

/-- A run of window bytes that a step reads or writes: its address, its length, and the element type that its
banks must hold (R273). -/
structure Span where
  a : Nat
  n : Nat
  ty : Nat
  deriving DecidableEq, Repr

/-- A bank whose format lets a step of a type pass (R273). -/
def formatPasses (f : BitVec 32) (ty : Nat) : Bool := fmtType f == 15 || fmtType f == ty

/-- The banks of a run of shared-scratchpad bytes. -/
def banksOf (a n : Nat) : List Nat :=
  if n = 0 then []
  else
    let o := a - 0xFF20000000000000
    (List.range ((o + n - 1) / 2 ^ 20 - o / 2 ^ 20 + 1)).map (· + o / 2 ^ 20)

/-- What the checks of a step's window runs find. -/
inductive StepCheck where
  | ok
  | fail (cause : Cause) (a : Word)
  | wait
  deriving DecidableEq, Repr

/-- The checks of a step's runs, each kind over all runs before the next (R118, R223, R248, R273, R342). -/
def State.checkSpans (s : State) (core : Nat) (f : Frag) (l : List Span) : StepCheck :=
  let t := s.strand core
  match l.find? (fun x => !f.inWindow x.a x.n) with
  | some x => .fail cPROTECT (BitVec.ofNat 64 x.a)
  | none =>
    match l.find? (fun x => (banksOf x.a x.n).any (fun b => !formatPasses (s.format (.inr b)) x.ty)) with
    | some x => .fail cFORMAT (BitVec.ofNat 64 x.a)
    | none =>
      match l.findSome? (fun x => t.guard x.a x.n) with
      | some (_, .broken) => .fail cCHANNEL_BROKEN 0
      | some _ => .wait
      | none => .ok

/-- The lines that the step of the table in focus has read (R266, R271). -/
def State.takenLines (s : State) : List (Nat × Line) := (s.tbl s.cur s.curTable).elim [] Tbl.taken

/-- n bytes at a place, of lines that are taken as they were then, and of the others as they stand. -/
def overBytes (taken : List (Nat × Line)) (m : List Host.Cell) (pa n : Nat) : List Byte :=
  if taken = [] then memBytes m pa n
  else (List.range n).map fun i => match mfind taken ((pa + i) / 64) with
    | some l => l.extractLsb' (8 * ((pa + i) % 64)) 8
    | none => memByte m (pa + i)

/-- Window bytes at an address, as the step of the table in focus reads them. -/
def State.winBytes (s : State) (a n : Nat) : List Byte := overBytes s.takenLines s.mem (sharedPa a) n

/-- The first line of some runs that holds an uncorrectable error (R246). -/
def State.badLine (s : State) (l : List Span) : Option Nat :=
  l.findSome? fun x => (linesOf (sharedPa x.a) x.n).find? fun line =>
    (s.lineError line false).isSome && (mfind s.takenLines line).isNone

/-- addr(g) of a generator (R227). -/
def Tbl.addr (t : Tbl) (g : Nat) : Word :=
  (List.range 6).foldl (fun a l =>
    a + BitVec.ofNat 64 (t.idx.getD l 0) * mget t.lv (0x10 + 6 * g + l) 0) (mget t.lv (8 + g) 0)

/-- Bytes of K elements of a type as they stand in a window (R26, R230). -/
def rowBytes (ty k : Nat) : Nat := if ty = 0 then (k + 511) / 512 * 384 else k * etSize ty

/-- The elements of a row of A or a column of B from its bytes, or none when a segment is not well formed
(R28, R230, R231). -/
def elements (ty k : Nat) (bs : List Byte) : Option (List El) :=
  if ty = 0 then
    let segs := runsOf 384 (k / 512 + 1) bs
    if segs.all segWf then
      some ((segs.flatMap (fun seg => (List.range 512).map (El.ofSeg seg))).take k)
    else none
  else some ((runsOf (etSize ty) k bs).map (fun b => El.ofCode ty (codeOf b)))

/-- All of a list, or none. -/
def allSome {α : Type} : List (Option α) → Option (List α)
  | [] => some []
  | none :: _ => none
  | some x :: l => (allSome l).map (x :: ·)

/-- Fields of the unfolding descriptor (R232), each as a count where the rule gives it less one. -/
structure Unfold where
  kh : Nat
  kw : Nat
  ih : Nat
  iw : Nat
  c : Nat
  oh : Nat
  ow : Nat
  pt : Nat
  pl : Nat
  dy : Nat
  dx : Nat
  sy : Nat
  sx : Nat
  ubase : Nat
  m0 : Nat
  k0 : Nat
  deriving DecidableEq, Repr

/-- The descriptor in a table's live registers, for a generator (R232, R236). -/
def Tbl.unfold (t : Tbl) (g : Nat) : Unfold :=
  let a := (mget t.lv 0x38 0).toNat
  let b := (mget t.lv 0x39 0).toNat
  let c := (mget t.lv 0x3A 0).toNat
  { kh := a / 2 ^ 56 + 1, kw := a / 2 ^ 48 % 256 + 1, ih := a / 2 ^ 32 % 2 ^ 16 + 1, iw := a / 2 ^ 16 % 2 ^ 16 + 1,
    c := a % 2 ^ 16 + 1, ow := b / 2 ^ 48 + 1, pt := b / 2 ^ 40 % 256, pl := b / 2 ^ 32 % 256,
    dy := b / 2 ^ 24 % 256 + 1, dx := b / 2 ^ 16 % 256 + 1, sy := b / 2 ^ 8 % 256 + 1, sx := b % 256 + 1,
    oh := c % 2 ^ 16 + 1, ubase := (mget t.lv 0x3B 0).toNat, m0 := (t.addr g).toNat,
    k0 := (t.addr ((g + 1) % 4)).toNat }

/-- The address of element (i, k) of the unfolded operand, or none where it is zero (R236). An address above 2^64, and so the
bound of a WMWAIT, wraps as addresses do: DESIGN CHOICE, unsafe (log 106). -/
def Unfold.addr (u : Unfold) (size i k : Nat) : Option Nat :=
  let m := u.m0 + i
  let kk := u.k0 + k
  if u.kh * u.kw * u.c ≤ kk then none
  else
    let ox := m % u.ow
    let oy := m / u.ow % u.oh
    let b := m / (u.ow * u.oh)
    let ch := kk % u.c
    let kx := kk / u.c % u.kw
    let ky := kk / (u.c * u.kw)
    let iy : Int := (oy * u.sy + ky * u.dy : Nat) - (u.pt : Int)
    let ix : Int := (ox * u.sx + kx * u.dx : Nat) - (u.pl : Int)
    if iy < 0 ∨ (u.ih : Int) ≤ iy ∨ ix < 0 ∨ (u.iw : Int) ≤ ix then none
    else some ((u.ubase + (((b * u.ih + iy.toNat) * u.iw + ix.toNat) * u.c + ch) * size) % 2 ^ 64)

/-- The active plane of a fragment, and its kind in `Frag.bad`. -/
def Frag.plane (f : Frag) (active : Bool) : SMap Cell := if active == f.active1 then f.plane1 else f.plane0
/-- The kind of a plane in `Frag.bad` (R246). -/
def Frag.planeKind (f : Frag) (active : Bool) : Nat := if active == f.active1 then 2 else 1
/-- Replaces a plane. -/
def Frag.setPlane (f : Frag) (active : Bool) (p : SMap Cell) : Frag :=
  if active == f.active1 then { f with plane1 := p } else { f with plane0 := p }

/-- A cell from the elements of one column of B (R230): the codes of its kc elements, the scales of its blocks
and its outliers. -/
def cellOf (ty : Nat) (bs : List Byte) (ρ : Nat) : Cell :=
  let kc := etKc ty
  if ty = 0 then
    let seg := (runsOf 384 (bs.length / 384 + 1) bs).getD (ρ * 64 / 512) []
    let j0 := ρ * 64 % 512
    { ty := 0,
      codes := (List.range 64).map (fun j => BitVec.ofNat 32 (segCode seg (j0 + j))),
      scales := (List.range 8).map (fun b => BitVec.ofNat 8 (segScale seg (j0 + 8 * b))),
      outs := ((sideList seg).filter (fun e => decide (j0 ≤ sideIdx e) && decide (sideIdx e < j0 + 64))).map
        (fun e => (sideIdx e - j0, BitVec.ofNat 16 e)) }
  else
    { ty := ty, scales := [], outs := [],
      codes := ((runsOf (etSize ty) kc (bs.drop (ρ * kc * etSize ty))).map (fun b => BitVec.ofNat 32 (codeOf b))) }

/-- Element j of a cell as an MMA of a type reads it (R230, R235); a cell that a WLD of another type wrote gives
a free value (log 6), and one that no WLD wrote is zero (R200). -/
def cellEl (ty : Nat) (c : Option Cell) (j : Nat) : El :=
  match c with
  | none => El.zero
  | some c =>
    let code := (c.codes.getD j 0).toNat
    if c.ty ≠ ty then
      let w := (Config.foreignWeight c.ty ty code j).toNat
      if ty = 0 then ⟨v32 w, 0, none⟩ else El.ofCode ty (w % 2 ^ (8 * etSize ty))
    else if ty = 0 then
      let scale := (c.scales.getD (j / 8) 0).toNat
      if scale = 0 then El.zero
      else
        match c.outs.find? (fun o => o.1 == j) with
        | some o => ⟨.fin false 0 1, 0, some (valOf .bf16 o.2.toNat)⟩
        | none => ⟨(mulVal (e2m1 code) (e3m5 scale)).1, 0, none⟩
    else El.ofCode ty code

/-- Column n of B, from the top cells of a column of a plane (R229, R230). -/
def planeColumn (ty rows col : Nat) (p : SMap Cell) : List El :=
  (List.range rows).flatMap fun ρ => (List.range (etKc ty)).map (cellEl ty (mfind p (256 * ρ + col)))

/-- A bank row, or an empty one (R233). -/
def Frag.row (f : Frag) (r : Nat) : BankRow := mget f.bank r ⟨false, List.replicate (16 * f.w) 0⟩
/-- Empties a bank row (R233). -/
def Frag.clearRow (f : Frag) (r : Nat) : Frag :=
  { f with bank := mdel f.bank r, bad := f.bad.filter (· != (3, r)) }

/-- One row of an MMA (R233, R235): the bank row after it and the flags. -/
def mmaRow (ty acc rows : Nat) (a : List El) (cols : List (List El)) (col0 : Nat) (old : BankRow) :
    BankRow × ArrFlags :=
  let r := cols.zipIdx.map fun c =>
    let seed := if acc = 0 then 0 else (old.vals.getD (col0 + c.2) 0).toNat
    mmaElem ty rows (acc == 2) seed a c.1
  (⟨etInt ty,
    old.vals.zipIdx.map (fun v =>
      if col0 ≤ v.2 ∧ v.2 < col0 + r.length then BitVec.ofNat 32 (r.getD (v.2 - col0) (0, ⟨0, false⟩)).1 else v.1)⟩,
   r.foldl (fun f x => f.or x.2) ⟨0, false⟩)

/-- What the epilogue reads besides a bank row (R237). -/
structure EpiIn where
  e : Epi
  rm : Nat
  scale : Nat
  seed : Word
  bsa : Nat
  bsb : List Nat
  bias : List Nat
  deriving DecidableEq, Repr

/-- One stage after the other, on one element (R49, R237). -/
def epiStages (x : EpiIn) (ty n : Nat) (integer : Bool) (v : BitVec 32) : CVal × Flags :=
  let e := x.e
  if integer && !(e.bs || e.sc || e.bi || e.act != 0 || !etInt ty) then
    (⟨ofInt v.toInt, some v.toInt⟩, 0)
  else
    let r0 := if integer then rne32 (ofInt v.toInt) else (v.toNat, 0)
    let r1 := if e.bs then
        let p := mulVal (v32 r0.1) (valOf .bf16 x.bsa)
        let q := mulVal p.1 (valOf .bf16 (x.bsb.getD (n / 64) 0))
        let r := rne32 q.1
        (r.1, r0.2 ||| p.2 ||| q.2 ||| r.2)
      else r0
    let r2 := if e.sc then
        let p := mulVal (v32 r1.1) (v32 x.scale)
        let r := rne32 p.1
        (r.1, r1.2 ||| p.2 ||| r.2)
      else r1
    let r3 := if e.bi then
        let p := addVal 0 (v32 r2.1) (v32 (x.bias.getD n 0))
        let r := rne32 p.1
        (r.1, r2.2 ||| p.2 ||| r.2)
      else r2
    let y := v32 r3.1
    match e.act.toNat with
    | 1 => (⟨if y.isNan then .nan else if y.neg || y.isZero then .fin false 0 1 else y, none⟩,
        r3.2 ||| snanFlag y)
    | 2 =>
      let p := tanhVal y
      let r := rne32 p.1
      (⟨v32 r.1, none⟩, r3.2 ||| p.2 ||| r.2)
    | 3 =>
      let p := sigmVal y
      let r := rne32 p.1
      (⟨v32 r.1, none⟩, r3.2 ||| p.2 ||| r.2)
    | _ => (⟨y, none⟩, r3.2)

/-- The random word of element (m, n) of a drain (R237). -/
def drainRandom (seed : Word) (m n : Nat) : Nat :=
  (mix64 (seed + BitVec.ofNat 64 m + BitVec.ofNat 64 (n + 1) * srGamma)).toNat % 2 ^ 32

/-- A drained row: the values after the stages, and the flags. -/
def epiRow (x : EpiIn) (ty : Nat) (r : BankRow) : List CVal × Flags :=
  let l := r.vals.zipIdx.map (fun v => epiStages x ty v.2 r.integer v.1)
  (l.map (·.1), l.foldl (fun f y => f ||| y.2) 0)

/-- The codes of a drained row in a type other than FP4 (R38, R237). -/
def epiCodes (x : EpiIn) (ty m : Nat) (l : List CVal) : List (BitVec 32) × Flags :=
  let q := l.zipIdx.map (fun v => etConv ty x.rm x.e.sat (drainRandom x.seed m v.2) v.1)
  (q.map (fun c => BitVec.ofNat 32 c.1), q.foldl (fun f c => f ||| c.2) 0)

/-- The 512 values of a drained row in the FP4 block format (R26, R238). -/
def epiSegment (x : EpiIn) (l : List CVal) : Option (List Byte × Flags) :=
  encSeg ((l.map CVal.v) ++ List.replicate (512 - l.length) (.fin false 0 1)) x.e.thr.toNat

/-- The pattern of a proof (R240). -/
def pcode (seed j : Nat) : Nat := (mix64 (BitVec.ofNat 64 (seed * 2 ^ 40 + j))).toNat % 2 ^ 16
/-- An element of the pattern (R240). -/
def pelem (bf : Bool) (c : Nat) : El :=
  if bf then ⟨valOf .bf16 (c / 2 ^ 15 * 2 ^ 15 + (0x3F80 ||| c % 2 ^ 7)), 0, none⟩
  else ⟨.fin false 0 1, sextI c 8, none⟩
/-- The sum that a PROOF compares with its literal (R240). -/
def proofSum (seed : Nat) (bf : Bool) (h w : Nat) : BitVec 32 :=
  let ty := if bf then 5 else 3
  let k := 16 * h * etKc ty
  let a := (List.range k).map (fun j => pelem bf (pcode seed j))
  BitVec.ofNat 32 (((List.range (16 * w)).map fun n =>
    (mmaElem ty (16 * h) false 0 a ((List.range k).map fun j => pelem bf (pcode seed (2 ^ 31 + n * 2 ^ 16 + j)))).1).sum)

end Sys2Proof.Machine
end

