-- ==== Sys2Proof/Machine/TableStep.lean ====
section
/-! DEFINITION. The micro-orders (R225 to R248, R360, R361): each step of the table in focus, matrix or copy,
the consumption of an uncorrectable error, and the rewind. A step that has to wait leaves its table where it
stands. -/

namespace Sys2Proof.Machine

/-- Replaces a fragment. -/
def State.setFrag (s : State) (core h : Nat) (f : Frag) : State :=
  s.setStrand core { s.strand core with frag := mset (s.strand core).frag h f }

/-- The path of a table's accesses, for the fences (R314, R325). -/
def tablePath (h : Nat) : Nat := if h < 4 then 1 else 2

/-- A table that starts a step: it is Running, no rewind is due, and no PFENCE holds it (R220, R325). -/
def State.steps (s : State) (t : Tbl) : Bool :=
  t.st == .running && !t.rewinding && !s.heldBack s.cur (tablePath s.curTable) t.fence

/-- A step of the table in focus, of either kind. -/
def State.onTable (s : State) (k : Tbl → Result State) : Result State :=
  match s.tbl s.cur s.curTable with
  | some t => if s.steps t then k t else .next s
  | none => .next s
/-- A step of the matrix table in focus. -/
def State.onFrag (s : State) (k : Frag → Result State) : Result State :=
  match mfind s.me.frag s.curTable with
  | some f => if decide (s.curTable < 4) && s.steps f.tbl then k f else .next s
  | none => .next s
/-- A step of the matrix table in focus that reads its window: the writes of the table's earlier steps are performed
first (R225). -/
def State.onWindow (s : State) (k : State → Frag → Result State) : Result State :=
  s.onFrag fun f => k (s.performTable s.cur s.curTable) f
/-- A step of the copy table in focus, with its channel. -/
def State.onChan (s : State) (k : Chan → Result State) : Result State :=
  match s.chan s.cur (s.curTable - 8) with
  | some x => if decide (8 ≤ s.curTable) && s.steps x.tbl then k x else .next s
  | none => .next s

/-- The end of a step (R225, R255): the micro-PC goes on, and a stop that waited for the step takes effect. -/
def Tbl.stepped (t : Tbl) (upc : Nat) : Tbl :=
  { t with
    upc := upc, since := t.since + 1, steps := t.steps + 1, inStep := false, row := 0, pops := [], taken := [], blocked := none,
    st := if t.stopDue then .stopped else t.st, stopDue := false }
/-- A step that waits; `full` says that it waits on a bounded queue (R114, R226). -/
def Tbl.waits (t : Tbl) (now : Nat) (full : Bool) : Tbl :=
  { t with inStep := true, blocked := if full then some (t.blocked.getD now) else none }

/-- Ends the step of the table in focus at a micro-PC. -/
def State.endStep (s : State) (t : Tbl) (upc : Nat) : Result State :=
  .next (s.setTbl s.cur s.curTable (t.stepped upc))
/-- Ends the step of a fragment's table with the fragment changed. -/
def State.endFrag (s : State) (f : Frag) : Result State :=
  .next (s.setFrag s.cur s.curTable { f with tbl := f.tbl.stepped (f.tbl.upc + 1) })
/-- The step of the table in focus waits. -/
def State.waitStep (s : State) (t : Tbl) (full : Bool) : Result State :=
  .next (s.setTbl s.cur s.curTable (t.waits s.now full))

/-- A step ends its table on a fault (R119, R248). -/
def State.tblFail (s : State) (core h : Nat) (cause : Cause) (a aux : Word) : State :=
  match s.tbl core h with
  | some t => (s.setTbl core h (t.fail cause a)).faultOf core 2 cause false 0 (handleCode h) 0 a aux
  | none => s
/-- The step of the table in focus ends on a fault. -/
def State.failStep (s : State) (cause : Cause) (a : Word) : Result State :=
  .next (s.tblFail s.cur s.curTable cause a 0)

/-- Fragments that a link joins to some of a list. -/
def Strand.joined (t : Strand) (l : List Nat) : List Nat :=
  (List.range 4).filter fun x => l.contains x || t.frag.any fun f => match f.2.link with
    | some k => (f.1 == x && l.contains k.dst) || (k.dst == x && l.contains f.1)
    | none => false
/-- The cascade of a fragment (R203): at most four, by handle. -/
def Strand.cascade (t : Strand) (h : Nat) : List Nat := t.joined (t.joined (t.joined [h]))

/-- A table that rewinds with its cascade (R245). -/
def Tbl.rewinds (t : Tbl) : Bool := t.st == .running || t.st == .stopped || t.st == .halted

/-- Steps a table may have started since its checkpoint and still rewind (R246). -/
def rewindSteps : Nat := 4096

/-- A table of the cascade stops, as under TSTOP (R246, R255). -/
def Tbl.stopNow (t : Tbl) : Tbl :=
  if t.st ≠ .running then t
  else if t.inStep then { t with stopDue := true }
  else { t with st := .stopped, markStop := false, blocked := none }

/-- Changes the tables of some fragments. -/
def State.eachTbl (s : State) (core : Nat) (l : List Nat) (g : Nat → Tbl → Tbl) : State :=
  { s with cores := mset s.cores core { s.core core with strand := { s.strand core with
      frag := (s.strand core).frag.map (fun (f : Nat × Frag) =>
        if l.contains f.1 then (f.1, { f.2 with tbl := g f.1 f.2.tbl }) else f) } } }

/-- UE_CONSUMPTION (R246): the first of its conditions that holds decides. The tables that rewind start no
step until they have. -/
def State.consumeError (s : State) (core h kind loc : Nat) (a : Word) : State :=
  let l := (s.strand core).cascade h
  match s.tbl core h with
  | none => s
  | some t =>
    let aux := syndrome cUE_DATA sharedBase s.freeCtr
    if t.poison.any (fun p => p.kind == kind && p.loc == loc) then s.tblFail core h cUE_DATA a aux
    else if l.any (fun x => match s.tbl core x with
        | some u => u.rewinds && decide (rewindSteps < u.since + (u.inStep || x == h).toNat)
        | none => false) then
      (s.tblFail core h cUE_DATA a aux).eachTbl core (l.filter (· != h)) (fun _ u => u.stopNow)
    else
      let p := t.poison ++ [⟨kind, loc, t.eseq⟩]
      (s.setTbl core h { t with poison := p.drop (p.length - 16) }).eachTbl core l
        (fun _ u => if u.rewinds then { u with rewinding := true } else u)
/-- The step of the table in focus consumes an uncorrectable error. -/
def State.consume (s : State) (kind loc : Nat) (a : Word) : Result State :=
  .next (s.consumeError s.cur s.curTable kind loc a)

/-- A table after its rewind (R244, R245). A Halted one runs again. -/
def Tbl.rewound (t : Tbl) : Tbl :=
  { (t.setBases t.ck.bases) with
    upc := if t.rv then t.restart else t.ck.upc, idx := t.ck.idx, epi := t.ck.epi, eseq := t.ck.eseq,
    claims := t.ck.claims, frees := [], rewinding := false, inStep := false, steps := t.steps + t.inStep.toNat,
    row := 0, pops := [], taken := [], blocked := none,
    st := if t.st = .halted then .running else if t.stopDue then .stopped else t.st, stopDue := false }

/-- One fragment rewinds (R244): its bank is empty, and its new claims return. -/
def State.rewindFrag (s : State) (core h : Nat) : State :=
  match mfind (s.strand core).frag h with
  | none => s
  | some f =>
    (s.setStrand core ((s.strand core).unclaim h f.tbl)).setFrag core h
      { f with tbl := f.tbl.rewound, bank := [], bad := f.bad.filter (fun b => b.1 != 3) }

/-- The pops of a fragment's incoming link at its latest checkpoint (R242, R245). -/
def Strand.ckPopped (t : Strand) (h : Nat) : Nat :=
  match mfind t.frag h with
  | some f => f.tbl.ck.popped
  | none => 0

/-- A link of a cascade that rewound (R245): it is empty, its first table counts its pushes again from its
checkpoint, and the pushes that its successor had popped at its own are dropped. -/
def Link.rewound (l : Link) (pushed : Option Nat) (popped : Nat) : Link :=
  { l with entries := [], weir := false, pushed := pushed.getD l.pushed, popped := popped, dropTo := popped }

/-- Rewinds some fragments of a strand together, and empties their links (R244, R245). -/
def State.rewindAll (s : State) (core : Nat) (l more : List Nat) : State :=
  let s := more.foldl (fun s h => s.rewindFrag core h) s
  let t := s.strand core
  let g := fun (f : Nat × Frag) =>
    if l.contains f.1 then
      let pushed := if more.contains f.1 then some f.2.tbl.ck.pushed else none
      (f.1, { f.2 with
        bad := f.2.bad.filter (fun b => b.1 != 4),
        link := f.2.link.map (fun k => k.rewound pushed (t.ckPopped k.dst)) })
    else f
  s.setStrand core { t with frag := t.frag.map g }

/-- TABLE_REWIND (R244, R245): every table of the cascade that an error made rewind. -/
def execTableRewind (core handle : Nat) (s : State) : Result State :=
  if Config.cores ≤ core || !isHandle handle then .fault .noSuchObject
  else
    let l := (s.strand core).cascade handle
    let again := l.filter (fun h => match s.tbl core h with
      | some t => t.rewinding
      | none => false)
    if again = [] then .next s else .next (s.rewindAll core l again)

/-- A copy table rewinds nothing: it resumes at its step (R247). -/
def Tbl.resumed (t : Tbl) : Tbl := { t with inStep := false, blocked := none }

/-- nopt (R235): its ticks are timing. -/
def execNopt (_n : BitVec 10) (s : State) : Result State := s.onFrag fun f => s.endFrag f

/-- Start addresses of n rows (R223). -/
def rowStarts (base pitch n : Nat) : List Nat := (List.range n).map (fun j => (base + j * pitch) % 2 ^ 64)

/-- The alignment of rows and columns of a type (R223). -/
def rowAlign (ty : Nat) : Nat := if ty = 0 then 128 else 64

/-- The checks of a step's rows: alignment, then those of its window runs (R118, R223). -/
def State.checkRows (s : State) (f : Frag) (ty n : Nat) (starts : List Nat) : StepCheck :=
  match starts.find? (fun a => a % rowAlign ty != 0) with
  | some a => .fail cMISALIGN (BitVec.ofNat 64 a)
  | none => s.checkSpans s.cur f (starts.map (fun a => ⟨a, n, ty⟩))

/-- The shared-scratchpad address of a line. -/
def lineAddr (line : Nat) : Word := BitVec.ofNat 64 (64 * line - sharedBase + 0xFF20000000000000)

/-- Goes on after a step's checks. -/
def State.afterCheck (s : State) (t : Tbl) (c : StepCheck) (k : Result State) : Result State :=
  match c with
  | .fail cause a => s.failStep cause a
  | .wait => s.waitStep t false
  | .ok => k

/-- Goes on when no line of some runs holds an error (R246). -/
def State.afterLines (s : State) (l : List Span) (k : Result State) : Result State :=
  match s.badLine l with
  | some line => s.consume 0 line (lineAddr line)
  | none => k

/-- The first row whose segments are not well formed, by its address (R28). -/
def State.badSegment (s : State) (ty k : Nat) (starts : List Nat) : Option Nat :=
  starts.find? (fun a => (elements ty k (s.winBytes a (rowBytes ty k))).isNone)

/-- A register of the table that holds an unsigned number. -/
def Tbl.num (t : Tbl) (i : Nat) : Nat := (mget t.lv i 0).toNat

/-- wld (R229, R230). -/
def execWld (shape : BitVec 5) (ty : BitVec 3) (active : Bool) (gen : BitVec 2) (col : BitVec 4) (s : State) :
    Result State :=
  s.onWindow fun s f =>
    let hk := (shapeTiles shape).1
    let wk := (shapeTiles shape).2
    let y := ty.toNat
    let k := 16 * hk * etKc y
    let c0 := 16 * col.toNat
    if f.h < hk || f.w < wk || 16 * f.w < c0 + 16 * wk then s.failStep cSHAPE 0
    else
      let starts := rowStarts (f.tbl.addr gen.toNat).toNat (f.tbl.num 0x31) (16 * wk)
      let n := rowBytes y k
      s.afterCheck f.tbl (s.checkRows f y n starts)
        (s.afterLines (starts.map (fun a => ⟨a, n, y⟩))
          (match s.badSegment y k starts with
            | some a => s.failStep cFORMAT (BitVec.ofNat 64 a)
            | none =>
              let cells := starts.zipIdx.flatMap fun a =>
                let bs := s.winBytes a.1 n
                (List.range (16 * hk)).map fun ρ => (256 * ρ + c0 + a.2, cellOf y bs ρ)
              let p := cells.foldl (fun m c => mset m c.1 c.2) (f.plane active)
              let kind := f.planeKind active
              s.endFrag { f.setPlane active p with
                bad := f.bad.filter (fun b => !(b.1 == kind && cells.any (fun c => c.1 == b.2))) }))

/-- The lines of some rows of window bytes, row by row. -/
def rowLines (starts : List Nat) (n : Nat) : List (List Nat) := starts.map (fun a => linesOf (sharedPa a) n)

/-- The lines that a WLD reads, by row, once its checks pass (R229, R230). -/
def State.wldLines (s : State) (f : Frag) (shape : BitVec 5) (ty : BitVec 3) (gen : BitVec 2) (col : BitVec 4) :
    List (List Nat) :=
  let hk := (shapeTiles shape).1
  let wk := (shapeTiles shape).2
  let n := rowBytes ty.toNat (16 * hk * etKc ty.toNat)
  let starts := rowStarts (f.tbl.addr gen.toNat).toNat (f.tbl.num 0x31) (16 * wk)
  if f.h < hk || f.w < wk || 16 * f.w < 16 * col.toNat + 16 * wk then []
  else match s.checkRows f ty.toNat n starts with
    | .ok => rowLines starts n
    | _ => []

/-- The A port keeps at most 32 rows in fetch (R270). -/
def rowsInFetch : Nat := 32

/-- The next line of a row of the step in focus is granted: it is read, and the rest of the step sees it as it was then
(R266, R270, R271). A line in error is consumed by the step itself. Rows that share a line take it once: DESIGN CHOICE,
unsafe (log 19). -/
def State.takeLine (s : State) (f : Frag) (rows : List (List Nat)) (n : Nat) : Result State :=
  let left := fun (line : Nat) => (mfind f.tbl.taken line).isNone
  if rows.findIdx (fun r => r.any left) + rowsInFetch ≤ n then .next s
  else
    match (rows.getD n []).find? left with
    | none => .next s
    | some line =>
      if (s.lineError line false).isSome then .next s
      else .next (s.setTbl s.cur s.curTable { f.tbl.waits s.now false with taken := mset f.tbl.taken line (s.lineData line) })

/-- A line of a row that a WLD reads is granted (R270). -/
def wldPart (shape : BitVec 5) (ty : BitVec 3) (gen : BitVec 2) (col : BitVec 4) (n : Nat) (s : State) : Result State :=
  s.onWindow fun s f => s.takeLine f (s.wldLines f shape ty gen col) n

/-- wswap (R235). -/
def execWswap (s : State) : Result State := s.onFrag fun f => s.endFrag { f with active1 := !f.active1 }

/-- The first cell of the active plane, of those that an MMA reads, that holds an error. -/
def Frag.badCell (f : Frag) (rows c0 cols : Nat) : Option (Nat × Nat) :=
  f.bad.find? fun b => b.1 == f.planeKind true && decide (b.2 / 256 < rows) && decide (c0 ≤ b.2 % 256) &&
    decide (b.2 % 256 < c0 + cols)
/-- The first bank row, of some, that holds an error. -/
def Frag.badRow (f : Frag) (base n : Nat) : Option (Nat × Nat) :=
  f.bad.find? fun b => b.1 == 3 && decide (base ≤ b.2) && decide (b.2 < base + n)

/-- What an MMA does with its rows of A (R233, R235): the fragment after it. -/
def Frag.multiply (f : Frag) (hk wk ty acc row0 col0 : Nat) (a : List (List El)) : Frag :=
  let cols := (List.range (16 * wk)).map (fun n => planeColumn ty (16 * hk) (col0 + n) (f.plane true))
  a.zipIdx.foldl (fun (f : Frag) r =>
    let q := mmaRow ty acc (16 * hk) r.1 cols col0 (f.row (row0 + r.2))
    { (f.flag q.2.f q.2.iov) with bank := mset f.bank (row0 + r.2) q.1 }) f

/-- The plane entry or bank row in error that an MMA of m rows consumes (R246). Of several locations in error that one step
consumes the first is taken in this order: lines of a window, plane entries, bank rows, and in a DRAIN a bank row before the
lines of its epilogue; the rules give none: DESIGN CHOICE, unsafe (log 103). -/
def Frag.mmaError (f : Frag) (hk wk m acc row0 col0 : Nat) : Option (Nat × Nat) :=
  match f.badCell (16 * hk) col0 (16 * wk) with
  | some b => some b
  | none => if acc = 0 then none else f.badRow row0 m
/-- An MMA once its rows of A are known: plane entries and bank rows in error come first (R246). -/
def State.finishMma (s : State) (f : Frag) (hk wk ty acc row0 col0 : Nat) (a : List (List El)) : Result State :=
  match f.mmaError hk wk a.length acc row0 col0 with
  | some b => s.consume b.1 b.2 0
  | none =>
    let whole := acc == 0 && col0 == 0 && wk == f.w
    let f := { f with bad := f.bad.filter (fun b =>
      !(whole && b.1 == 3 && decide (row0 ≤ b.2) && decide (b.2 < row0 + a.length))) }
    s.endFrag (f.multiply hk wk ty acc row0 col0 a)

/-- The fragment whose outgoing link ends at a handle (R203). -/
def Strand.feeder (t : Strand) (h : Nat) : Option (Nat × Frag × Link) :=
  t.frag.findSome? fun f => match f.2.link with
    | some l => if l.dst = h then some (f.1, f.2, l) else none
    | none => none

/-- What pops from a link into a waiting MMA find (R204, R246). -/
inductive Popped where
  | rows (l : Link) (pops : List (List (BitVec 32)))
  | shape
  | bad (n : Nat)
  deriving DecidableEq, Repr

/-- Pops entries of a type until an MMA has its rows or the link is empty. -/
def popRows (bad : List (Nat × Nat)) (ty m : Nat) (l : Link) (pops : List (List (BitVec 32))) : Nat → Popped
  | 0 => .rows l pops
  | k + 1 =>
    if m ≤ pops.length then .rows l pops
    else
      match l.entries with
      | [] => .rows l pops
      | (y, e) :: es =>
        if bad.contains (4, l.popped) then .bad l.popped
        else if y ≠ ty then .shape
        else
          popRows bad ty m { l with entries := es, popped := l.popped + 1, weir := l.weir && decide (32 < es.length) }
            (pops ++ [e]) k

/-- A link with the entries that a waiting MMA had popped, which ends on a fault and so has no effect (R248). -/
def Link.unpop (l : Link) (ty : Nat) (pops : List (List (BitVec 32))) : Link :=
  { l with entries := pops.map (fun e => (ty, e)) ++ l.entries, popped := l.popped - pops.length }

/-- An MMA from the cascade port (R204, R205). -/
def State.mmaCascade (s : State) (f : Frag) (hk wk m ty acc row0 col0 : Nat) : Result State :=
  match s.me.feeder s.curTable with
  | none => s.failStep cFRAG_STATE 0
  | some (fh, g, l) =>
    if ty = 0 || 16 * hk * etKc ty ≠ 16 * g.w then s.failStep cSHAPE 0
    else
      let undo := s.setFrag s.cur fh { g with link := some (l.unpop ty f.tbl.pops) }
      match popRows g.bad ty m l f.tbl.pops (m + 1) with
      | .shape => undo.failStep cSHAPE 0
      | .bad n => undo.consume 4 n 0
      | .rows l pops =>
        let s := s.setFrag s.cur fh { g with link := some l }
        if pops.length < m then s.waitStep { f.tbl with pops := pops } false
        else if (f.mmaError hk wk m acc row0 col0).isSome then undo.finishMma f hk wk ty acc row0 col0 (pops.map fun _ => [])
        else
          s.finishMma f hk wk ty acc row0 col0 (pops.map (fun r => r.map (fun c => El.ofCode ty c.toNat)))

/-- The window elements that an unfolding MMA reads, by address (R236). -/
def unfoldAddrs (u : Unfold) (size m k : Nat) : List (List (Option Nat)) :=
  (List.range m).map fun i => (List.range k).map fun j => u.addr size i j

/-- An MMA that unfolds (R231, R236). -/
def State.mmaUnfold (s : State) (f : Frag) (hk wk m ty acc row0 col0 gen : Nat) : Result State :=
  if ty = 0 then s.failStep cSHAPE 0
  else
    let u := f.tbl.unfold gen
    let size := etSize ty
    if u.ubase % size != 0 then s.failStep cMISALIGN (BitVec.ofNat 64 u.ubase)
    else
      let rows := unfoldAddrs u size m (16 * hk * etKc ty)
      let l : List Span := rows.flatMap fun r => r.filterMap fun a => a.map fun a => ⟨a, size, ty⟩
      s.afterCheck f.tbl (s.checkSpans s.cur f l)
        (s.afterLines l
          (s.finishMma f hk wk ty acc row0 col0 (rows.map fun r => r.map fun a => match a with
            | some a => El.ofCode ty (codeOf (s.winBytes a size))
            | none => El.zero)))

/-- An MMA from the window (R231). -/
def State.mmaWindow (s : State) (f : Frag) (hk wk m ty acc row0 col0 gen : Nat) : Result State :=
  let k := 16 * hk * etKc ty
  let n := rowBytes ty k
  let starts := rowStarts (f.tbl.addr gen).toNat (f.tbl.num 0x30) m
  s.afterCheck f.tbl (s.checkRows f ty n starts)
    (s.afterLines (starts.map (fun a => ⟨a, n, ty⟩))
      (match s.badSegment ty k starts with
        | some a => s.failStep cFORMAT (BitVec.ofNat 64 a)
        | none =>
          s.finishMma f hk wk ty acc row0 col0 (starts.map fun a => (elements ty k (s.winBytes a n)).getD [])))

/-- mma (R229 to R236). -/
def execMma (shape : BitVec 5) (ty : BitVec 3) (acc : BitVec 2) (gen : BitVec 2) (src : BitVec 2)
    (brow : BitVec 8) (bcol : BitVec 4) (s : State) : Result State :=
  s.onWindow fun s f =>
    let hk := (shapeTiles shape).1
    let wk := (shapeTiles shape).2
    let m := shapeM shape
    let row0 := 8 * brow.toNat
    let col0 := 16 * bcol.toNat
    if f.h < hk || f.w < wk || 128 * f.h < row0 + m || 16 * f.w < col0 + 16 * wk then s.failStep cSHAPE 0
    else
      match src.toNat with
      | 0 => s.mmaWindow f hk wk m ty.toNat acc.toNat row0 col0 gen.toNat
      | 1 => s.mmaUnfold f hk wk m ty.toNat acc.toNat row0 col0 gen.toNat
      | _ => s.mmaCascade f hk wk m ty.toNat acc.toNat row0 col0

/-- The lines that an MMA reads, by row, once its checks pass (R229 to R236). -/
def State.mmaLines (s : State) (f : Frag) (hk m ty gen src : Nat) : List (List Nat) :=
  let k := 16 * hk * etKc ty
  if src = 0 then
    let starts := rowStarts (f.tbl.addr gen).toNat (f.tbl.num 0x30) m
    match s.checkRows f ty (rowBytes ty k) starts with
    | .ok => rowLines starts (rowBytes ty k)
    | _ => []
  else if src = 1 && ty != 0 then
    let u := f.tbl.unfold gen
    let rows := (unfoldAddrs u (etSize ty) m k).map (fun r => r.filterMap id)
    if u.ubase % etSize ty != 0 then []
    else match s.checkSpans s.cur f (rows.flatMap fun r => r.map fun a => ⟨a, etSize ty, ty⟩) with
      | .ok => rows.map fun r => (r.map (fun a => sharedPa a / 64)).eraseDups
      | _ => []
  else []

/-- A line of a row that an MMA reads is granted (R270). -/
def mmaPart (shape : BitVec 5) (ty : BitVec 3) (gen : BitVec 2) (src : BitVec 2) (brow : BitVec 8) (bcol : BitVec 4)
    (n : Nat) (s : State) : Result State :=
  s.onWindow fun s f =>
    let hk := (shapeTiles shape).1
    let wk := (shapeTiles shape).2
    let m := shapeM shape
    if f.h < hk || f.w < wk || 128 * f.h < 8 * brow.toNat + m || 16 * f.w < 16 * bcol.toNat + 16 * wk then .next s
    else s.takeLine f (s.mmaLines f hk m ty.toNat gen.toNat src.toNat) n

/-- aclr (R233, R235). -/
def execAclr (base : BitVec 9) (rows : BitVec 9) (s : State) : Result State :=
  s.onFrag fun f =>
    let b := 4 * base.toNat
    let n := 4 * (rows.toNat + 1)
    if 128 * f.h < b + n then s.failStep cSHAPE 0
    else s.endFrag ((List.range n).foldl (fun f i => f.clearRow (b + i)) f)

/-- epi (R235). -/
def execEpi (act : BitVec 3) (bi sc bs : Bool) (rm : BitVec 3) (sat : Bool) (thr : BitVec 8) (s : State) :
    Result State :=
  s.onFrag fun f => s.endFrag { f with tbl := { f.tbl with epi := ⟨act, bi, sc, bs, rm, sat, thr⟩ } }

/-- The runs that a DRAIN's epilogue reads (R223, R237, R273), for rows base to base + n − 1. -/
def Frag.epiSpans (f : Frag) (base n : Nat) : List Span :=
  let t := f.tbl
  (if t.epi.bi then [⟨t.num 0x34, 64 * f.w, 7⟩] else []) ++
    (if t.epi.bs then
      [⟨(t.num 0x35 + 2 * (base / 64)) % 2 ^ 64, 2 * ((base + n - 1) / 64 - base / 64 + 1), 5⟩,
        ⟨t.num 0x36, 2 * ((16 * f.w + 63) / 64), 5⟩]
     else [])

/-- What the epilogue reads for bank row m (R224, R237). -/
def State.epiIn (s : State) (f : Frag) (m : Nat) : EpiIn :=
  let t := f.tbl
  { e := t.epi, rm := if t.epi.rm = 7 then t.frm.toNat else t.epi.rm.toNat, scale := t.num 0x33 % 2 ^ 32,
    seed := mget t.lv 0x37 0,
    bsa := if t.epi.bs then codeOf (s.winBytes ((t.num 0x35 + 2 * (m / 64)) % 2 ^ 64) 2) else 0,
    bsb := if t.epi.bs then (List.range ((16 * f.w + 63) / 64)).map
      (fun i => codeOf (s.winBytes ((t.num 0x36 + 2 * i) % 2 ^ 64) 2)) else [],
    bias := if t.epi.bi then (List.range (16 * f.w)).map
      (fun i => codeOf (s.winBytes ((t.num 0x34 + 4 * i) % 2 ^ 64) 4)) else [] }

/-- A drained row: its bytes in the window, its elements for a link, and its flags; nothing where an FP4 row has
more than 16 outliers (R31, R238). -/
def State.drainRow (s : State) (f : Frag) (ty m : Nat) : Option (List Byte × List (BitVec 32) × Flags) :=
  let x := s.epiIn f m
  let r := epiRow x ty (f.row m)
  if ty = 0 then (epiSegment x r.1).map (fun q => (q.1, [], r.2 ||| q.2))
  else
    let q := epiCodes x ty m r.1
    some (q.1.flatMap (fun c => codeBytes (etSize ty) c.toNat), q.1, r.2 ||| q.2)

/-- What stops a DRAIN before its first row (R118, R204, R223, R238, R248). -/
def State.drainCheck (s : State) (f : Frag) (link : Bool) (ty base n : Nat) (starts : List Nat) : StepCheck :=
  if 128 * f.h < base + n || (link && ty == 0) then .fail cSHAPE 0
  else
    let align := if link then none else starts.find? (fun a => a % rowAlign ty != 0)
    match align with
    | some a => .fail cMISALIGN (BitVec.ofNat 64 a)
    | none =>
      let rows : List Span := if link then [] else starts.map (fun a => ⟨a, rowBytes ty (16 * f.w), ty⟩)
      match s.checkSpans s.cur f (rows ++ f.epiSpans base n) with
      | .ok =>
        if link && f.link.isNone then .fail cFRAG_STATE 0
        else
          match (List.range n).find? (fun j => (s.drainRow f ty (base + j)).isNone) with
          | some j => .fail cFORMAT (BitVec.ofNat 64 (starts.getD j 0))
          | none => .ok
      | r => r

/-- CASCADE_PUSH (R204, R243, R245): a push that a rewind repeats may be dropped, and is always counted. -/
def Link.push (l : Link) (ty : Nat) (row : List (BitVec 32)) : Link :=
  { l with pushed := l.pushed + 1, entries := if l.pushed < l.dropTo then l.entries else l.entries ++ [(ty, row)] }

/-- Room for a push: 32 entries, or the weir, or a push that is dropped (R204, R245). -/
def Link.room (l : Link) : Bool :=
  decide (l.pushed < l.dropTo) || decide (l.entries.length < 32) || (l.weir && l.entries.length == 32)

/-- A row has been drained: its effect is counted, and the bank row is empty (R233, R243). -/
def Frag.drained (f : Frag) (m : Nat) (fl : Flags) : Frag :=
  let f := (f.flag fl false).clearRow m
  { f with tbl := { f.tbl with
      eseq := (f.tbl.eseq + 1) % 2 ^ 48, ehw := max f.tbl.ehw ((f.tbl.eseq + 1) % 2 ^ 48),
      inStep := true, row := f.tbl.row + 1, taken := [], blocked := none } }

/-- A drained row leaves for the window: its lines are one group, performed when their sub-banks grant it (R226, R238,
R270). -/
def State.writeWindow (s : State) (steps a : Nat) (bs : List Byte) : State :=
  s.addWrite s.cur (2 + s.curTable) steps
    ((splitLines (bs.length / 64 + 2) (sharedPa a) bs).map (fun l => (l.1, allBytes l.2)))

/-- The rows of a DRAIN, one effect after the other, from the row it has come to (R238, R243, R246). -/
def State.drainRows (s : State) (link : Bool) (ty base n : Nat) (starts : List Nat) : Nat → Result State
  | 0 => .next s
  | k + 1 =>
    match mfind s.me.frag s.curTable with
    | none => .next s
    | some f =>
      let j := f.tbl.row
      let m := base + j
      if n ≤ j then s.endFrag f
      else
        match f.badRow m 1 with
        | some b => s.consume b.1 b.2 0
        | none =>
          match s.badLine (f.epiSpans m 1) with
          | some line => s.consume 0 line (lineAddr line)
          | none =>
            match s.drainRow f ty m with
            | none => s.failStep cFORMAT (BitVec.ofNat 64 (starts.getD j 0))
            | some (bs, row, fl) =>
              if link then
                match f.link with
                | none => s.failStep cFRAG_STATE 0
                | some l =>
                  if !l.room then s.waitStep f.tbl true
                  else
                    (s.setFrag s.cur s.curTable { f.drained m fl with link := some (l.push ty row) }).drainRows
                      link ty base n starts k
              else
                let s := if f.tbl.ehw < (f.tbl.eseq + 1) % 2 ^ 48 then s.writeWindow f.tbl.steps (starts.getD j 0) bs else s
                (s.setFrag s.cur s.curTable (f.drained m fl)).drainRows link ty base n starts k

/-- A DRAIN goes on by at most k rows (R237, R238). -/
def State.drain (s : State) (f : Frag) (gen : BitVec 2) (link : Bool) (ty : BitVec 3) (base rows : BitVec 9) (k : Nat) :
    Result State :=
  let s := if f.tbl.epi.bi || f.tbl.epi.bs then s.performTable s.cur s.curTable else s
  let b := 4 * base.toNat
  let n := 4 * (rows.toNat + 1)
  let starts := rowStarts (f.tbl.addr gen.toNat).toNat (f.tbl.num 0x32) n
  if f.tbl.row = 0 then
    s.afterCheck f.tbl (s.drainCheck f link ty.toNat b n starts) (s.drainRows link ty.toNat b n starts k)
  else s.drainRows link ty.toNat b n starts k

/-- drain (R237, R238). -/
def execDrain (gen : BitVec 2) (link : Bool) (ty : BitVec 3) (base : BitVec 9) (rows : BitVec 9) (s : State) :
    Result State :=
  s.onFrag fun f => s.drain f gen link ty base rows (4 * (rows.toNat + 1) + 1)

/-- A row of a DRAIN drains (0), or a line that its epilogue reads is granted (1; R237, R266, R271). -/
def drainPart (gen : BitVec 2) (link : Bool) (ty : BitVec 3) (base : BitVec 9) (rows : BitVec 9) (n : Nat) (s : State) :
    Result State :=
  s.onFrag fun f =>
    if n = 0 then s.drain f gen link ty base rows 1
    else
      let b := 4 * base.toNat
      let starts := rowStarts (f.tbl.addr gen.toNat).toNat (f.tbl.num 0x32) (4 * (rows.toNat + 1))
      let s := s.performTable s.cur s.curTable
      if f.tbl.row = 0 && s.drainCheck f link ty.toNat b (4 * (rows.toNat + 1)) starts != .ok then .next s
      else
        s.takeLine f [(f.epiSpans (b + f.tbl.row) 1).flatMap (fun x => linesOf (sharedPa x.a) x.n)] 0

/-- A reshape that the strand waits for can complete on a fragment that stands at its marker (R201). -/
def Strand.reshapeReady (t : Strand) (h : Nat) : Bool :=
  match t.why, t.wait with
  | .until .reshape, some w =>
    let r := Reshape.unpack w.a
    (w.stage == 1 || w.stage == 2) && (r.h == h || (w.stage == 2 && r.other == h)) &&
      (match t.reshapeNext w with
        | .done => true
        | _ => false)
  | _, _ => false

/-- A TSTART is a checkpoint (R242): an empty bank, and no push beyond what the successor had popped at its own
checkpoint. -/
def Strand.checkpointable (t : Strand) (f : Frag) : Bool :=
  f.bankEmpty && (match f.link with
    | some l => decide (l.pushed ≤ t.ckPopped l.dst)
    | none => true)

/-- tstart (R201, R242, R246, R255). A table that a waiting split or fuse can stop here goes no further. -/
def execTstart (s : State) : Result State :=
  s.onFrag fun f =>
    if s.me.reshapeReady s.curTable then .next s
    else if s.me.checkpointable f then
      let (s, t) := s.checkpoint s.cur s.curTable f.tbl
      let t := (t.stepped (t.upc + 1))
      .next (s.setTbl s.cur s.curTable { t with
        since := 0, st := if t.markStop then .stopped else t.st, markStop := false })
    else s.endFrag f

/-- SUSPECT_MARK (R207): the tiles become Suspect, and the event and the record name the deckle. -/
def State.markSuspect (s : State) (core h : Nat) (f : Frag) : State :=
  let s := s.setFrag core h { f with suspect := true }
  let s := s.setDie f.die ((s.die f.die).setTiles f.rect.tiles 3)
  (s.post f.die 4 (BitVec.ofNat 64 f.die) (BitVec.ofNat 64 f.deckle)).faultOf core 10 cPROOF_MISMATCH false 0
    (handleCode h) 0 0 (BitVec.ofNat 64 f.deckle)

/-- proof (R207, R239, R240). The rules state no contents for the proof registers after it: they are free (log 83). -/
def execProof (seed : BitVec 8) (bf : Bool) (literal : IWord) (s : State) : Result State :=
  s.onFrag fun f =>
    if proofSum seed.toNat bf f.h f.w = literal then
      let s : State := { s with freeCtr := s.freeCtr + 1 }
      .next (s.setFrag s.cur s.curTable { f with tbl := f.tbl.stepped (f.tbl.upc + 2), proof := s.freeCtr })
    else (s.markSuspect s.cur s.curTable f).failStep cPROOF_MISMATCH 0

/-- A channel's buffer as a matrix table sees it (R241): open or broken, with the table as a consumer. -/
def State.tableBuffer (s : State) (ch : Nat) : Option (Chan × CBuf × Consumer) :=
  match s.chan s.cur ch with
  | none => none
  | some x =>
    if x.st ≠ .open && x.st ≠ .broken then none
    else
      match x.cbuf with
      | none => none
      | some b => (b.consumer (1 + s.curTable)).map (fun c => (x, b, c))

/-- Adds claimed slots to a table's claims. -/
def addClaim (ch n : Nat) : List Claim → List Claim
  | [] => [⟨ch, n⟩]
  | c :: l => if c.ch = ch then { c with claimed := c.claimed + n } :: l else c :: addClaim ch n l

/-- cbwait (R241). -/
def execCbwait (ch : BitVec 3) (n : BitVec 8) (s : State) : Result State :=
  s.onFrag fun f =>
    let m := n.toNat + 1
    match s.tableBuffer ch.toNat with
    | none => s.failStep cFRAG_STATE 0
    | some (x, b, c) =>
      if m ≤ c.fill then
        let s := s.setChan s.cur ch.toNat { x with cbuf := some (b.claim (1 + s.curTable) m) }
        let t := { f.tbl with claims := addClaim ch.toNat m f.tbl.claims }
        s.endStep t (t.upc + 1)
      else if x.st = .broken then s.failStep cCHANNEL_BROKEN 0
      else s.waitStep f.tbl false

/-- cbfree (R241). -/
def execCbfree (ch : BitVec 3) (n : BitVec 8) (s : State) : Result State :=
  s.onFrag fun f =>
    let m := n.toNat + 1
    let t := f.tbl
    match s.tableBuffer ch.toNat with
    | none => s.failStep cFRAG_STATE 0
    | some _ =>
      match t.claims.find? (fun c => c.ch == ch.toNat) with
      | none => s.failStep cFRAG_STATE 0
      | some c =>
        if c.claimed < t.marked ch.toNat + m then s.failStep cFRAG_STATE 0
        else s.endStep { t with frees := t.frees ++ [(ch.toNat, m)] } (t.upc + 1)

/-- wmwait (R235). -/
def execWmwait (ch : BitVec 3) (gen : BitVec 2) (l : BitVec 16) (s : State) : Result State :=
  s.onFrag fun f =>
    let a := f.tbl.addr gen.toNat + BitVec.ofNat 64 (64 * (l.toNat + 1) - 1)
    match s.chan s.cur ch.toNat with
    | none => s.failStep cFRAG_STATE 0
    | some x =>
      if (x.st ≠ .open && x.st ≠ .broken) || x.len = 0 || x.base.toNat + x.len - 1 < a.toNat then
        s.failStep cFRAG_STATE 0
      else if a.ult x.base || a.ule x.wm then s.endStep f.tbl (f.tbl.upc + 1)
      else if x.st = .broken then s.failStep cCHANNEL_BROKEN 0
      else s.waitStep f.tbl false

/-- sigb (R235, R243): the arrival is one effect. It is counted once every write of every earlier step of the table is
performed (R322; `State.arrivalReady`). -/
def execSigb (cell : BitVec 9) (s : State) : Result State :=
  s.onTable fun t =>
    let e := (t.eseq + 1) % 2 ^ 48
    let u := { t with eseq := e, ehw := max t.ehw e }
    if t.ehw < e then
      match s.signalCell s.cur s.curTable cell.toNat with
      | (_, some cause) => s.failStep cause 0
      | (s, none) => s.endStep u (t.upc + 1)
    else s.endStep u (t.upc + 1)

/-- nest (R235). -/
def execNest (level : BitVec 3) (target : BitVec 8) (s : State) : Result State :=
  s.onTable fun t =>
    let l := level.toNat
    let i := t.idx.getD l 0 + 1
    if i < t.num l then s.endStep { t with idx := t.idx.set l i } target.toNat
    else s.endStep { t with idx := t.idx.set l 0 } (t.upc + 1)

/-- jmpt (R235). -/
def execJmpt (target : BitVec 8) (s : State) : Result State := s.onTable fun t => s.endStep t target.toNat

/-- haltt (R235, R257): HALTT wins over a stop of the same tick. The micro-PC that TSTAT shows afterwards (R256) is that of the
HALTT itself: DESIGN CHOICE, unsafe (log 105). -/
def execHaltt (s : State) : Result State :=
  s.onTable fun t =>
    .next (s.setTbl s.cur s.curTable { t.stepped t.upc with st := .halted, markStop := false })

/-- The step of a copy table whose command breaks its channel ends on the same cause (R248, R336, R349). The record of the
break carries the SEQ that the command would have taken (R334, R350). -/
def State.failOrder (s : State) (cause : Cause) (a : Word) : Result State :=
  let ch := s.curTable - 8
  let seq := (s.chan s.cur ch).elim 0 (fun x => x.seq + 1)
  (s.breakChan s.cur ch cause a seq 0).failStep cause a

/-- A copy order (R336, R361): the command enters the channel's queue, or the step waits for room. -/
def State.copyOrder (s : State) (x : Chan) (c : Cmd) : Result State :=
  let ch := s.curTable - 8
  match s.checkCmd s.cur ch c with
  | .bad cause a => ((s.touch s.cur a).answered s.cur).failOrder cause a
  | .wait a => (s.touch s.cur a).waitStep x.tbl false
  | .ok c =>
    let s := s.touchPages s.cur c.pins
    if !x.room true then s.waitStep x.tbl true
    else if !(s.die (dieOf s.cur)).canPin c.pins then s.waitStep x.tbl false
    else
      let s := s.pushCmd s.cur ch c
      match s.tbl s.cur s.curTable with
      | some t => s.endStep t (t.upc + 1)
      | none => .next s

/-- The command of a CPO or CPOT (R360, R361). -/
def Tbl.cpyOrder (t : Tbl) (sg dg mode : Nat) (cb : Bool) (time : Word) : Cmd :=
  Cmd.given .cpy (t.addr sg) (t.addr dg)
    (BitVec.ofNat 64 (t.num 0x40 % 2 ^ 32 * 2 ^ 32 + t.num 0x41 % 2 ^ 32)) time 0 mode cb t.frm t.sr true

/-- The issue time of a CPOT (R361). -/
def Tbl.orderTime (t : Tbl) : Word :=
  (List.range 6).foldl (fun a l => a + BitVec.ofNat 64 (t.idx.getD l 0) * mget t.lv (0x48 + l) 0) (mget t.lv 0x42 0)

/-- cpo (R361). -/
def execCpo (sg dg : BitVec 2) (sum : BitVec 2) (cb : Bool) (s : State) : Result State :=
  s.onChan fun x => s.copyOrder x (x.tbl.cpyOrder sg.toNat dg.toNat sum.toNat cb 0)
/-- cpot (R361). -/
def execCpot (sg dg : BitVec 2) (sum : BitVec 2) (cb : Bool) (s : State) : Result State :=
  s.onChan fun x => s.copyOrder x (x.tbl.cpyOrder sg.toNat dg.toNat sum.toNat cb x.tbl.orderTime)
/-- gto (R361): the index list stands at addr(XG), in the own core scratchpad. -/
def execGto (sg dg : BitVec 2) (sum : BitVec 2) (cb : Bool) (xg : BitVec 2) (s : State) : Result State :=
  s.onChan fun x =>
    let t := x.tbl
    s.copyOrder x (Cmd.given .gth (t.addr sg.toNat) (t.addr dg.toNat) (mget t.lv 0x43 0) 0 (t.addr xg.toNat)
      sum.toNat cb t.frm t.sr true)

/-- sumchk (R348, R361): a completion of mode 3 that adds nothing, after every command that was enqueued before it. While
it waits, `Tbl.row` holds the SEQ of the last of them. -/
def execSumchk (s : State) : Result State :=
  s.onChan fun x =>
    let limit := if x.tbl.inStep then x.tbl.row else x.seq
    if x.st = .broken then s.failStep cCHANNEL_BROKEN 0
    else if x.unfinished.any (fun c => decide (c.seq ≤ limit)) then s.waitStep { x.tbl with row := limit } false
    else
      let ch := s.curTable - 8
      let s := s.lastOf s.cur ch x x.exp limit 0
      match s.chan s.cur ch with
      | none => .next s
      | some y => if y.st = .broken then s.failStep cCOPY_SUM 0 else s.endStep y.tbl (y.tbl.upc + 1)

end Sys2Proof.Machine
end

