-- ==== Sys2Proof/Machine/Link.lean ====
section
/-! DEFINITION. The links and their training (R474 to R477), end-to-end retry (R478 to R480), the time exchange
(R481, R482), and windows (R483 to R497, R539). -/

namespace Sys2Proof.Machine

/-- Runs an operation with a strand of a group on its core: as it stands there, or from its save image (R496, R515).
Without either the answer is `d`. -/
def State.asStrand {α : Type} (s : State) (core : Nat) (group : Option Nat) (d : α) (f : State → State × α) :
    State × α :=
  if (s.strand core).group = group then f s
  else
    match group with
    | none => (s, d)
    | some g =>
      let key := imageKey g core
      match mfind s.images key with
      | none => (s, d)
      | some i =>
        let here := s.strand core
        let q := f (s.setStrand core i.strand)
        let t := q.1.strand core
        let s := q.1.setStrand core here
        ({ s with images := mset s.images key { i with strand := t } }, q.2)

/-- Fails the operations that a dead flow carried, where their issuers meet it (R117, R349, R479). -/
def State.failOps (s : State) (l : List FlowOp) : State :=
  l.foldl (fun s o => match o.use with
    | .strand seq => s.setStrand o.core ((s.strand o.core).supply seq (.error cLINK_DEAD 0) [])
    | .copy ch seq => s.failCopy cLINK_DEAD o.core ch seq
    | .write => s) s

/-- The flows between dies that cross a die's link. -/
def crosses (d key : Nat) : Bool := key / 48 == d || key % 48 / 8 == d

/-- The flows that cross a dead die link die (R479). -/
def State.killDieFlows (s : State) (d : Nat) : State :=
  let dead := (s.dieFlows.filter (fun f => crosses d f.1)).flatMap (fun f => f.2.ops)
  let s := { s with dieFlows := s.dieFlows.filter (fun f => !crosses d f.1) }
  s.failOps dead

/-- The free value that stands for a c.TVAL which the spec does not state; the counter goes on. -/
def State.fresh (s : State) : State × Word := ({ s with freeCtr := s.freeCtr + 1 }, Config.freeWord s.freeCtr)

/-- Handles of imports that are not broken. -/
def State.imports (s : State) : List Nat := (s.wins.filter (fun w => w.2.imp && w.2.broken == 0)).map (·.1)

/-- Without a fabric port, every flow between packages dies: those of import handles (R479). -/
def State.breakImports (s : State) : State :=
  if s.ports = [] then
    s.imports.foldl (fun s h => match mfind s.wins h with
      | some w =>
        match w.outs with
        | o :: _ => s.breakWin h cLINK_DEAD o.sq o.off 0
        | [] => s.breakWin h cLINK_DEAD w.sq 0 0
      | none => s) s
  else s

/-- A dead die link takes with it the flows of the import handles that have operations on their way across it
(R479). -/
def State.breakCrossing (s : State) (d : Nat) : State :=
  s.imports.foldl (fun s h => match (mfind s.wins h).bind (fun w => w.outs.find? (fun o => o.die == d)) with
    | some o => s.breakWin h cLINK_DEAD o.sq o.off 0
    | none => s) s

/-- WOPEN's lowest free index (R483). -/
def State.freeWinIndex (s : State) : Option Nat :=
  ((List.range 4095).map (· + 1)).find? fun i => (mfind s.wins i).isNone && (mfind s.wins (i + 2 ^ 15)).isNone

/-- The pages of an export window, in ascending address (R489 check 4). -/
def State.exportPages (s : State) (core asid : Nat) : Nat → Nat → Nat → List PinRef → Ext
  | 0, _, _, pages => .ok [] pages
  | k + 1, x, n, pages =>
    if n = 0 then .ok [] pages
    else
      match s.look core asid x with
      | .page => .bad cPAGE (BitVec.ofNat 64 x)
      | .request =>
        if s.pageRefused core asid x then .bad cPAGE (BitVec.ofNat 64 x) else .wait (BitVec.ofNat 64 x)
      | .leaf l =>
        let m := min n (l.va + l.size - x)
        if 2 ≤ l.tier then .bad cPROTECT (BitVec.ofNat 64 l.va)
        else
          match s.leafPlace l x m .atom (s.secureCore core) with
          | .at pa => State.exportPages s core asid k (x + m) (n - m) (pages ++ [⟨asid, l.va, pa - (x - l.va), l.size⟩])
          | .bad c => .bad c (BitVec.ofNat 64 x)
          | .wait => .wait (BitVec.ofNat 64 x)

/-- A new window entry. -/
def Win.opened (asid core : Nat) (imp : Bool) (base : Word) (len : Nat) (key : BitVec 32) (shared : Bool)
    (far farIndex : Nat) (pins : List PinRef) : Win :=
  { asid := asid, imp := imp, core := core, base := base, len := len, key := key, shared := shared, far := far,
    farIndex := farIndex, sent := 0, ackd := 0, rcvd := 0, sig := 0, broken := 0, closing := false, sq := 0,
    outs := [], pins := pins, top := ⟨0, 0⟩, born := 0 }

/-- Binds a window entry and writes its handle (R489). -/
def State.openWin (s : State) (o : OpE) (imp : Bool) (w : Win) : Result State :=
  match s.freeWinIndex with
  | none => s.trap cFRAG_STATE 0
  | some i =>
    let h := if imp then i + 2 ^ 15 else i
    let s := ({ s with wins := mset s.wins h { w with born := s.now } }).pin (dieOf s.cur) w.pins
    s.endWith (s.me.setG o.h.toNat (BitVec.ofNat 64 h))

/-- The shared banks of an export (R489): the first that the context does not hold. -/
def State.foreignBank (s : State) (asid : Nat) (o n : Nat) : Option Nat :=
  ((List.range ((o + n - 1) / 2 ^ 20 - o / 2 ^ 20 + 1)).map (· + o / 2 ^ 20)).find? (fun b => mfind s.banks b != some asid)

/-- wopen.exp (R489). -/
def execWopenExp (o : OpE) (s : State) : Result State :=
  s.src2 o.a o.ea o.b o.eb fun a b => s.dest o.h (
    let len := b.toNat % 2 ^ 32
    let global := decide (a.toNat < 2 ^ 56)
    let badLen := len % 2 ^ 16 != 0 || decide (len < 2 ^ 16) || decide (0xFFFF0000 < len)
    match s.me.asid with
    | none => s.trap cWINDOW a
    | some asid =>
      if global then
        if a.toNat % 2 ^ 16 != 0 then s.trap cMISALIGN a
        else if badLen || decide (2 ^ 56 < a.toNat + len) then s.trap cWINDOW (BitVec.ofNat 64 len)
        else
          s.resolved (s.exportPages s.cur asid (len / 2 ^ 16 + 1) a.toNat len []) (fun s _ pages =>
            if !(s.die (dieOf s.cur)).canPin pages then .next (s.stall (.until .pinned))
            else s.openWin o false (Win.opened asid s.cur false a len (b.extractLsb' 32 32) false 0 0 pages))
            (fun a => .until (.translated a))
      else if !isShared a.toNat then s.trap cWINDOW a
      else
        let p := a.toNat - 0xFF20000000000000
        if a.toNat % 2 ^ 20 != 0 then s.trap cMISALIGN a
        else if badLen || decide (Config.sharedBytes < p + len) then s.trap cWINDOW (BitVec.ofNat 64 len)
        else
          match s.foreignBank asid p len with
          | some g => s.trap cPROTECT (BitVec.ofNat 64 (0xFF20000000000000 + max p (g * 2 ^ 20)))
          | none => s.openWin o false (Win.opened asid s.cur false a len (b.extractLsb' 32 32) true 0 0 []))

/-- What this package answers to an import of one of its windows (R489): the export, if it is live, the key agrees and its
context is of the importer's world. -/
def State.exportFor (s : State) (index : Nat) (key : BitVec 32) (secure : Bool) : Option Win :=
  (mfind s.wins index).bind fun w =>
    if w.imp || w.key != key || (s.ctx w.asid).secure != secure then none else some w

/-- What an import request comes to: the length and the kind of the far window, a refusal, or no answer. -/
inductive Import where
  | granted (len : Nat) (shared : Bool)
  | refused
  | unreached
  deriving DecidableEq, Repr

/-- The answer to an import request (R489): that of this package where it names itself, and else the environment's
choice. -/
def State.importAnswer (s : State) (far index : Nat) (key : BitVec 32) (secure : Bool) : Import :=
  if s.ports = [] || 288 ≤ far then .unreached
  else if far = s.fabid.toNat then
    match s.exportFor index key secure with
    | some w => .granted w.len w.shared
    | none => .refused
  else if s.choice.reply = 2 then .unreached
  else if s.choice.reply = 1 then .refused
  else .granted s.choice.replyLen s.choice.replyShared

/-- wopen.imp (R489). -/
def execWopenImp (o : OpE) (s : State) : Result State :=
  s.src2 o.a o.ea o.b o.eb fun a b => s.dest o.h (
    let far := a.toNat % 512
    let index := a.toNat / 2 ^ 16 % 2 ^ 12
    match s.me.asid with
    | none => s.trap cWINDOW a
    | some asid =>
      match s.importAnswer far index (b.setWidth 32) (s.ctx asid).secure with
      | .unreached => s.trap cLINK_DEAD 0
      | .refused =>
        let (s, tv) := s.fresh
        s.trap cWINDOW tv
      | .granted len shared =>
        s.openWin o true (Win.opened asid s.cur true 0 len (b.setWidth 32) shared far index []))

/-- A handle of the strand's context and of a kind (R483, R487). -/
def State.winGate (s : State) (g : Word) (imp : Bool) (k : Nat → Win → Result State) : Result State :=
  let h := g.toNat
  match mfind s.wins h with
  | none => s.trap cWINDOW g
  | some w =>
    if some w.asid != s.me.asid || w.imp != imp then s.trap cWINDOW g else k h w

/-- The cause of a broken handle (R495): LINK_DEAD has no c.TVAL, WINDOW the offset, and for the others the
spec names none. -/
def State.raiseBreak (s : State) (cause : Cause) (off : Word) : Result State :=
  if cause = cLINK_DEAD || cause = cRING then s.trap cause 0
  else if cause = cWINDOW then s.trap cause off
  else
    let (s, tv) := s.fresh
    s.trap cause tv

/-- Entries of a die's window queue (R490). -/
def winEntries : Nat := 16

/-- Enqueues an operation on a handle (R484, R490). -/
def State.pushWin (s : State) (w : Win) (op : WinOp) : Result State :=
  let d := dieOf s.cur
  if winEntries ≤ (s.die d).winq.length then .next (s.stall .windowQueue)
  else if !(s.die d).canPin op.pins then .next (s.stall .pins)
  else
    let s := s.setDie d { s.die d with winq := (s.die d).winq ++ [{ op with id := s.nextId }] }
    let s := { s with nextId := s.nextId + 1, wins := mset s.wins op.handle { w with sent := bump48 w.sent } }
    let s := s.pin d op.pins
    s.endWith s.me

/-- WWR and WWRS (R490). -/
def windowWrite (signal : Bool) (o : OpE) (red : BitVec 2) (s : State) : Result State :=
  s.src3 o.h false o.a o.ea o.b o.eb fun g a b =>
    let off := b.toNat / 2 ^ 32
    let len := b.toNat % 2 ^ 32
    let offW : Word := BitVec.ofNat 64 off
    s.winGate g true fun h w =>
      if w.broken != 0 then s.raiseBreak w.broken offW
      else if a.toNat % 4 != 0 then s.trap cMISALIGN a
      else if off % 4 != 0 then s.trap cMISALIGN offW
      else if len % 4 != 0 then s.trap cMISALIGN (BitVec.ofNat 64 len)
      else if w.len < off + len || (red != 0 && !w.shared) then s.trap cWINDOW offW
      else
        s.resolved (s.extent s.cur false a extentRuns a.toNat len []) fun s l pages =>
          s.pushWin w { id := 0, core := s.cur, group := s.me.group, asid := w.asid, handle := h, src := a, off := off, len := len,
                        red := red, signal := signal, atom := false, op := 0, operand := 0, srcp := l, pins := pages }
/-- wwr (R490). -/
def execWwr (o : OpE) (red : BitVec 2) (s : State) : Result State := windowWrite false o red s
/-- wwrs (R490, R493). -/
def execWwrs (o : OpE) (red : BitVec 2) (s : State) : Result State := windowWrite true o red s

/-- watom (R491): the alignment of the offset is checked before the handle (R118). -/
def execWatom (o : OpE) (wide : Bool) (op : BitVec 3) (s : State) : Result State :=
  s.src3 o.h false o.a o.ea o.b o.eb fun g a x =>
    let n := if wide then 8 else 4
    if a.toNat % n != 0 then s.trap cMISALIGN a else
    s.winGate g true fun h w =>
      if w.broken != 0 then s.raiseBreak w.broken a
      else if w.len < a.toNat + n then s.trap cWINDOW a
      else
        s.pushWin w { id := 0, core := s.cur, group := s.me.group, asid := w.asid, handle := h, src := 0, off := a.toNat, len := n, red := 0,
                      signal := false, atom := true, op := BitVec.ofBool wide ++ op, operand := x, srcp := [], pins := [] }

/-- WCNT of a counter that one end keeps (R492). -/
def windowCount (imp : Bool) (f : Win → Nat) (o : OpE) (s : State) : Result State :=
  s.src1 o.h false fun g => s.winGate g imp fun _ w => s.produce o.b (.word (BitVec.ofNat 64 (f w)))
/-- wcnt.sent (R492). -/
def execWcntSent (o : OpE) (s : State) : Result State := windowCount true Win.sent o s
/-- wcnt.ackd (R492). -/
def execWcntAckd (o : OpE) (s : State) : Result State := windowCount true Win.ackd o s
/-- wcnt.rcvd (R492). -/
def execWcntRcvd (o : OpE) (s : State) : Result State := windowCount false Win.rcvd o s
/-- wcnt.sig (R492). -/
def execWcntSig (o : OpE) (s : State) : Result State := windowCount false Win.sig o s

/-- Operations of a handle that wait in the dies' window queues. -/
def State.queuedOps (s : State) (handle : Nat) : Nat :=
  ((List.range 6).map (fun d => ((s.die d).winq.filter (fun o => o.handle == handle)).length)).sum
/-- wcnt.stat (R492): either end. -/
def execWcntStat (o : OpE) (s : State) : Result State :=
  s.src1 o.h false fun g =>
    s.winGate g (g.getLsbD 15) fun h w =>
      s.produce o.b (.word (BitVec.ofNat 64
        (w.broken.toNat * 2 ^ 56 + (w.broken != 0).toNat * 2 ^ 48 + s.queuedOps h % 2 ^ 48)))

/-- The counter that a WWAIT names (R493). -/
def Win.counter (w : Win) (q : Nat) : Nat :=
  match q with
  | 1 => w.ackd
  | 2 => w.rcvd
  | _ => w.sig

/-- WWAIT (R486, R493). -/
def windowWait (q : Nat) (o : OpE) (s : State) : Result State :=
  s.src2 o.h false o.a o.ea fun g n =>
    s.winGate g (q == 1) fun h w =>
      if n.toNat ≤ w.counter q then
        let s := if q = 1 then s else s.acquireWindow s.cur h
        s.endWith s.me
      else if w.broken != 0 then s.raiseBreak w.broken 0
      else .next (s.stall (.until (.winCount h q n)))
/-- wwait.ackd (R493). -/
def execWwaitAckd (o : OpE) (s : State) : Result State := windowWait 1 o s
/-- wwait.rcvd (R486, R493). -/
def execWwaitRcvd (o : OpE) (s : State) : Result State := windowWait 2 o s
/-- wwait.sig (R486, R493). -/
def execWwaitSig (o : OpE) (s : State) : Result State := windowWait 3 o s

/-- A channel with an unbegun copy through a handle. -/
def Chan.usesWin (x : Chan) (handle : Nat) : Bool := x.unbegun.any (fun c => c.wd && c.win == handle)

/-- The strands of a context: on their cores, and saved. -/
def State.strandsOf (s : State) (asid : Nat) : List Strand :=
  (((s.cores.map (fun c => c.2.strand)) ++ (s.images.map (fun i => i.2.strand))).filter (fun t => t.asid == some asid))

/-- An import handle has settled (R494): no copy that names it is unbegun, and its operations are acknowledged, or
it is broken. -/
def State.winSettled (s : State) (handle : Nat) : Bool :=
  match mfind s.wins handle with
  | none => true
  | some w =>
    !((s.strandsOf w.asid).any (fun t => t.chan.any (fun c => c.2.usesWin handle))) &&
      (w.ackd == w.sent || w.broken != 0)

/-- A flow whose export closes (R494): what it holds is refused, and so is everything that arrives on it from then on. -/
def RecvFlow.close (f : RecvFlow) : RecvFlow :=
  { f with
    closed := true, held := [], parts := [],
    answer := match f.held with
      | (n, _) :: _ => some (.refused (n % 2 ^ 32))
      | [] => f.answer }

/-- Frees a window entry: its pins, and what waits for it (R494). -/
def State.freeWin (s : State) (handle : Nat) : State :=
  match mfind s.wins handle with
  | none => s
  | some w =>
    let close := fun (f : Nat × RecvFlow) => (f.1, if f.2.window = some handle then f.2.close else f.2)
    let s : State := { s with wins := mdel s.wins handle, recv := if w.imp then s.recv else s.recv.map close }
    (s.dropWinOps (fun o => o.handle == handle)).unpin (dieOf w.core) w.pins

/-- wclose (R494): every operation that an export accepted is already performed. -/
def execWclose (o : OpE) (s : State) : Result State :=
  match s.me.wait with
  | some w =>
    if s.winSettled w.a then
      let s := s.freeWin w.a
      s.endWith s.me
    else .next (s.waitOn w (.winSettled w.a))
  | none =>
    s.src1 o.h false fun g =>
      s.winGate g (g.getLsbD 15) fun h w =>
        if w.closing then s.trap cWINDOW (BitVec.ofNat 64 h)
        else if w.imp && !s.winSettled h then
          let s := { s with wins := mset s.wins h { w with closing := true } }
          .next (s.waitOn ⟨1, h, 0, s.now⟩ (.winSettled h))
        else
          let s := s.freeWin h
          s.endWith s.me

/-- The window operations of a killed strand that were not sent (R496): SENT drops by their number. -/
def State.killWinOps (s : State) (core : Nat) : State :=
  let mine := fun (o : WinOp) => o.core == core && o.group == (s.strand core).group
  let l := (List.range 6).flatMap (fun d => (s.die d).winq.filter mine)
  let s := s.dropWinOps mine
  l.foldl (fun s o => match mfind s.wins o.handle with
    | some w => { s with wins := mset s.wins o.handle { w with sent := (w.sent + 2 ^ 48 - 1) % 2 ^ 48 } }
    | none => s) s

/-- The handles of a context are freed (R496). -/
def State.freeWins (s : State) (asid : Nat) : State :=
  (s.wins.filter (fun w => w.2.asid == asid)).foldl (fun s w => s.freeWin w.1) s

/-- A WWRS is performed behind every operation of its handle that was enqueued before it (R493), so it is sent behind
those that wait at any die. -/
def State.signalWaits (s : State) (o : WinOp) : Bool :=
  o.signal && (List.range 6).any fun d =>
    (s.die d).winq.any (fun x => x.handle == o.handle && decide (x.id < o.id))

/-- The next operation of a die's window queue that may be sent: no PFENCE holds it, and it is behind no earlier one of
its handle (R325, R490, R493). -/
def State.nextWinOp (s : State) (l : List WinOp) (skipped : List Nat) : Option WinOp :=
  match l with
  | [] => none
  | o :: os =>
    if (s.asStrand o.core o.group false (fun s => (s, s.heldBack o.core 4 o.id))).2 || s.signalWaits o ||
        skipped.contains o.handle then s.nextWinOp os (o.handle :: skipped) else some o

/-- The read of an operation's source, from its strand's view (R490, R507): the bytes, or the error met with its
syndrome (R470). -/
def State.winSource (s : State) (core : Nat) : List (Nat × Nat) → State × List Byte × Option (Cause × Word)
  | [] => (s, [], none)
  | (pa, n) :: l =>
    let r := s.read core pa n
    match r.err with
    | some c => (r.s, [], some (c, s.readSyndrome c pa))
    | none =>
      let q := r.s.winSource core l
      (q.1, r.bytes ++ q.2.1, q.2.2)

/-- What an operation of a window queue carries to the far end (R490, R491): for an atomic its operand, else the bytes
read. -/
def WinOp.remote (o : WinOp) (w : Win) (bs : List Byte) : RemoteOp :=
  if o.atom then .atom w.farIndex o.off (o.op.extractLsb' 0 3) (o.op.getLsbD 3) o.operand
  else .write w.farIndex o.off o.red bs o.signal

/-- WINDOW_OP_SEND (R490, R495). -/
def execWindowOpSend (die : Nat) (s : State) : Result State :=
  if Config.dies ≤ die then .fault .noSuchObject
  else
    match s.nextWinOp (s.die die).winq [] with
    | none => .next s
    | some op =>
      match mfind s.wins op.handle with
      | none => .next s
      | some w =>
        let s := (s.setDie die { s.die die with winq := (s.die die).winq.erase op }).unpin die op.pins
        match s.ports with
        | [] => .next (s.breakWin op.handle cLINK_DEAD w.sq op.off 0)
        | p :: _ =>
          match s.asStrand op.core op.group ([], none) (fun s => s.winSource op.core op.srcp) with
          | (s, _, some (c, aux)) => .next (s.breakWin op.handle c w.sq op.off aux)
          | (s, bs, none) =>
            .next { s with wins := mset s.wins op.handle { w with
              sq := (w.sq + 1) % 2 ^ 32,
              outs := w.outs ++ [⟨w.sq, 0, p, die, s.now, op.off, none, .op (op.remote w bs)⟩] } }

/-- Where a byte of an export window lies (R485): in the pages that WOPEN resolved, or a shared bank. -/
def Win.place (w : Win) (off : Nat) : Option Nat :=
  let a := w.base.toNat + off
  if w.shared then some (sharedPa a)
  else (w.pins.find? (fun p => decide (p.va ≤ a) && decide (a < p.va + p.size))).map (fun p => p.pa + (a - p.va))

/-- Some bytes of a window split at line ends, with their places. -/
def Win.lines (w : Win) (off : Nat) (bs : List Byte) : List (Nat × List Byte) :=
  let a := w.base.toNat + off
  (splitLines (bs.length / 64 + 2) a bs).filterMap (fun l => (w.place (l.1 - w.base.toNat)).map (fun pa => (pa, l.2)))

/-- Where the records of a line are pressed from before a window write of it (R295, R320, R485): the die of a cluster L1
that owns it, or its home. -/
def State.windowDie (s : State) (pa : Nat) : Nat := (mfind s.owned (pa / 64)).elim (homeDie pa) (fun l1 => dieOf (4 * l1))

/-- A window write of one line (R485): at its home without a key check after the pressing of R295, or in place. -/
def State.windowLine (s : State) (w : Win) (pa : Nat) (bs : List Byte) : State × Key :=
  if isGlobal pa then
    let line := pa / 64
    let s := s.pressLine line [s.windowDie pa] Config.cores
    let key := nextKey (s.lineKey line) w.core
    let p := partOf pa (allBytes bs)
    let s := (s.putHome line (mergeLine (s.lineData line) p.data p.mask) key).repair line p.mask
    ({ s with owned := mdel s.owned line }, key)
  else (s.putLine pa (allBytes bs), ⟨0, 0⟩)

/-- One element of a reduction (R490). -/
def reduceElem (red : Nat) (old x : Nat) : Nat :=
  match red with
  | 1 => (rne32 (addVal 0 (v32 old) (v32 x)).1).1
  | 2 => (roundVal .bf16 0 false 0 (addVal 0 (valOf .bf16 old) (valOf .bf16 x)).1).1
  | _ => (old + x) % 2 ^ 32

/-- The bytes that a window write leaves at a place (R490). -/
def State.reduced (s : State) (red : BitVec 2) (pa : Nat) (bs : List Byte) : List Byte :=
  if red = 0 then bs
  else
    let n := if red = 2 then 2 else 4
    ((runsOf n (bs.length + 1) (memBytes s.mem pa bs.length)).zip (runsOf n (bs.length + 1) bs)).flatMap
      (fun x => codeBytes n (reduceElem red.toNat (codeOf x.1) (codeOf x.2)))

/-- The later of two keys. -/
def maxKey (a b : Key) : Key := if keyLe a b then b else a

/-- The export that an operation names. -/
def remoteWindow : RemoteOp → Nat
  | .write i _ _ _ _ => i
  | .atom i _ _ _ _ => i
  | .copy i _ _ _ _ => i

/-- A WWRS. -/
def remoteSignals : RemoteOp → Bool
  | .write _ _ _ _ b => b
  | .atom _ _ _ _ _ => false
  | .copy _ _ _ _ _ => false

/-- An export takes an operation: it lies within its bounds, a reduction names a shared window, and a copy arrives line by
line (R490, R491, R539). -/
def Win.takes (w : Win) (op : RemoteOp) : Bool :=
  !w.imp && match op with
    | .write _ off red bs _ => decide (off + bs.length ≤ w.len) && (red == 0 || w.shared)
    | .atom _ off _ wide _ => decide (off + (if wide then 8 else 4) ≤ w.len) && (w.place off).isSome
    | .copy _ off len at_ bs => decide (off + len ≤ w.len) && decide (at_ + bs.length ≤ len) &&
        (at_ == 0 || (off + at_) % 64 == 0) && bs.length == min (64 - (off + at_) % 64) (len - at_)

/-- Writes of an operation are performed at their homes (R485, R490); the state, and the greatest key that they gave. -/
def State.writeRemote (s : State) (w : Win) (off : Nat) (red : BitVec 2) (bs : List Byte) : State × Key :=
  (w.lines off bs).foldl (fun (r : State × Key) l =>
    let q := r.1.windowLine w l.1 (r.1.reduced red l.1 l.2)
    (q.1, maxKey r.2 q.2)) (s, w.top)

/-- What an operation does at the far end (R485, R490, R491): the state, and the greatest key given. -/
def State.applyRemote (s : State) (w : Win) (op : RemoteOp) : State × Key :=
  match op with
  | .write _ off red bs _ => s.writeRemote w off red bs
  | .copy _ off _ at_ bs => s.writeRemote w (off + at_) 0 bs
  | .atom _ off op wide x =>
    match w.place off with
    | none => (s, w.top)
    | some pa =>
      let n := if wide then 8 else 4
      let s := if isGlobal pa then s.pressLine (pa / 64) [s.windowDie pa] Config.cores else s
      let v := opval op.toNat (if wide then 3 else 2) (memNat s.mem pa n) (x.toNat % 2 ^ (8 * n)) 0
      s.windowLine w pa (natBytes n v)

/-- WINDOW_OP_PERFORM (R485, R490, R491): an operation of a live window within its bounds. A copy counts with its last line
(R539), which `last` says. -/
def State.performRemote (s : State) (op : RemoteOp) (last : Bool) : State :=
  match mfind s.wins (remoteWindow op) with
  | none => s
  | some w =>
    if !w.takes op then s
    else
      let q := s.applyRemote w op
      let w := { w with top := maxKey w.top q.2 }
      { q.1 with wins := mset q.1.wins (remoteWindow op) (if last then
          { w with rcvd := bump48 w.rcvd, sig := if remoteSignals op then bump48 w.sig else w.sig } else w) }

/-- The receiving end of a flow to which nothing has come (R480). -/
def RecvFlow.start : RecvFlow := ⟨0, [], [], none, false, [], none⟩

/-- The receiving end has a number (R480). -/
def RecvFlow.has (f : RecvFlow) (n : Nat) : Bool := decide (n < f.next) || f.got.contains n

/-- A number is received (R480): its bit is set, and NEXT advances. -/
def RecvFlow.receive (f : RecvFlow) (n : Nat) : RecvFlow :=
  let got := n :: f.got
  let next := advance got got.length f.next
  { f with next := next, got := got.filter (fun x => decide (next ≤ x)), parts := f.parts.filter (fun x => x.1 != n) }

/-- Replaces the receiving end of a flow. -/
def State.setRecv (s : State) (key : Nat) (f : RecvFlow) : State := { s with recv := mset s.recv key f }

/-- WWRS that waited, once every earlier operation of their handle is performed (R493), in ascending SQ; the count
bounds them. -/
def State.performHeld (s : State) (key : Nat) : Nat → State
  | 0 => s
  | k + 1 =>
    match mfind s.recv key with
    | none => s
    | some f =>
      match f.held with
      | (sq, op) :: rest =>
        if sq < f.next then
          let s := s.setRecv key { f with held := rest, answer := some (.acknowledged (sq % 2 ^ 32)) }
          (s.performRemote op true).performHeld key k
        else s
      | [] => s

/-- Puts a held operation into its place. -/
def insertHeld (x : Nat × RemoteOp) : List (Nat × RemoteOp) → List (Nat × RemoteOp)
  | [] => [x]
  | y :: l => if x.1 ≤ y.1 then x :: y :: l else y :: insertHeld x l

/-- A duplicate is counted in LDUP of the link on which it arrives (R477, R480). -/
def State.countDup (s : State) (n : Nat) : State := s.setLink n { s.link n with dup := bump48 (s.link n).dup }

/-- The window of a flow takes an operation that arrives (R494): the flow belongs to the window from its first operation
on, and a flow whose window has been closed stays refused, whatever has been opened under that index since. A window opened
in this tick is named by no import yet (R497). -/
def State.accepts (s : State) (f : RecvFlow) (op : RemoteOp) : Bool :=
  match mfind s.wins (remoteWindow op) with
  | none => false
  | some w => !f.closed && (if f.window.isNone then decide (w.born < s.now) else f.window == some (remoteWindow op)) && w.takes op

/-- An operation is received and performed (R480), a WWRS behind every earlier one of its handle (R493). -/
def State.receiveOp (s : State) (key : Nat) (f : RecvFlow) (n : Nat) (op : RemoteOp) : State :=
  let f := f.receive n
  if remoteSignals op then
    let f := { f with held := insertHeld (n, op) f.held }
    (s.setRecv key f).performHeld key f.held.length
  else
    let f := { f with answer := some (.acknowledged (n % 2 ^ 32)) }
    ((s.setRecv key f).performRemote op true).performHeld key f.held.length

/-- An operation of an import handle arrives at a fabric port (R480, R494): a duplicate is suppressed, counted and
acknowledged again; one too far ahead is dropped; a window that does not take it refuses it; and a line of a copy that is
not its last one is performed, but not counted yet (R539). -/
def State.arriveWindow (s : State) (port key sq : Nat) (op : RemoteOp) : State :=
  let f := if s.choice.anew then RecvFlow.start else mget s.recv key RecvFlow.start
  match unwrapSq f.next sq with
  | none => s.countDup port
  | some n =>
    if f.has n then
      let again := if f.held.any (fun x => x.1 == n) || f.closed then f else { f with answer := some (.acknowledged sq) }
      (s.countDup port).setRecv key again
    else if f.next + 256 ≤ n then s
    else if !s.accepts f op then s.setRecv key { f with answer := some (.refused sq) }
    else
      let f := { f with window := some (remoteWindow op) }
      match op with
      | .copy _ off len at_ _ =>
        if f.parts.contains (n, at_) then s.countDup port
        else if (f.parts.filter (fun x => x.1 == n)).length + 1 < (lineSizes off len).length then
          (s.setRecv key { f with parts := (n, at_) :: f.parts }).performRemote op false
        else s.receiveOp key f n op
      | _ => s.receiveOp key f n op

/-- An operation between dies arrives (R480): a duplicate is suppressed and counted at the destination's link; another has
arrived, and its own event performs it. -/
def State.arriveDie (s : State) (src dst path sq : Nat) : State :=
  match mfind s.dieFlows (flowKey src dst path) with
  | none => s
  | some f =>
    match unwrapSq f.next sq with
    | none => s.countDup (32 + dst)
    | some n =>
      if f.has n then s.countDup (32 + dst)
      else if f.next + 256 ≤ n || !f.ops.any (fun o => o.sq == sq) then s
      else { s with dieFlows := mset s.dieFlows (flowKey src dst path) (f.receive n) }

/-- OPERATION_ARRIVAL (R480, R485, R493): of a flow from package `src` and its import handle `target`, or between the dies
`src` and `target`. -/
def execOperationArrival (src target sq : Nat) (op : Inbound) (s : State) : Result State :=
  match op with
  | .window port op =>
    if 18 ≤ port || !(s.link port).live then .next s else .next (s.arriveWindow port (src * 65536 + target) sq op)
  | .dies path => if 6 ≤ src || 6 ≤ target then .next s else .next (s.arriveDie src target path sq)

/-- The run that an operation of an import handle belongs to, with its channel. -/
def State.sentRun (s : State) (o : Sent) : Option (Nat × Nat × Chan × Run) :=
  o.chan.bind fun k => (s.chan k.1 k.2.1).bind fun x => (x.runOf k.2.2).map fun r => (k.1, k.2.1, x, r)

/-- An operation of an import handle is acknowledged (R484), a copy once every line of it is performed at the far end
(R539), or the far window refuses it (R494, R495). -/
def State.ackWin (s : State) (handle sq : Nat) : State :=
  match mfind s.wins handle with
  | none => s
  | some w =>
    match w.outs.find? (fun o => o.sq == sq) with
    | none => s
    | some o =>
      if s.choice.reply = 1 then s.breakWin handle cWINDOW o.sq o.off 0
      else
        let t := { s with wins := mset s.wins handle { w with ackd := bump48 w.ackd, outs := w.outs.erase o } }
        match s.sentRun o with
        | none => t
        | some (core, ch, x, r) => if r.sent then t.ackRun core ch x r else s

/-- Ticks of the retry timers (R479). -/
def dieRetryTicks : Nat := 512
def portRetryTicks : Nat := 8192
/-- Attempts after which a flow is dead (R479). -/
def retryLimit : Nat := 8

/-- The timer of an operation between packages is held: it crosses a die link that trains (R479). -/
def State.timerHeld (s : State) (o : Sent) : Bool :=
  decide (s.now < o.tick + portRetryTicks) || (s.link (32 + o.die)).st == .training

/-- The timer of an operation of an import handle expires (R479, R495). -/
def State.retryWin (s : State) (handle sq : Nat) : State :=
  match mfind s.wins handle with
  | none => s
  | some w =>
    match w.outs.find? (fun o => o.sq == sq) with
    | none => s
    | some o =>
      if s.timerHeld o then s
      else
        let s := s.countDrops o.port
        if retryLimit ≤ o.attempts + 1 then s.breakWin handle cLINK_DEAD sq o.off 0
        else
        match s.nextPort o.port with
        | none => s.breakWin handle cLINK_DEAD sq o.off 0
        | some p =>
          let s := s.setLink p { s.link p with retry := bump48 (s.link p).retry }
          { s with wins := mset s.wins handle { w with outs := w.outs.map (fun x =>
              if x = o then { o with attempts := o.attempts + 1, port := p, tick := s.now } else x) } }

/-- The timer of an operation between dies expires (R479). -/
def State.retryDies (s : State) (key sq : Nat) : State :=
  match mfind s.dieFlows key with
  | none => s
  | some f =>
    match f.ops.find? (fun o => o.sq == sq) with
    | none => s
    | some o =>
      let a := 32 + key / 48
      let b := 32 + key % 48 / 8
      if s.now < o.tick + dieRetryTicks || (s.link a).st = .training || (s.link b).st = .training then s
      else
      let s := s.countDrops a
      if retryLimit ≤ o.attempts + 1 then
        ({ s with dieFlows := mdel s.dieFlows key }).failOps f.ops
      else
        let s := s.setLink a { s.link a with retry := bump48 (s.link a).retry }
        { s with dieFlows := mset s.dieFlows key { f with ops := f.ops.map (fun x =>
            if x = o then { o with attempts := o.attempts + 1, tick := s.now } else x) } }

/-- A link that a die's alignment path uses (R482). -/
def State.aligns (s : State) (n : Nat) : Bool :=
  (List.range 6).any (fun d => ((s.die d).path.getD []).contains n)

/-- c.PTSKEW with LOCK and FAB (R482): the sum of the LSKEW figures along the alignment path, or all ones without one. -/
def skewWord (bound : Option Nat) (old : Word) : Word :=
  (match bound with
    | some n => BitVec.ofNat 64 (2 ^ 40 + min n (2 ^ 32 - 1) * 2 ^ 8)
    | none => 0xFFFFFFFF00) ||| (old &&& 0xFF)

/-- A die has no alignment path any more (R477, R482): its links that no other die's path uses are unaligned. -/
def State.unalign (s : State) (d : Nat) : State :=
  let old := (s.die d).path.getD []
  let s := s.setDie d { s.die d with path := none, skew := skewWord none (s.die d).skew }
  old.foldl (fun s n => if s.aligns n then s else s.setLink n { s.link n with skew := 2 ^ 32 - 1 }) s

/-- A die's alignment path with the bounds that its exchange found (R477, R482): FAB, and the LSKEW of a link that a path
uses, change only with the path. -/
def State.align (s : State) (d : Nat) (path : List (Nat × BitVec 32)) : State :=
  if (s.die d).path = some (path.map (·.1)) then s
  else
    let s := s.unalign d
    let s := path.foldl (fun s l => if s.aligns l.1 then s else s.setLink l.1 { s.link l.1 with skew := l.2.toNat }) s
    let bound := (path.map (fun l => (s.link l.1).skew)).sum
    s.setDie d { s.die d with path := some (path.map (·.1)), skew := skewWord (some bound) (s.die d).skew }

/-- A path over which a die is aligned (R481, R482): links that carry flits, the time master's among them. -/
def State.mayAlign (s : State) (path : List (Nat × BitVec 32)) : Bool :=
  path.all (fun l => isLink l.1 && (s.link l.1).live) && (s.master.all (fun m => path.any (fun l => l.1 == m)))

/-- A die's counter, less the ticks that a slew holds back from it. -/
def Die.time (x : Die) : Int := (x.ptime.toNat : Int) - (x.lag : Int)

/-- A die's counter stays within DIE of every other present die's (R482). -/
def State.inStep (s : State) (d : Nat) (x : Die) : Bool :=
  (List.range 6).all fun e => e == d || !(s.die e).present || decide ((x.time - (s.die e).time).natAbs ≤ 2)

/-- A die's counter with what an exchange slews (R481): at most once in 1,024 ticks, and never out of step. -/
def State.slew (s : State) (d : Nat) (slew : Slew) : Die :=
  let x := s.die d
  let y : Die := match slew with
    | .none => x
    | .hold => { x with slewed := s.now + 1024, lag := x.lag + 1 }
    | .double => { x with slewed := s.now + 1024, ptime := x.ptime + 1 }
  if s.now < x.slewed || !s.inStep d y then x else y

/-- TIME_EXCHANGE (R477, R481, R482): the path of the alignment with its bounds, and a slew. -/
def execTimeExchange (die : Nat) (slew : Slew) (path : Option (List (Nat × BitVec 32))) (s : State) : Result State :=
  if Config.dies ≤ die then .fault .noSuchObject
  else
    let s := match path with
      | some l => if s.mayAlign l then s.align die l else s.unalign die
      | none => s.unalign die
    .next (s.setDie die (s.slew die slew))

/-- Ticks in which a die link trains hold the timers of the operations that cross it (R479). -/
def State.holdTimers (s : State) (n : Nat) : State :=
  let trains := fun (d : Nat) => (s.link (32 + d)).st == .training
  if (List.range 6).any trains then
    let out := fun (o : Sent) => if trains o.die then { o with tick := o.tick + n } else o
    let op := fun (k : Nat) (o : FlowOp) => if trains (k / 48) || trains (k % 48 / 8) then { o with tick := o.tick + n } else o
    { s with
      wins := s.wins.map (fun w => (w.1, { w.2 with outs := w.2.outs.map out }))
      rings := s.rings.map (fun r => (r.1, { r.2 with outs := r.2.outs.map out }))
      dieFlows := s.dieFlows.map (fun f => (f.1, { f.2 with ops := f.2.ops.map (op f.1) })) }
  else s

end Sys2Proof.Machine
end

