-- ==== Sys2Proof/Machine/Ring.lean ====
section
/-! DEFINITION. The rotation ring (R498 to R516), the links' events (R475 to R477), and the acknowledgements and
timers of every flow (R479). -/

namespace Sys2Proof.Machine

/-- Ring entries of the package (R498). -/
def ringEntries : Nat := 64
/-- The handle of a ring entry (R498). -/
def ringHandle (i : Nat) : Nat := 2 ^ 14 + i

/-- The member strand of a ring (R498). -/
def Ring.member (r : Ring) (core : Nat) (t : Strand) : Bool :=
  r.core == core && r.asid == t.asid && r.group == t.group && t.st != .absent

/-- Runs an operation with the member strand on its core (R515). -/
def State.asMember {α : Type} (s : State) (r : Ring) (d : α) (f : State → State × α) : State × α :=
  s.asStrand r.core r.group d f

/-- Replaces a ring entry. -/
def State.setRing (s : State) (i : Nat) (r : Ring) : State := { s with rings := mset s.rings i r }

/-- The rings of a member strand. -/
def State.ringsOf (s : State) (core : Nat) : List Nat :=
  (s.rings.filter (fun r => r.2.member core (s.strand core))).map (·.1)

/-- The states in which a ring can break (R501). -/
def Ring.up (r : Ring) : Bool := r.st == .joining || r.st == .live || r.st == .draining

/-- Frees an entry (R514): the channel keeps its state, its buffer and its fills; the fences of the member name the
ring no longer. -/
def State.freeRing (s : State) (i : Nat) : State :=
  match mfind s.rings i with
  | none => s
  | some r =>
    let q := s.asMember r () fun s =>
      let t := s.strand r.core
      let unbind := fun (c : Nat × Chan) => (c.1, if c.2.ring = some i then { c.2 with ring := none } else c.2)
      let forget := fun (h : Hold) => { h with rings := h.rings.filter (fun x => x.1 != i) }
      (s.setStrand r.core { t with chan := t.chan.map unbind, holds := t.holds.map forget }, ())
    { q.1 with rings := mdel q.1.rings i }

/-- A ring that its member has left is freed once no transmission is in flight (R514, R515). -/
def State.settleLeave (s : State) (i : Nat) : State :=
  match mfind s.rings i with
  | none => s
  | some r => if r.leaving && r.outs.isEmpty then s.freeRing i else s

/-- The bound channel of a ring of the member that runs (R500): none once that channel has been closed. -/
def State.boundChan (s : State) (i : Nat) (r : Ring) : Option Chan :=
  (s.chan r.core r.ch).bind (fun x => if x.ring = some i then some x else none)

/-- The bound channel goes Broken with its ring, and one record of KIND 3 names the ring's handle (R508), also where the
channel is Broken already or closed. -/
def State.breakBound (s : State) (i : Nat) (r : Ring) (cause : Cause) (aux : Word) : State :=
  if (s.boundChan i r).any (fun x => x.cause == 0) then s.breakChan r.core r.ch cause 0 (ringHandle i) aux
  else s.faultOf r.core 3 cause false (ringHandle i) (handleCode (8 + r.ch)) 0 0 aux

/-- A break at a member (R508), with the syndrome of a failed read (R470). The member sends a notice to both neighbours, on a
notice as on a break that it finds itself, so that the notice goes both ways round the ring: DESIGN CHOICE, safe (log 102). -/
def State.breakRing (s : State) (i : Nat) (cause : Cause) (aux : Word) : State :=
  match mfind s.rings i with
  | none => s
  | some r =>
    if !r.up then s
    else
      let s := s.setRing i { r with
        st := .broken, cause := cause, given := [], held := [], blocks := [], inbound := [], staged := none,
        weirEntry := none, blocked := none }
      let s : State := { s with notices := s.notices ++ [(r.prev, r.key, cause), (r.next, r.key, cause)] }
      let s := s.unpin (dieOf r.core) (r.blocks.flatMap WinOp.pins)
      (s.asMember r () (fun s => (s.breakBound i r cause aux, ()))).1

/-- The flows of some rings die, with what they carry (R479, R508). -/
def State.killRingFlows (s : State) (p : Ring → Bool) : State :=
  (s.rings.filter (fun r => p r.2)).foldl (fun s r =>
    let s := { s with rings := mset s.rings r.1 { r.2 with outs := [] } }
    if r.2.st == .live || r.2.st == .draining then s.breakRing r.1 cLINK_DEAD 0 else s.settleLeave r.1) s

/-- Without a fabric port, every ring's flows die (R479, R508). -/
def State.breakRings (s : State) : State := if s.ports = [] then s.killRingFlows (fun _ => true) else s

/-- A ring whose traffic is done is Done (R512). -/
def Ring.settle (r : Ring) : Ring :=
  match r.limit with
  | none => r
  | some n =>
    let total := n * (r.p - 1)
    if r.st = .draining ∧ r.own = n ∧ r.arr = total ∧ r.out = total then { r with st := .done } else r

/-- The bound channel's buffer. -/
def State.ringBuf (s : State) (i : Nat) (r : Ring) : Option CBuf :=
  (s.asMember r none (fun s => (s, (s.boundChan i r).bind Chan.cbuf))).2

/-- The slot of an inbound entry is free (R505): the entry before it there has been freed by every consumer. -/
def CBuf.slotFree (b : CBuf) (k : Nat) : Bool := decide (k < b.freedAll + b.count)

/-- An inbound entry lands in its slot (R503, R506): its lines are written as they are. -/
def State.landEntry (s : State) (i : Nat) (r : Ring) (k : Nat) (bs : List Byte) : State :=
  (s.asMember r () fun s =>
    match (s.boundChan i r).bind Chan.cbuf with
    | none => (s, ())
    | some b =>
      let pa := sharedPa ((b.slotAddr k).toNat)
      ((splitLines (bs.length / 64 + 2) pa bs).foldl (fun s l => s.putLine l.1 (allBytes l.2)) s, ())).1

/-- Slots of the bound buffer are filled (R344, R506). -/
def State.fillRing (s : State) (i : Nat) (r : Ring) (n : Nat) : State :=
  (s.asMember r () fun s =>
    match s.boundChan i r with
    | none => (s, ())
    | some x =>
      let g := fun (b : CBuf) => { b.fill n with next := b.next + n, free := b.free - n }
      (s.setChan r.core r.ch { x with cbuf := x.cbuf.map g }, ())).1

/-- An entry granted under the weir has been written to its slot: the weir has accepted its one entry (R115, R505). -/
def Ring.leaveWeir (r : Ring) (k : Nat) : Ring :=
  if r.weirEntry = some k then { r with weir := false, weirEntry := none, staged := none } else r

/-- Entry k is performed at this member; slots fill in order (R506). -/
def State.performEntry (s : State) (i k : Nat) (bs : List Byte) : State :=
  match mfind s.rings i with
  | none => s
  | some r =>
    let r := r.leaveWeir k
    let s := s.landEntry i r k bs
    let l := k :: r.performed
    let arr := advance l l.length r.arr
    let s := s.fillRing i r (arr - r.arr)
    s.setRing i { r with arr := arr, performed := l.filter (fun x => decide (arr ≤ x)) }.settle

/-- The staged entry is written once its slot is free, and the weir is free again (R115, R505). -/
def State.unstage (s : State) (i : Nat) : State :=
  match mfind s.rings i with
  | none => s
  | some r =>
    match r.staged, s.ringBuf i r with
    | some (k, bs), some b => if b.slotFree k then s.performEntry i k bs else s
    | _, _ => s

/-- Bytes of a join descriptor as a number: a field of n bytes. -/
def descField (bs : List Byte) (o n : Nat) : Nat := bytesNat ((bs.drop o).take n)

/-- A descriptor that breaks R499. -/
def badDescriptor (fabid : Nat) (bs : List Byte) : Bool :=
  let p := descField bs 4 2
  let prev := descField bs 8 2
  let next := descField bs 10 2
  let blen := descField bs 12 4
  descField bs 0 4 == 0 || decide (p < 2) || decide (288 < p) || decide (p ≤ descField bs 6 2) ||
    decide (288 ≤ prev) || decide (288 ≤ next) || prev == fabid || next == fabid || (prev == next && p != 2) ||
    blen % 64 != 0 || decide (blen < 64) || decide (2 ^ 18 < blen) || (bs.drop 16).any (· != 0)

/-- A channel that a ring may bind (R500). -/
def State.mayBind (s : State) (core ch blen : Nat) : Bool :=
  match s.chan core ch with
  | none => false
  | some x =>
    match x.cbuf with
    | none => false
    | some b =>
      let o := b.base.toNat - 0xFF20000000000000
      x.st == .open && x.ring.isNone && isShared b.base.toNat &&
        ((s.strand core).mode || (List.range ((o + b.size * b.count - 1) / 2 ^ 20 - o / 2 ^ 20 + 1)).all (fun n =>
          mfind s.banks (o / 2 ^ 20 + n) == (s.strand core).asid)) &&
        decide (blen ≤ b.size) && b.free == b.count && x.unfinished.isEmpty

/-- The lowest free ring entry (R498). -/
def State.freeRingIndex (s : State) : Option Nat :=
  (List.range ringEntries).find? (fun i => (mfind s.rings i).isNone)

/-- A ring entry as RNGJOIN makes it (R510). -/
def Ring.joined (core : Nat) (t : Strand) (ch : Nat) (bs : List Byte) : Ring :=
  { st := .joining, cause := 0, core := core, asid := t.asid, group := t.group, ch := ch,
    key := BitVec.ofNat 32 (descField bs 0 4), p := descField bs 4 2, pos := descField bs 6 2,
    prev := descField bs 8 2, next := descField bs 10 2, blen := descField bs 12 4, arr := 0, out := 0, own := 0,
    limit := none, given := [], held := [], outK := 0, blocks := [], inbound := [], performed := [], outs := [],
    weir := false, weirEntry := none, staged := none, blocked := none, leaving := false }

/-- A buffer whose slots count from zero again; every slot is free. -/
def CBuf.recount (b : CBuf) : CBuf :=
  { b with next := 0, freedAll := 0, cons := b.cons.map (fun c => { c with freed := 0 }) }

/-- rngjoin (R510). -/
def execRngjoin (o : OpE) (s : State) : Result State :=
  s.src2 o.a o.ea o.b o.eb fun a b => s.dest o.h (
    let off := a.toNat - 0xFF00000000000000
    let ch := b.toNat % 8
    if a.toNat % 64 != 0 then s.trap cMISALIGN a
    else if a.toNat < 0xFF00000000000000 || Config.spBytes < off + 64 then s.trap cPROTECT a
    else
      let q := (s.settleWrites s.cur (spAddr s.cur off) 64).read s.cur (spAddr s.cur off) 64
      match q.err with
      | some c => s.trap c a
      | none =>
        if badDescriptor s.fabid.toNat q.bytes then s.trap cRING 0
        else if !s.mayBind s.cur ch (descField q.bytes 12 4) then s.trap cFRAG_STATE 0
        else
          match s.freeRingIndex, q.s.chan s.cur ch with
          | some i, some x =>
            let s := q.s.setRing i (Ring.joined s.cur s.me ch q.bytes)
            let s := s.setChan s.cur ch { x with ring := some i, cbuf := x.cbuf.map CBuf.recount }
            s.endWith (s.me.setG o.h.toNat (BitVec.ofNat 64 (ringHandle i)))
          | _, _ => s.trap cRING 0)

/-- The ring of a handle (R498): RING with c.TVAL 0 for any other value. -/
def State.ringGate (s : State) (g : Word) (k : Nat → Ring → Result State) : Result State :=
  let i := g.toNat - ringHandle 0
  match if ringHandle 0 ≤ g.toNat ∧ i < ringEntries then mfind s.rings i else none with
  | none => s.trap cRING 0
  | some r => if r.member s.cur s.me then k i r else s.trap cRING 0

/-- Own blocks that may wait (R511). -/
def ownBlocks : Nat := 16

/-- rngsend (R511), in the order of R118. -/
def execRngsend (o : OpE) (s : State) : Result State :=
  s.src3 o.h false o.a o.ea o.b o.eb fun g a b =>
    let len := b.toNat % 2 ^ 32
    if a.toNat % 64 != 0 then s.trap cMISALIGN a
    else
      s.resolved (s.extent s.cur false a extentRuns a.toNat len []) fun s l pages =>
        s.ringGate g fun i r =>
          if r.st = .broken then s.raiseBreak r.cause 0
          else if r.limit.elim false (fun n => decide (n ≤ r.own)) then s.trap cRING 0
          else if len = 0 || len % 64 != 0 || decide (r.blen < len) then s.trap cRING 0
          else if ownBlocks ≤ r.blocks.length then .next (s.stall (.until (.ringReady i)))
          else if !(s.die (dieOf s.cur)).canPin pages then .next (s.stall .pins)
          else
            let op : WinOp := { id := s.nextId, core := s.cur, group := s.me.group, asid := 0, handle := ringHandle i, src := a, off := 0,
                                len := len, red := 0, signal := false, atom := false, op := 0, operand := 0,
                                srcp := l, pins := pages }
            let s := (s.setRing i { r with own := bump48 r.own, blocks := r.blocks ++ [op] }).pin (dieOf s.cur) pages
            let s := { s with nextId := s.nextId + 1 }
            s.endWith s.me

/-- rngdone (R512). -/
def execRngdone (o : OpE) (s : State) : Result State :=
  s.src2 o.h false o.a o.ea fun g n =>
    s.ringGate g fun i r =>
      let total := n.toNat * (r.p - 1)
      if r.st = .broken then s.raiseBreak r.cause 0
      else if n = 0 || decide (n.toNat < r.own) || r.limit.isSome || r.st != .live then s.trap cRING 0
      else
        let s := s.setRing i { r with st := .draining, limit := some n.toNat }.settle
        let late := decide (total < r.arr) || r.performed.any (fun k => decide (total ≤ k)) ||
          r.staged.elim false (fun x => decide (total ≤ x.1))
        let s := if late then s.breakRing i cRING 0 else s
        s.endWith s.me

/-- A 48-bit count of a ring (R509). -/
def Ring.counter (r : Ring) (out : Bool) : Nat := (if out then r.out else r.arr) % 2 ^ 48

/-- RNGWAIT on a count (R513). -/
def ringWait (out : Bool) (o : OpE) (s : State) : Result State :=
  s.src2 o.h false o.a o.ea fun g n => s.dest o.b (
    s.ringGate g fun i r =>
      let c := r.counter out
      if n.toNat ≤ c then s.endWith (s.me.setG o.b.toNat (BitVec.ofNat 64 c))
      else if r.st = .broken then s.raiseBreak r.cause 0
      else .next (s.stall (.until (.ringCount i out n))))
/-- rngwait (R513). -/
def execRngwait (o : OpE) (s : State) : Result State := ringWait false o s
/-- rngwait.out (R513). -/
def execRngwaitOut (o : OpE) (s : State) : Result State := ringWait true o s

/-- The number of a state in the order of R501. -/
def RingSt.code : RingSt → Nat
  | .free => 0
  | .joining => 1
  | .live => 2
  | .draining => 3
  | .done => 4
  | .broken => 5

/-- rngwait.stat (R513): the ring as it stands at issue. -/
def execRngwaitStat (o : OpE) (s : State) : Result State :=
  s.src2 o.h false o.a o.ea fun g _ =>
    s.ringGate g fun _ r =>
      s.produce o.b (.word (BitVec.ofNat 64 (r.cause.toNat * 2 ^ 56 + r.st.code * 2 ^ 48 + r.arr % 2 ^ 48)))
/-- rngwait.own (R513). -/
def execRngwaitOwn (o : OpE) (s : State) : Result State :=
  s.src2 o.h false o.a o.ea fun g _ =>
    s.ringGate g fun _ r => s.produce o.b (.word (BitVec.ofNat 64 r.own))

/-- rngleave (R514). -/
def execRngleave (o : OpE) (s : State) : Result State :=
  s.src1 o.h false fun g =>
    s.ringGate g fun i _ =>
      let s := s.breakRing i cRING 0
      match mfind s.rings i with
      | none => s.endWith s.me
      | some r =>
        if r.outs.isEmpty then
          let s := s.freeRing i
          s.endWith s.me
        else .next (s.waitOn ⟨1, i, 0, s.now⟩ (.ringReady i))

/-- A kill of a member strand acts as RNGLEAVE (R515): the entry goes once no transmission is in flight. -/
def State.leaveRings (s : State) (core : Nat) : State :=
  (s.ringsOf core).foldl (fun s i =>
    let s := s.breakRing i cRING 0
    match mfind s.rings i with
    | some r => (s.setRing i { r with leaving := true }).settleLeave i
    | none => s) s

/-- What a neighbour's own entry must hold (R502): `step` is P − 1 for the predecessor and 1 for the successor. -/
def Ring.confirms (r : Ring) (fabid step : Nat) (e : RingPeer) (names : Nat) : Bool :=
  e.key == r.key && e.p == r.p && e.blen == r.blen && names == fabid && e.pos == (r.pos + step) % r.p

/-- RING_NEIGHBOUR_CONFIRM (R501, R502): both neighbours' entries are compared. -/
def execRingNeighbourConfirm (ring : Nat) (prev next : RingPeer) (s : State) : Result State :=
  if ringEntries ≤ ring then .fault .noSuchObject
  else
    match mfind s.rings ring with
    | none => .next s
    | some r =>
      if r.st ≠ .joining then .next s
      else if r.confirms s.fabid.toNat (r.p - 1) prev prev.next && r.confirms s.fabid.toNat 1 next next.prev then
        .next (s.setRing ring { r with st := .live })
      else .next (s.breakRing ring cRING 0)

/-- An inbound entry that is forwarded (R503): its step is below P − 1. -/
def Ring.forwards (r : Ring) (k : Nat) : Bool := decide (k % (r.p - 1) + 3 ≤ r.p)

/-- Entry k has been granted, or has arrived (R505). -/
def Ring.granted (r : Ring) (k : Nat) : Bool :=
  r.given.contains k || decide (k < r.arr) || r.performed.contains k || r.staged.elim false (fun x => x.1 == k)

/-- The weir has been granted and has accepted no entry yet (R115, R505). -/
def Ring.weirFree (r : Ring) : Bool := r.weir && r.weirEntry.isNone

/-- The grant of inbound entry k may be given (R505): its two conditions hold. -/
def Ring.mayGrant (r : Ring) (b : CBuf) (k : Nat) : Bool :=
  !r.granted k && (b.slotFree k || (r.weirFree && decide (k = b.freedAll + b.count))) &&
    (!r.forwards k || r.held.contains (k + 1))

/-- RING_GRANT (R505): this member grants inbound entry k, or its successor's grant for outbound entry k arrives.
Among the entries that may be granted the least comes first. -/
def execRingGrant (ring k : Nat) (mine : Bool) (s : State) : Result State :=
  if ringEntries ≤ ring then .fault .noSuchObject
  else
    let s := s.unstage ring
    match mfind s.rings ring with
    | none => .next s
    | some r =>
      if mine then
        match s.ringBuf ring r with
        | none => .next s
        | some b =>
          if !(r.st == .live || r.st == .draining) then .next s
          else if r.mayGrant b k && (List.range k).all (fun j => !r.mayGrant b j) then
            .next (s.setRing ring { r with
              given := r.given ++ [k], weirEntry := if b.slotFree k then r.weirEntry else some k, blocked := none })
          else if !r.granted k && !b.slotFree k then
            .next (s.setRing ring { r with blocked := some (r.blocked.getD s.now) })
          else .next s
      else if !r.up || decide (k < r.outK) || r.held.contains k then .next s
      else .next (s.setRing ring { r with held := r.held ++ [k] })

/-- BLEN bytes of a block: those that it lacks are zero (R503, R511). -/
def Ring.block (r : Ring) (bs : List Byte) : List Byte := (bs ++ List.replicate (r.blen - bs.length) 0).take r.blen

/-- The next outbound entry with its block: the successor's inbound entry of that number (R503). -/
def Ring.entry (r : Ring) (bs : List Byte) : RingEntry :=
  ⟨r.outK, r.key, r.p, r.outK % (r.p - 1) + 1, r.block bs⟩

/-- The member transmits its next outbound entry on a fabric port (R478, R503, R504). -/
def State.transmit (s : State) (i port : Nat) (r : Ring) (bs : List Byte) : State :=
  s.setRing i { r with
    outK := r.outK + 1, held := r.held.erase r.outK,
    outs := r.outs ++ [⟨r.outK % 2 ^ 32, 0, port, dieOf r.core, s.now, 0, none, .entry (r.entry bs)⟩] }

/-- RING_TRANSMIT (R503, R504, R507): the next outbound entry, under its grant. -/
def execRingTransmit (ring : Nat) (s : State) : Result State :=
  if ringEntries ≤ ring then .fault .noSuchObject
  else
    match mfind s.rings ring, s.ports with
    | some r, p :: _ =>
      if !(r.st == .live || r.st == .draining) || !r.held.contains r.outK then .next s
      else if r.outK % (r.p - 1) = 0 then
        match r.blocks with
        | [] => .next s
        | op :: rest =>
          if (s.asMember r false (fun s => (s, s.heldBack op.core 4 op.id))).2 then .next s
          else
            match s.asMember r ([], none) (fun s => s.winSource op.core op.srcp) with
            | (s, _, some (c, aux)) => .next (s.breakRing ring c aux)
            | (s, bs, none) => .next ((s.transmit ring p { r with blocks := rest } bs).unpin (dieOf r.core) op.pins)
      else
        match r.inbound.find? (fun x => x.1 + 1 == r.outK) with
        | some x => .next (s.transmit ring p { r with inbound := r.inbound.erase x } x.2)
        | none => .next s
    | _, _ => .next s

/-- RING_ARRIVAL (R503, R505, R506, R512): a granted entry arrives once, at a fabric port; a staged one lands once its slot
is free. -/
def execRingArrival (ring : Nat) (e : RingInbound) (s : State) : Result State :=
  let port := e.port
  let e := e.entry
  if ringEntries ≤ ring then .fault .noSuchObject
  else if 18 ≤ port || !(s.link port).live then .next s
  else
    match mfind s.rings ring with
    | none => .next s
    | some r =>
      if r.staged.elim false (fun x => x.1 == e.k) then .next (s.unstage ring)
      else if decide (e.k < r.arr) || r.performed.contains e.k then .next (s.countDup port)
      else if !(r.st == .live || r.st == .draining) || !r.given.contains e.k then .next s
      else if e.key != r.key || e.p != r.p || e.step != e.k % (r.p - 1) + 1 then .next (s.breakRing ring cRING 0)
      else if r.limit.elim false (fun n => decide (n * (r.p - 1) ≤ e.k)) then .next (s.breakRing ring cRING 0)
      else
        let r := { r with
          given := r.given.erase e.k
          inbound := if r.forwards e.k then r.inbound ++ [(e.k, r.block e.bytes)] else r.inbound }
        match s.ringBuf ring r with
        | some b =>
          if b.slotFree e.k then .next ((s.setRing ring r).performEntry ring e.k (r.block e.bytes))
          else .next (s.setRing ring { r with staged := some (e.k, r.block e.bytes) })
        | none => .next ((s.setRing ring r).performEntry ring e.k (r.block e.bytes))

/-- The causes with which a ring breaks (R501). -/
def ringCauses : List Cause := [cRING, cLINK_DEAD, cUE_DATA, cINTEGRITY, cLOG_POISON]

/-- RING_BREAK_NOTICE (R508). -/
def execRingBreakNotice (ring : Nat) (cause : BitVec 8) (s : State) : Result State :=
  if ringEntries ≤ ring then .fault .noSuchObject
  else if ringCauses.contains cause then .next (s.breakRing ring cause 0)
  else .next s

/-- An outbound entry is acknowledged by the successor (R509). -/
def State.ackRing (s : State) (i sq : Nat) : State :=
  match mfind s.rings i with
  | none => s
  | some r =>
    match r.outs.find? (fun o => o.sq == sq) with
    | none => s
    | some o => (s.setRing i { r with outs := r.outs.erase o, out := bump48 r.out }.settle).settleLeave i

/-- The timer of an outbound entry expires (R479, R508). -/
def State.retryRing (s : State) (i sq : Nat) : State :=
  match mfind s.rings i with
  | none => s
  | some r =>
    match r.outs.find? (fun o => o.sq == sq) with
    | none => s
    | some o =>
      if s.timerHeld o then s
      else
        let s := s.countDrops o.port
        let dead := ((s.setRing i { r with outs := [] }).breakRing i cLINK_DEAD 0).settleLeave i
        if retryLimit ≤ o.attempts + 1 then dead
        else
        match s.nextPort o.port with
        | none => dead
        | some p =>
          let s := s.setLink p { s.link p with retry := bump48 (s.link p).retry }
          let again := fun (x : Sent) => if x = o then { o with attempts := o.attempts + 1, port := p, tick := s.now } else x
          s.setRing i { r with outs := r.outs.map again }

/-- RETRY_TIMEOUT (R479). -/
def execRetryTimeout (flow : FlowId) (sq : Nat) (s : State) : Result State :=
  match flow with
  | .window h => .next (s.retryWin h sq)
  | .ring i => .next (s.retryRing i sq)
  | .dies a b p => .next (s.retryDies (flowKey a b p) sq)

/-- ACK_ARRIVAL (R479, R484, R509): the sender drops its copy of what the destination has received. -/
def execAckArrival (flow : FlowId) (sq : Nat) (s : State) : Result State :=
  match flow with
  | .window h => .next (s.ackWin h sq)
  | .ring i => .next (s.ackRing i sq)
  | .dies a b p =>
    match mfind s.dieFlows (flowKey a b p) with
    | none => .next s
    | some f =>
      if (unwrapSq f.next sq).any f.has then
        let g : DieFlow := { f with ops := f.ops.filter (fun o => o.sq != sq) }
        .next { s with dieFlows := mset s.dieFlows (flowKey a b p) g }
      else .next s

/-- A link that carries no flits aligns nothing (R477, R482). -/
def State.unalignLink (s : State) (n : Nat) : State :=
  if (s.link n).live then s
  else
    (List.range 6).foldl (fun s d => if ((s.die d).path.getD []).contains n then s.unalign d else s) s

/-- A die that is absent: its link is Dead, the flows that cross it are dead (R476, R479, R519). -/
def State.loseDie (s : State) (d : Nat) : State :=
  let s := (s.setLink (32 + d) { s.link (32 + d) with st := .dead, width := 0 }).unalignLink (32 + d)
  let s := (s.setDie d { s.die d with present := false }).killDieFlows d
  (s.breakCrossing d).killRingFlows (fun r => dieOf r.core == d)

/-- What follows a change of a link's state (R476, R479). A dead die link makes its die absent, and the die's firmware
core requests a warm reset. -/
def State.linkChanged (s : State) (n : Nat) : State :=
  let s := s.unalignLink n
  if n < 18 then s.breakImports.breakRings
  else if n = 48 then s
  else if (s.link n).st = .dead then { s.loseDie (n - 32) with resetDue := true }
  else s

/-- LINK_RESET_RELEASE (R476). -/
def execLinkResetRelease (link : Nat) (s : State) : Result State :=
  if !isLink link then .fault .noSuchObject
  else if (s.link link).st = .down then .next (s.setLink link { s.link link with st := .training })
  else .next s

/-- The width that a training result gives (R476). -/
def trainedWidth (n : Nat) (r : Training) : Nat :=
  match r with
  | .full => fullWidth n
  | .half => fullWidth n / 2
  | .quarter => fullWidth n / 4
  | .fail => 0

/-- LINK_TRAINING_RESULT (R476): a link that needs a width below a quarter is Dead. -/
def execLinkTrainingResult (link : Nat) (result : Training) (s : State) : Result State :=
  if !isLink link then .fault .noSuchObject
  else
    let l := s.link link
    if l.st ≠ .training then .next s
    else
      let w := min l.cap (trainedWidth link result)
      let m : PLink :=
        if l.cap < fullWidth link / 4 then { l with st := .dead, width := 0 }
        else if result = .fail then
          if 3 ≤ l.fails + 1 then { l with st := .dead, width := 0, fails := 0 } else { l with fails := l.fails + 1 }
        else { l with st := if w = fullWidth link then .up else .narrow, width := w, fails := 0 }
      .next ((s.setLink link m).linkChanged link)

/-- LANE_FAILURE (R476, R478): the link retrains at half its present width, and what was on it is dropped. -/
def execLaneFailure (link : Nat) (s : State) : Result State :=
  if !isLink link then .fault .noSuchObject
  else
    let l := s.link link
    if !l.live then .next s
    else
      let s := s.setLink link { l with st := .training, width := 0, cap := l.width / 2 }
      .next ((s.countDrops link).linkChanged link)

end Sys2Proof.Machine
end

