-- ==== Sys2Proof/Machine/Group.lean ====
section
/-! DEFINITION. Groups (R381 to R395): placement, the end of strands and groups, GRANK, FPOP, HALT and GEXIT, kills,
saves and restores (R444 to R449), lease reclaim (R209) and the watchdog (R443). -/

namespace Sys2Proof.Machine

/-- The kernel of a group number. -/
def State.kernelOf (s : State) (g : Nat) : Option Kernel := mfind s.kernels (groupKernel g)
/-- Replaces a kernel. -/
def State.setKernel (s : State) (k : Nat) (x : Kernel) : State := { s with kernels := mset s.kernels k x }
/-- Replaces a group. -/
def State.setGroup (s : State) (g : Nat) (x : Group) : State := { s with groups := mset s.groups g x }
/-- The kernel of the group of a strand. -/
def State.myKernel (s : State) (core : Nat) : Option Kernel := (s.strand core).group.bind s.kernelOf

/-- A strand that has ended. -/
def Strand.ended (t : Strand) : Bool := t.st == .done || t.st == .killed
/-- A group that has ended. -/
def Group.ended (x : Group) : Bool := x.st == .done || x.st == .killed

/-- A core on which no strand of a group that has not ended is placed (R384, R385). -/
def State.coreFree (s : State) (core : Nat) : Bool :=
  let t := s.strand core
  t.st == .absent || (t.ended && (match t.group.bind (mfind s.groups) with
    | some x => x.ended
    | none => true))

/-- A core that may run a program of a world (R385, R441). -/
def State.programCore (s : State) (secure : Bool) (core : Nat) : Bool :=
  !isFirmware core && s.present (dieOf core) && !(s.die (dieOf core)).failed.contains (clusterOf core) &&
    s.worldOf core == secure
/-- The available cores of a die, lowest-numbered first (R385). -/
def State.available (s : State) (secure : Bool) (d : Nat) : List Nat :=
  ((List.range 64).map (fun i => 64 * d + i)).filter (fun c => s.programCore secure c && s.coreFree c)

/-- The cores that a group of n strands takes, by rank (R385). -/
def State.pickCores (s : State) (secure : Bool) (last : Option Nat) (n : Nat) : Option (List Nat) :=
  let d0 := match last with
    | some d => (d + 1) % 6
    | none => 0
  let order := ((List.range 6).map (fun i => (d0 + i) % 6)).filter s.present
  match order.find? (fun d => decide (n ≤ (s.available secure d).length)) with
  | some d => some ((s.available secure d).take n)
  | none =>
    let all := order.flatMap (s.available secure)
    if n ≤ all.length then some (all.take n) else none

/-- Groups killed before their placement are passed over. -/
def Kernel.skip (k : Kernel) : Nat → Kernel
  | 0 => k
  | n + 1 => if k.killedEarly.contains k.next then { k with next := k.next + 1 }.skip n else k
/-- No group waits any longer: the kernel is Resident (R405). -/
def Kernel.settle (k : Kernel) : Kernel :=
  let k := k.skip k.killedEarly.length
  if k.st = .launched ∧ k.ngroups ≤ k.next then { k with st := .resident } else k
/-- A kernel with a Waiting group (R383). -/
def Kernel.waits (k : Kernel) : Bool := (k.st == .launched || k.st == .retiring) && decide (k.next < k.ngroups)

/-- Ticks after which a group that waits for room holds others back (R385). -/
def holdTicks : Nat := 2 ^ 24
/-- A kernel whose next group holds others back. Every Waiting group of a kernel has waited since the LAUNCH (R383). -/
def Kernel.holds (k : Kernel) : Bool := k.waits && (k.hold == some k.next || decide (holdTicks ≤ k.waited))

/-- The world of a context. -/
def State.ctxWorld (s : State) (a : Nat) : Bool := (s.ctx a).secure
/-- The cores for a kernel's next group, when it has one and they are there. -/
def State.kernelCores (s : State) (k : Kernel) : Option (List Nat) :=
  if k.waits then s.pickCores (s.ctxWorld k.asid) k.lastDie k.size else none

/-- Another kernel holds back the groups of this one (R385): it was launched before, at this priority or above. -/
def State.heldByKernel (s : State) (i : Nat) (k : Kernel) : Bool :=
  s.kernels.any fun x => decide (x.1 < i) && x.2.holds && decide (s.pri4 k.qid ≤ s.pri4 x.2.qid)
/-- A kernel comes before another one in the order of R432. -/
def State.kernelFirst (s : State) (i : Nat) (a : Kernel) (j : Nat) (b : Kernel) : Bool :=
  decide (s.pri4 b.qid < s.pri4 a.qid) || (s.pri4 a.qid == s.pri4 b.qid && decide (i < j))
/-- A kernel's next group is the first in order that can be placed (R432). -/
def State.mayPlace (s : State) (i : Nat) (k : Kernel) : Bool :=
  (s.kernelCores k).isSome && !s.heldByKernel i k &&
    s.kernels.all (fun x => x.1 == i || !s.kernelFirst x.1 x.2 i k || s.heldByKernel x.1 x.2 ||
      (s.kernelCores x.2).isNone)

/-- Core-bank entries of a kernel take effect on a core, in entry order (R407). -/
def State.applyBanks (s : State) (core : Nat) (l : List (Bool × Nat × BitVec 32)) : State :=
  (l.filter (fun e => !e.1)).foldl (fun s e => s.setFormat (.inl (core, e.2.1)) e.2.2) s

/-- The lane-private slices of a core read zero (R186); what failed there is replaced (R471). -/
def State.clearSlices (s : State) (core : Nat) : State :=
  let inside := fun a => decide (laneAddr core 0 0 ≤ a) && decide (a < laneAddr (core + 1) 0 0)
  { s with mem := s.mem.filter (fun c => !inside c.1), failed := s.failed.filter (fun x => !inside (64 * x.1)) }

/-- Places a strand on a core (R68, R385, R386). -/
def State.placeStrand (s : State) (g : Nat) (k : Kernel) (core rank : Nat) : State :=
  let s := (s.clearSlices core).applyBanks core k.banks
  let t : Strand := { Strand.start with
    st := .placed, pc := k.entry, asid := some k.asid, group := some g, rank := rank, placed := (s.log core).app }
  let t := (((t.setG 1 k.arg).setG 2 (BitVec.ofNat 64 (groupNum g))).setG 3 (BitVec.ofNat 64 rank)).setG 4
    (BitVec.ofNat 64 k.size)
  s.setStrand core (s.fetchFrom core t)

/-- Places a group on its cores (R385). -/
def State.placeGroup (s : State) (i : Nat) (k : Kernel) (cores : List Nat) : State :=
  let g := groupId i k.next
  let s := cores.zipIdx.foldl (fun s x => s.placeStrand g k x.1 x.2) s
  let s := s.setGroup g ⟨.running, cores, s.now, 0, 0, false⟩
  s.setKernel i { k with next := k.next + 1, lastDie := cores.head?.map dieOf, hold := none, placedAt := s.now + 1 }.settle

/-- GROUP_PLACEMENT (R385, R432). -/
def execGroupPlacement (group : Nat) (s : State) : Result State :=
  let i := groupKernel group
  match mfind s.kernels i with
  | none => .fault .noSuchObject
  | some k =>
    let k := k.skip k.killedEarly.length
    if groupNum group ≠ k.next || !s.mayPlace i k then .next s
    else
      match s.kernelCores k with
      | some cores => .next (s.placeGroup i k cores)
      | none => .next s

/-- GROUP_STARVATION_HOLD (R385). -/
def execGroupStarvationHold (group : Nat) (s : State) : Result State :=
  let i := groupKernel group
  match mfind s.kernels i with
  | none => .fault .noSuchObject
  | some k =>
    if groupNum group = k.next && k.waits && decide (holdTicks ≤ k.waited) then
      .next (s.setKernel i { k with hold := some k.next })
    else .next s

/-- What GRANK delivers (R392); a strand of no group delivers a free value. -/
def grank (f : Group → Nat) (o : OpE) (s : State) : Result State :=
  match s.me.group.bind (mfind s.groups) with
  | some x => s.produce o.h (.word (BitVec.ofNat 64 (f x)))
  | none => s.dest o.h (
      let (s, w) := s.fresh
      s.produce o.h (.word w))
/-- grank (R392). -/
def execGrank (o : OpE) (s : State) : Result State := grank (fun _ => s.me.rank) o s
/-- grank.size (R392). -/
def execGrankSize (o : OpE) (s : State) : Result State := grank (fun x => x.cores.length) o s
/-- grank.num (R392). -/
def execGrankNum (o : OpE) (s : State) : Result State := grank (fun _ => groupNum (s.me.group.getD 0)) o s
/-- grank.cores (R392). -/
def execGrankCores (o : OpE) (s : State) : Result State :=
  grank (fun x => ((x.cores.filter (fun c => dieOf c == dieOf s.cur)).map (fun c => 2 ^ (c % 64))).sum) o s
/-- grank.dies (R392). -/
def execGrankDies (o : OpE) (s : State) : Result State :=
  grank (fun x => ((List.range 6).map (fun d => (x.cores.any (fun c => dieOf c == d)).toNat * 2 ^ d)).sum) o s

/-- fpop (R391). -/
def execFpop (o : OpE) (s : State) : Result State :=
  s.src1 o.a o.ea fun a => s.dest o.h (
    let off := a.toNat - 0xFF00000000000000
    if a.toNat % 64 != 0 then s.trap cMISALIGN a
    else if a.toNat < 0xFF00000000000000 || Config.spBytes < off + 64 then s.trap cPROTECT a
    else
      match s.myKernel s.cur with
      | none => s.produce o.h (.word 2)
      | some k =>
        if k.cap = 0 then s.produce o.h (.word 2)
        else s.produce o.h (.fpop (spAddr s.cur off) (groupKernel (s.me.group.getD 0)) 0 k.closed none))

/-- A strand of a group, where it stands: on its core or saved. -/
def State.memberStrand (s : State) (g core : Nat) : Option Strand :=
  if (s.strand core).group = some g then some (s.strand core) else (mfind s.images (imageKey g core)).map Image.strand

/-- A group counts towards its kernel's completion (R384, R408). -/
def State.countGroup (s : State) (g : Nat) (killed : Bool) : State :=
  match s.kernelOf g with
  | none => s
  | some k =>
    s.setKernel (groupKernel g)
      (if killed then { k with killed := k.killed + 1 } else { k with done := k.done + 1 })

/-- A Running or Exiting group whose strands are all Done is Done (R384). -/
def State.settleGroup (s : State) (g : Nat) : State :=
  match mfind s.groups g with
  | none => s
  | some x =>
    if (x.st == .running || x.st == .exiting) && x.cores.all (fun c => (s.memberStrand g c).elim true (fun t => t.st == .done))
    then (s.setGroup g { x with st := .done }).countGroup g false
    else s

/-- What is left of a strand that is Done: no state on its core but that it was there (R104). -/
def Strand.endAs (t : Strand) (st : StrandSt) : Strand :=
  { Strand.start with st := st, asid := t.asid, group := t.group, rank := t.rank }
/-- What is left of a strand that is Killed: nothing of it waits or is outstanding, and its registers, trap registers among
them, keep what they held (R104, R538). -/
def Strand.endKilled (t : Strand) : Strand :=
  { t with
    st := .killed, why := .none, wait := none, vq := [], vqweir := [], vcq := [], vweir := false, pend := [], deferred := [],
    due := none, decided := false, deadline := none, frag := [], chan := [], writes := [], holds := [], blocked := none,
    gexit := none }

/-- A strand is Done: its rings are left (R508), and it leaves no state on its core (R104). -/
def State.strandDone (s : State) (core : Nat) : State :=
  let s := s.leaveRings core
  let t := s.strand core
  let s := s.setStrand core (t.endAs .done)
  match t.group with
  | some g => s.settleGroup g
  | none => s

/-- The handles of the tables that a strand has started since their last TLOAD, by a FORK or by a TGO that may still
wait in a queue (R139, R254). -/
def State.startedTables (s : State) (core : Nat) : List Nat :=
  (((List.range 4) ++ (List.range 8).map (· + 8)).filter
    (fun h => (s.tbl core h).elim false Tbl.started || s.goQueued core h))

/-- Steps 1 to 3 of R139, then go on; the wait after them has a stage of 2 or more. -/
def State.haltSteps (s : State) (k : State → Result State) : Result State :=
  match s.me.wait with
  | some w => if 2 ≤ w.stage then k s else s.release 3 0 k
  | none =>
    s.join (s.startedTables s.cur) fun s =>
      if !s.me.vectorIdle then .next (s.stall (.until .vectorIdle)) else s.release 3 0 k

/-- The leases of a strand are released as FFREE does, and its channels close (R139): the commands not yet begun
are kept, as under CHCLOSE. -/
def State.letGo (s : State) (core : Nat) : State :=
  let s := s.freeFrags core
  let t := s.strand core
  let close := fun (c : Nat × Chan) => (c.1, { c.2 with st := .closing })
  s.setStrand core { t with chan := t.chan.map close }
/-- Closes the channels that have nothing left to do. -/
def State.closeQuiet (s : State) (core : Nat) : State :=
  (List.range 8).foldl (fun s ch => match s.chan core ch with
    | some x => if x.quiet then s.closeChan core ch else s
    | none => s) s

/-- The last step of HALT and GEXIT for the strand in focus (R139, R393): it waits for its channels. -/
def State.endSelf (s : State) : Result State :=
  let s := s.closeQuiet s.cur
  match s.me.chan with
  | [] => .next (s.strandDone s.cur)
  | (ch, _) :: _ => .next (s.waitOn ⟨3, 0, 0, s.now⟩ (.chanDone ch))

/-- halt (R139). A firmware core waits for its next event. -/
def execHalt (s : State) : Result State :=
  if isFirmware s.cur then
    if (s.core s.cur).evhead < (s.core s.cur).evtail then s.endWith s.me else .next (s.stall (.until .event))
  else
    let s := s.setMe { s.me with st := .halting }
    s.haltSteps fun s =>
      match s.me.wait with
      | some ⟨3, _, _, _⟩ => s.endSelf
      | _ => (s.letGo s.cur).endSelf

/-- A strand that a GEXIT ends has nothing outstanding (R67, R393). -/
def State.idleStrand (s : State) (core : Nat) : Bool :=
  let t := s.strand core
  t.drained && t.frag.all (fun f => f.2.tbl.st != .running) && t.chan.all (fun c => c.2.tbl.st != .running)

/-- The waiting instruction of a strand is withdrawn (R208, R393, R444): its lease requests, the sequencer that a
split reserved, the arrival of a BARR that no cell has counted, the fence that it waits at, and the mark of a WCLOSE. A
BARW has arrived, and keeps its wait (R379), also where the strand is saved again before it has moved. -/
def State.withdrawWait (s : State) (core : Nat) : State :=
  let t := s.strand core
  match t.why, t.wait with
  | .none, _ => s
  | .until .lease, _ => (s.withdraw core).setStrand core { t with wait := none }
  | .until .reshape, some w =>
    let r := Reshape.unpack w.a
    let s := if w.stage = 1 then s.freeSeq (dieOf core) r.seq else s
    s.setStrand core { t.markReshape r.h false with wait := none }
  | .until .counted, some w =>
    if w.stage = 2 && w.b = 0 then
      { s with arrivals := s.arrivals.filter (fun a => !(a.who == 0 && a.core == core && a.group == t.group)) }.setStrand core
        { t with wait := none }
    else s
  | .until (.generation _), _ => s
  | .until (.markers id), _ => s.setStrand core { t with wait := none, holds := t.holds.filter (fun h => h.id != id) }
  | .until (.performed id), _ => s.setStrand core { t with wait := none, holds := t.holds.filter (fun h => h.id != id) }
  | .until (.winSettled h), _ =>
    let s := s.setStrand core { t with wait := none }
    match mfind s.wins h with
    | some w => { s with wins := mset s.wins h { w with closing := false } }
    | none => s
  | _, _ => s.setStrand core { t with wait := none }

/-- One attempt to end another strand of an Exiting group (R393): at its boundary its tables stop and its outstanding
work completes, then its log is published, then it is Done; until then its state is the one in which it was reached.
A strand in HALT ends by its HALT, and one whose trap firmware has decided by that decision (R122, R394). -/
def State.endOther (s : State) (core : Nat) : State :=
  let t := s.strand core
  if t.ended || t.st = .halting || (t.st = .trapped && t.decided) then s
  else if !t.reached then
    let s := s.withdrawWait core
    let s := (s.eachTbl core (List.range 4) (fun _ u => u.stopNow))
    let t := s.strand core
    let stop := fun (c : Nat × Chan) => (c.1, { c.2 with tbl := c.2.tbl.stopNow })
    s.setStrand core { t with
      chan := t.chan.map stop, deferred := [], due := none, st := if t.st = .placed then .running else t.st,
      why := .none, gexit := none, wait := some ⟨8, 0, 0, s.now⟩ }
  else if t.wait.elim 0 Wait.stage = 8 then
    if s.idleStrand core then
      let s := (s.performWrites core (fun _ => true)).publish core
      s.setStrand core { s.strand core with wait := some ⟨9, (s.log core).pubs, 0, s.now⟩ }
    else s
  else if s.pointDone core (t.wait.elim 0 Wait.a) then
    let s := (s.freeFrags core)
    let s := (List.range 8).foldl (fun s ch => s.dropUnbegun core ch) s
    let s := (s.letGo core).closeQuiet core
    if (s.strand core).chan = [] then s.strandDone core else s
  else s

/-- Every other strand of a group has ended (R393). -/
def State.othersEnded (s : State) (x : Group) (core : Nat) : Bool :=
  x.cores.all (fun c => c == core || (s.strand c).ended)

/-- A strand on a lesser core issued its GEXIT in the same tick and has not trapped at it (R394). -/
def State.exitsBefore (s : State) (x : Group) (core : Nat) : Bool :=
  x.cores.any (fun c => decide (c < core) && (s.strand c).gexit.isSome && (s.strand c).gexit == (s.strand core).gexit)

/-- gexit (R393). A strand of no group ends as by HALT. -/
def execGexit (s : State) : Result State :=
  let s := s.setMe { s.me with gexit := some (s.me.gexit.getD s.now) }
  s.haltSteps fun s =>
    match s.me.wait with
    | some ⟨3, _, _, _⟩ => s.endSelf
    | _ =>
      match s.me.group with
      | none => (s.letGo s.cur).endSelf
      | some g =>
        match mfind s.groups g with
        | none => (s.letGo s.cur).endSelf
        | some x =>
          if x.st = .running && s.exitsBefore x s.cur then .next (s.waitOn ⟨2, 0, 0, s.now⟩ .others)
          else
          let x := if x.st = .running then { x with st := .exiting, exiter := s.cur } else x
          let s := s.setGroup g x
          let s := x.cores.foldl (fun s c => if c = s.cur then s else s.endOther c) s
          if s.othersEnded x s.cur then (s.letGo s.cur).endSelf
          else .next (s.waitOn ⟨2, 0, 0, s.now⟩ .others)

/-- The records of tickets that a killed strand took and did not receive (R395). -/
def State.lostTickets (s : State) (core : Nat) : State :=
  (s.strand core).pend.foldl (fun s p => match p.src with
    | .fpop _ _ _ _ (some (d, n, _)) =>
      match (s.strand core).asid with
      | some a => s.fault a ⟨9, 0, false, 0, s.groupWord (s.strand core).group, core, 0, d, 0, BitVec.ofNat 64 n, 0⟩
      | none => s
    | _ => s) s

/-- A strand leaves its core by a save or a kill: its page requests stay with the host, and no answer of one reaches a
later strand (R465, R472). -/
def State.leavePages (s : State) (core : Nat) : State :=
  let orphan := fun (x : PriReq) => if x.core = core && some x.asid = (s.strand core).asid then { x with core := 512 + core } else x
  { s with
    pri := s.pri.map orphan
    priFail := s.priFail.filter (fun x => !(x.1 == core && some x.2.1 == (s.strand core).asid)) }

/-- What a kill does to the strand on a core (R210, R351, R379, R496, R515), but for its log: its begun copies end, and
the arrivals that no cell has counted are dropped. -/
def State.killStrand (s : State) (core : Nat) : State :=
  let g := (s.strand core).group
  let s := s.lostTickets core
  let s := s.leaveRings core
  let s := s.freeFrags core
  let s := s.killChans core
  let s := (s.killWinOps core).leavePages core
  let mine := fun (a : Arrival) => a.core == core && a.who != 32 && a.group == g
  { s with arrivals := s.arrivals.filter (fun a => !mine a) }.setStrand core (s.strand core).endKilled

/-- A kill of a strand on its core (R187, R210, R304, R327): its requests are withdrawn; an ATOM that has left the core
and the scratchpad writes that wait are performed; its Appended records, its commands at the reduction tile and its
operations between dies are dropped. -/
def State.killLive (s : State) (core : Nat) : State :=
  if (s.strand core).ended then s
  else
    let s := (s.withdrawWait core).withdraw core
    let s := s.finishAtoms core (s.strand core).pend
    let s := s.performWrites core (fun _ => true)
    let s : State := { s.settleFlows (fun o => o.core == core && o.use != .write) with
      red := s.red.map (fun x => (x.1, x.2.filter (fun c => c.core != core))) }
    (s.killStrand core).discard core

/-- A kill of a Saved strand (R452): its image is freed. -/
def State.killSaved (s : State) (g core : Nat) : State :=
  match mfind s.images (imageKey g core) with
  | none => s
  | some i =>
    let here := s.strand core
    let d := dieOf core
    let asks := fun (r : LeaseReq) => r.core == core && r.regrant == some g
    let s := s.leaveReqs d ((s.die d).reqs.filter asks)
    let s := (s.setStrand core i.strand).killStrand core
    let s := s.setStrand core here
    { s with images := mdel s.images (imageKey g core) }

/-- Kills a group (R384, R452): a placed one with its strands, or one that waits. -/
def State.killGroup (s : State) (g : Nat) : State :=
  match mfind s.groups g with
  | some x =>
    if x.ended then s
    else
      let s := x.cores.foldl (fun s c =>
        if (s.strand c).group = some g then s.killLive c else s.killSaved g c) s
      (s.setGroup g { x with st := .killed }).countGroup g true
  | none =>
    match s.kernelOf g with
    | none => s
    | some k =>
      let n := groupNum g
      if k.waits && decide (k.next ≤ n) && decide (n < k.ngroups) && !k.killedEarly.contains n then
        s.setKernel (groupKernel g) { k with killedEarly := n :: k.killedEarly, killed := k.killed + 1 }.settle
      else s

/-- Reports the kill of a group to its context (R384, R450), with a KIND of R451, an address and a syndrome (R470). -/
def State.reportKillAt (s : State) (g kind : Nat) (cause : Cause) (core : Nat) (a aux : Word) : State :=
  match s.kernelOf g with
  | none => s
  | some k => s.fault k.asid ⟨kind, cause, false, 0, s.groupWord (some g), core, 0, dieOf core, 0, a, aux⟩
/-- The same without an address. -/
def State.reportKill (s : State) (g kind : Nat) (cause : Cause) (core : Nat) : State := s.reportKillAt g kind cause core 0 0

/-- The core that the record of a group's kill names: that of rank 0. The rules give none for a group that was never
placed: a free value (log 35). -/
def State.rank0 (s : State) (g : Nat) : Nat :=
  match mfind s.groups g with
  | some x => x.cores.headD 0
  | none => (Config.freeWord s.freeCtr).toNat % Config.cores

/-- A group that has not ended, or waits. -/
def State.groupLive (s : State) (g : Nat) : Bool :=
  match mfind s.groups g with
  | some x => !x.ended
  | none =>
    match s.kernelOf g with
    | some k => k.waits && decide (k.next ≤ groupNum g) && decide (groupNum g < k.ngroups) &&
        !k.killedEarly.contains (groupNum g)
    | none => false

/-- A kill of a group with its record. -/
def State.killReported (s : State) (g kind : Nat) (cause : Cause) (core : Nat) : State :=
  if s.groupLive g then { (s.killGroup g).reportKill g kind cause core with freeCtr := s.freeCtr + 1 } else s

/-- Firmware kills the groups of a context that ran on the core of a record whose header cannot be read (R303). -/
def State.killHeaders (s : State) : State :=
  s.killDue.foldl (fun s x => s.groups.foldl (fun s g =>
    if !g.2.ended && g.2.cores.contains x.2 && (s.kernelOf g.1).elim false (fun k => k.asid == x.1) then
      s.killReported g.1 7 cLOG_POISON x.2
    else s) s) { s with killDue := [] }

/-- WATCHDOG_EXPIRY (R443): a kill that is decided stands, also once the group is Saved. -/
def execWatchdogExpiry (group : Nat) (s : State) : Result State :=
  match mfind s.groups group with
  | none => .fault .noSuchObject
  | some x =>
    match s.kernelOf group with
    | none => .fault .noSuchObject
    | some k =>
      let w := s.wdogOf (some k.asid)
      if !x.ended && (x.overdue w s.now || (x.st = .running && w != 0 && decide (x.progress + w ≤ s.now))) then
        let c := s.rank0 group
        let s := s.post (dieOf c) 6 (BitVec.ofNat 64 k.asid) (BitVec.ofNat 64 group)
        .next (s.killReported group 6 0 c)
      else .next s

/-- The code of the state that a strand was saved from (R447). -/
def StrandSt.savedFrom : StrandSt → Nat
  | .running => 1
  | .stalled => 2
  | .sleeping => 3
  | .trapped => 4
  | .halting => 5
  | _ => 1

/-- A strand that may be saved now (R143, R444): at a boundary, with nothing outstanding and no trap due, its begun
commands complete; Trapped only for a debugger. -/
def State.saveable (s : State) (core : Nat) : Bool :=
  let t := s.strand core
  t.st == .done ||
    (t.gexit.isNone && t.drained && t.deferred.isEmpty && t.due.isNone && t.chan.all (fun c => c.2.runs.isEmpty) &&
      t.chan.all (fun c => c.2.queue.all (fun q => match q with
        | .chwm _ => false
        | .chsum _ _ _ => false
        | _ => true)) &&
      (t.st == .running || t.st == .stalled || t.st == .sleeping || t.st == .halting ||
        (t.st == .trapped && t.decided)))

/-- A table as a save leaves it (R220, R247): Parked; `rewinds` says that it rewinds at its restore. -/
def Tbl.parked (t : Tbl) (rewinds : Bool) : Tbl := { t with st := .parked, was := t.st, rewinding := rewinds }
/-- A fragment as a save leaves it (R208, R247): its bank and its link are empty; a table that ran, or stopped with a
bank that was not empty, rewinds at its restore. -/
def Frag.parked (f : Frag) : Frag :=
  let drop := fun (l : Link) => { l with entries := [], weir := false }
  let rewinds := f.tbl.rewinding || f.tbl.st == .running || (f.tbl.st == .stopped && !f.bankEmpty)
  { f with tbl := f.tbl.parked rewinds, bank := [], link := f.link.map drop,
           bad := f.bad.filter (fun b => decide (b.1 < 3)) }
/-- The command queue of a channel passes into the time-sorted buffer, in order (R351): a copy command takes EXP as it
stands (R348), and any other entry applies in its turn. -/
def State.passQueue (s : State) (core ch : Nat) : Nat → State
  | 0 => s
  | n + 1 =>
    match s.chan core ch with
    | none => s
    | some x =>
      let s := match x.queue with
        | .cmd c :: rest => s.setChan core ch { x with queue := rest, buf := x.buf ++ [c.entered s.now x.exp] }.settleWeir
        | .tbl _ :: _ => s.applyFirst core (8 + ch)
        | _ => s.applyQueue core ch
      s.passQueue core ch n
/-- The queues of all channels of a strand pass. -/
def State.passQueues (s : State) (core : Nat) : State :=
  (List.range 8).foldl (fun s ch => s.passQueue core ch ((s.chan core ch).elim 0 (fun x => x.queue.length))) s
/-- A channel as a save leaves it (R351). -/
def Chan.parked (x : Chan) : Chan :=
  { x with st := .parked, tbl := x.tbl.parked false, blocked := none }.settleWeir

/-- The cells of memory that a range holds. -/
def cellsIn (m : List Host.Cell) (lo hi : Nat) : List Host.Cell :=
  m.filter (fun c => decide (lo ≤ c.1) && decide (c.1 < hi))
/-- Memory with some bytes as saved cells have them. -/
def writeBack (m : List Host.Cell) (inside : Nat → Bool) (saved : List Host.Cell) : List Host.Cell :=
  (saved.filter (fun c => inside c.1)).foldl (fun m c => memSet m c.1 c.2) (m.filter (fun c => !inside c.1))

/-- A log is published and pressed (R305). -/
def State.flushLog (s : State) (core : Nat) : State :=
  (s.publish core).pressPublished core

/-! ### The save image (R446, R447) -/

/-- Byte k of a number. -/
def byteNum (n k : Nat) : Byte := BitVec.ofNat 8 (n / 256 ^ k)

/-- The quarters of the windows of the leases that a reclaim took, in handle order and ascending address: their first
bytes in the shared scratchpad (R193, R262, R447). -/
def Image.quarters (i : Image) : List Nat :=
  (List.range 4).flatMap fun h => match mfind i.reclaimed h with
    | some f => (List.range 1536).filterMap (fun q => if f.holdsByte (q * 2 ^ 18) then some (q * 2 ^ 18) else none)
    | none => []

/-- The saved commands of an image, in channel and SEQ order (R351, R446). -/
def Image.cmds (i : Image) : List Cmd := i.strand.chan.flatMap (fun c => c.2.buf ++ c.2.queue.filterMap QCmd.isCmd)
/-- Their number. -/
def Image.commands (i : Image) : Nat := i.cmds.length

/-- How firmware writes the parts of an image whose layout the rules do not give (R446; log 38), by their content and the
byte's place: the record of a fragment or of a channel, where its handle binds one; a saved command; and the queue
counts with the Full bits of the entries of each operand queue. -/
opaque fragRecordByte : Option Frag → Nat → Byte
/-- The same for a channel. -/
opaque chanRecordByte : Option Chan → Nat → Byte
/-- The same for a saved command. -/
opaque cmdRecordByte : Cmd → Nat → Byte
/-- The same for the operand queues. -/
opaque queueRecordByte : List (List Bool) → Nat → Byte

/-- The fragment of an image's handle as its record has it, also where its lease was reclaimed (R209, R447): the planes
and the bank are not saved (R444). -/
def Image.fragRecord (i : Image) (h : Nat) : Option Frag :=
  ((mfind i.strand.frag h).or (mfind i.reclaimed h)).map
    (fun f => { f with plane0 := [], plane1 := [], bank := [], proof := 0 })
/-- The channel of an image's handle as its record has it: its commands stand apart. -/
def Image.chanRecord (i : Image) (ch : Nat) : Option Chan :=
  (mfind i.strand.chan ch).map (fun x => { x with buf := [], queue := x.queue.filter (fun q => q.isCmd.isNone) })
/-- Full bits of the entries of the operand queues, oldest first. -/
def Image.queueBits (i : Image) : List (List Bool) :=
  (List.range 4).map (fun q => (mget i.strand.vq q []).map (fun e => e.fe == .full))

/-- The header of an image (R447). -/
def Image.header (s : State) (i : Image) (core : Nat) : Nat :=
  let g := i.strand.group.getD 0
  let tag := match s.kernelOf g with
    | some k => k.ktag
    | none => 0
  0x4D495653 + 1 * 2 ^ 32 + i.was * 2 ^ 48 + i.strand.pc.toNat * 2 ^ 64 + core * 2 ^ 128 + i.strand.rank * 2 ^ 144 +
    groupNum g * 2 ^ 160 + tag * 2 ^ 192 + i.strand.asid.getD 0 * 2 ^ 224 + i.quarters.length * 2 ^ 18 * 2 ^ 256 +
    i.commands * 2 ^ 320

/-- The control registers of an image, in their order (R446). -/
def Image.controls (s : State) (i : Image) (core : Nat) : List Word :=
  let t := i.strand
  [t.fflags.setWidth 64, t.frm.setWidth 64, t.srstate, t.vrb.setWidth 64, BitVec.ofNat 64 i.time, t.epc, t.cause, t.tval,
    BitVec.ofNat 64 (t.ss.toNat * 2 ^ 7 + ((mget s.secmap (dieOf core) 0).getLsbD (clusterOf core)).toNat * 2)]

/-- A word of the arrival records of an image (R446). -/
def Image.arrival (i : Image) (n : Nat) : Nat :=
  match i.strand.arr[n / 2]? with
  | none => 0
  | some r => if n % 2 = 0 then 0xFF30000000000000 + 64 * r.line else r.gen % 2 ^ 16 + r.done.toNat * 2 ^ 16

/-- Byte o of an image (R446). The layout of the queue bits, of the records of fragments and channels, and of the saved
commands is firmware's (log 38). -/
def Image.byte (s : State) (i : Image) (core o : Nat) : Byte :=
  let t := i.strand
  if o < 0x40 then byteNum (i.header s core) o
  else if o < 0x1000 then 0
  else if o < 0x1100 then byteNum (t.gval ((o - 0x1000) / 8)).toNat (o % 8)
  else if o < 0x1108 then byteNum t.feg (o - 0x1100)
  else if o < 0x1110 then byteNum t.fev (o - 0x1108)
  else if o < 0x1158 then byteNum ((i.controls s core).getD ((o - 0x1110) / 8) 0).toNat (o % 8)
  else if o < 0x1180 then 0
  else if o < 0x1200 then byteNum (i.arrival ((o - 0x1180) / 8)) (o % 8)
  else if o < 0x1280 then byteNum (mget i.fmt ((o - 0x1200) / 4) formatReset).toNat (o % 4)
  else if o < 0x1400 then 0
  else if o < 0x1800 then byteNum (t.kval ((o - 0x1400) / 128)).toNat (o % 128)
  else if o < 0x2000 then 0
  else if o < 0x5800 then byteNum (t.vval ((o - 0x2000) / 512)).toNat (o % 512)
  else if o < 0x7800 then
    byteNum (((mget t.vq ((o - 0x5800) / 2048) [])[(o - 0x5800) / 512 % 4]?).elim 0 (fun e => e.data.toNat)) (o % 512)
  else if o < 0x7840 then queueRecordByte i.queueBits (o - 0x7800)
  else if o < 0x8000 then 0
  else if o < 0xC000 then fragRecordByte (i.fragRecord ((o - 0x8000) / 4096)) (o % 4096)
  else if o < 0x14000 then chanRecordByte (i.chanRecord ((o - 0xC000) / 4096)) (o % 4096)
  else if o < 0x24000 then (i.cmds[(o - 0x14000) / 64]?).elim 0 (fun c => cmdRecordByte c (o % 64))
  else if o < 0x44000 then memByte i.slices (laneAddr core 0 (o - 0x24000))
  else if o < 0x80000 then 0
  else if o < 0x280000 then memByte i.scratch (spAddr core (o - 0x80000))
  else memByte i.windows (sharedAddr (i.quarters.getD ((o - 0x280000) / 2 ^ 18) 0 + o % 2 ^ 18))

/-- The number of lines of an image (R446, R447). -/
def Image.lines (i : Image) : Nat := (0x280000 + i.quarters.length * 2 ^ 18) / 64

/-- The place of an image in the reserved region of the strand's die, above the log areas and aligned to 64 KiB, where
firmware chooses (R445, R446, R547; log 92). -/
opaque imagePlace : Nat → Nat
/-- The first byte of the image with a number. -/
def State.imageAt (s : State) (key core : Nat) : Nat :=
  let top := dieOf core * 2 ^ 36 + 2 ^ 36
  let base := top - s.rsvg * 2 ^ 30 + 2 ^ 30
  base + imagePlace key % ((top - base - 0x280000 - 2 ^ 26) / 2 ^ 16 + 1) * 2 ^ 16
/-- Firmware writes an image to its place (R445). -/
def State.storeImage (s : State) (key core : Nat) (i : Image) : State :=
  let a := s.imageAt key core
  let n := 64 * i.lines
  { s with
    mem := memPutList s.mem a ((List.range n).map (fun o => i.byte s core o))
    failed := s.failed.filter (fun x => decide (64 * x.1 < a) || decide (a + n ≤ 64 * x.1))
    images := mset s.images key i }

/-- The bank formats of a core with those written in this tick (R277, R278). -/
def State.formatsOf (s : State) (core : Nat) : SMap (BitVec 32) :=
  (s.fmtDue.filter (fun f => f.1 == core)).foldl (fun m f => mset m f.2.1 f.2.2) (s.core core).fmt
/-- Saves a strand (R444, R445). -/
def State.saveStrand (s : State) (g core : Nat) : State :=
  let was := (s.strand core).st.savedFrom
  let waited := (s.strand core).waiting
  let s := (((s.withdrawWait core).performWrites core (fun _ => true)).flushLog core).passQueues core
  let s := s.leavePages core
  let t := s.strand core
  let t := if waited then { t with epc := t.pc } else t
  let park := fun (f : Nat × Frag) => (f.1, f.2.parked)
  let rest := fun (c : Nat × Chan) => (c.1, c.2.parked)
  let t := { t with st := .saved, why := .none, blocked := none, frag := t.frag.map park, chan := t.chan.map rest }
  let i : Image :=
    { strand := t, was := was, time := (s.core core).lclk, fmt := s.formatsOf core,
      scratch := cellsIn s.mem (spAddr core 0) (spAddr (core + 1) 0),
      slices := cellsIn s.mem (laneAddr core 0 0) (laneAddr (core + 1) 0 0), reclaimed := [], regranted := [],
      windows := [], bad := none }
  ({ s with fmtDue := s.fmtDue.filter (fun f => f.1 != core) }.setStrand core Strand.start).storeImage (imageKey g core) core i

/-- A queue that holds a slot (R431). -/
def State.queueMapped (s : State) (q : Nat) : Bool :=
  (mfind s.queues q).elim false (fun x => x.st == .mapped || x.st == .held)
/-- A Waiting group of a mapped queue cannot be placed (R431). -/
def State.roomWanted (s : State) : Bool :=
  s.kernels.any (fun k => k.2.waits && s.queueMapped k.2.qid && (s.kernelCores k.2).isNone)
/-- A group comes before another one for pre-emption (R431): those of unmapped queues first, lower PRI first. -/
def State.yieldsBefore (s : State) (a b : Nat) : Bool :=
  match s.kernelOf a, s.kernelOf b with
  | some j, some k =>
    let m := s.queueMapped j.qid
    let n := s.queueMapped k.qid
    (!m && n) || (m == n && decide (s.pri4 j.qid < s.pri4 k.qid))
  | _, _ => false
/-- Firmware pre-empts a group now (R431). -/
def State.mayPreempt (s : State) (g : Nat) : Bool :=
  s.roomWanted && s.groups.all (fun x => x.2.st != .running || !s.yieldsBefore x.1 g)

/-- PREEMPT_SAVE (R382, R384, R431, R444): every strand of the group that is not Done. -/
def execPreemptSave (group : Nat) (s : State) : Result State :=
  match mfind s.groups group with
  | none => .fault .noSuchObject
  | some x =>
    if x.st = .running && s.mayPreempt group && x.cores.all s.saveable then
      let late := x.overdue (s.wdogOf ((s.kernelOf group).map Kernel.asid)) s.now
      let s := x.cores.foldl (fun s c => if (s.strand c).ended then s else s.saveStrand group c) s
      .next (s.setGroup group { x with st := .saved, idle := s.now - x.progress, expired := late })
    else .next s

/-- The requests for the leases that a reclaim took from a Saved strand (R209, R448). -/
def State.askAgain (s : State) (g core : Nat) (i : Image) : State :=
  let d := dieOf core
  let ask := fun (x : Nat × Frag) =>
    ({ core := core, asid := i.strand.asid, h := x.1, qid := x.2.qid, lh := x.2.lh, lw := x.2.lw,
       fix := some (x.2.row0, x.2.col0), secure := x.2.secure, deadline := 0, tick := s.now, regrant := some g,
       grant := none } : LeaseReq)
  let asked := fun (x : Nat × Frag) => (s.die d).reqs.any (fun r => r.core == core && r.regrant == some g && r.h == x.1)
  ((i.reclaimed.filter (fun x => !asked x)).map ask).foldl (fun s r => s.addReq d r) s

/-- The windows of a strand's fragments that were leased again. -/
def Image.window (i : Image) (a : Nat) : Bool :=
  decide (sharedBase ≤ a) && decide (a < spBase) &&
    i.regranted.any (fun h => match mfind i.strand.frag h with
      | some f => f.holdsByte (a - sharedBase)
      | none => false)

/-- The tables of a restored strand (R220, R247): each is in the state before parking; those that ran, or stopped with a
bank that was not empty, rewind with their cascades; copy tables resume at their step. -/
def State.resumeTables (s : State) (core : Nat) : State :=
  let t := s.strand core
  let hs := (List.range 4).filter fun h => match mfind t.frag h with
    | some f => f.tbl.rewinding
    | none => false
  let run := fun (u : Tbl) => if u.st = .parked then { u with st := u.was } else u
  let frags := fun (f : Nat × Frag) => (f.1, { f.2 with tbl := run f.2.tbl })
  let chans := fun (c : Nat × Chan) => (c.1, { c.2 with tbl := (run c.2.tbl).resumed })
  let t := { t with frag := t.frag.map frags, chan := t.chan.map chans }
  let s := s.setStrand core t
  hs.foldl (fun s h =>
    let l := t.cascade h
    if l.head? = some h ∨ l.all (fun x => decide (h ≤ x) || !hs.contains x) then
      s.rewindAll core l (l.filter (fun x => match s.tbl core x with
        | some u => u.rewinds
        | none => false))
    else s) s

/-- A restored channel enqueues its saved commands again, in order, before the rest of its queue, and is Open or Broken
(R333, R351): its strand issues its first word once the queue holds them within its capacity. -/
def Chan.again (x : Chan) (now : Nat) : Chan :=
  { x with
    st := if x.cause = 0 then .open else .broken,
    queue := x.buf.map (fun c => .cmd { c with tick := now, again := true }) ++ x.queue, buf := [] }

/-- The state in which a restored strand stands (R104): the one it was saved from. -/
def restoredSt (was : Nat) : StrandSt :=
  match was with
  | 2 => .stalled
  | 3 => .sleeping
  | 4 => .trapped
  | 5 => .halting
  | _ => .running

/-- Restores a strand (R448): every sector that is written back whole is good again (R471). -/
def State.restoreStrand (s : State) (g core : Nat) (i : Image) : State :=
  let inSp := fun a => decide (spAddr core 0 ≤ a) && decide (a < spAddr (core + 1) 0)
  let inLane := fun a => decide (laneAddr core 0 0 ≤ a) && decide (a < laneAddr (core + 1) 0 0)
  let mem := writeBack (writeBack (writeBack s.mem inSp i.scratch) inLane i.slices) i.window i.windows
  let again := fun (c : Nat × Chan) => (c.1, c.2.again s.now)
  let t := { i.strand with st := restoredSt i.was, chan := i.strand.chan.map again, wake := true }
  let inside := fun a => inSp a || inLane a || i.window a
  let s : State := { s with
    mem := mem, failed := s.failed.filter (fun x => !inside (64 * x.1)), images := mdel s.images (imageKey g core) }
  let s := s.setCore core { s.core core with strand := t, fmt := i.fmt }
  let s := s.resumeTables core
  let s := s.setTime core (max (s.core core).lclk i.time)
  let s := s.acquire core ((List.range Config.cores).filter (fun c => !s.logHidden core c))
  let s := s.raiseHome core false
  s.setStrand core (s.fetchFrom core (s.strand core))

/-- A context with no group left that has not ended, and no kernel that waits (R449). -/
def State.ctxIdle (s : State) (a : Nat) : Bool :=
  s.kernels.all (fun k => k.2.asid != a || !(k.2.waits || s.groups.any (fun g => groupKernel g.1 == k.1 && !g.2.ended)))

/-- PRESS_RECORD (R294): the first Published record of a log. -/
def execPressRecord (core : Nat) (s : State) : Result State :=
  if Config.cores ≤ core then .fault .noSuchObject
  else
    match (s.log core).recs with
    | r :: _ =>
      if r.idx < (s.log core).pub then .next (s.pressRec core r) else .next s
    | [] => .next s

/-- A reclaim takes the leases of a Saved strand (R209, R447): their windows are saved with the image. Of a lease that
was granted again and is taken once more before the restore, the image still holds the window. -/
def State.reclaim (s : State) (key : Nat) (i : Image) : State :=
  let frags := i.strand.frag
  let fresh := frags.filter (fun f => !i.regranted.contains f.1)
  let holds := fun a => decide (sharedBase ≤ a) && decide (a < spBase) && fresh.any (fun f => f.2.holdsByte (a - sharedBase))
  let i := { i with
    strand := { i.strand with frag := [] }, reclaimed := frags ++ i.reclaimed, regranted := [],
    windows := i.windows.filter (fun c => !holds c.1) ++ s.mem.filter (fun c => holds c.1) }
  let s := s.storeImage key (key % 512) i
  frags.foldl (fun s f => s.scrub f.2.die f.2.rect.tiles f.2.seq f.2.suspect) s

/-- LEASE_RECLAIM (R209): of a strand saved from a core. -/
def execLeaseReclaim (core : Nat) (s : State) : Result State :=
  if Config.cores ≤ core then .fault .noSuchObject
  else
    match s.images.find? (fun i => i.1 % 512 == core && i.2.strand.frag != []) with
    | some (key, i) => .next (s.reclaim key i)
    | none => .next s

end Sys2Proof.Machine
end

