-- ==== Sys2Proof/Machine/Front.lean ====
section
/-! DEFINITION. The queue front end on memory (R426, R549): whose identity it has, its acquires, its reads and
writes in the memory of a context, its atomics, and the fields of packets (R424, R425). -/

namespace Sys2Proof.Machine

/-- The core whose identity the front end has (R549). -/
def State.front (s : State) : Nat := 64 * ((List.range 6).find? s.present).getD 0

/-- The acquire that the front end performs on behalf of a packet (R426, R549): every log, with the home-atomics
bit. -/
def State.frontAcquire (s : State) : State :=
  let f := s.front
  (s.acquire f ((List.range Config.cores).filter (fun c => !s.logHidden f c))).raiseHome f false

/-- The place of an access of the front end, under a context's translation and world (R424, R458; log 33). On a barrier page
an atomic fails and a read has no place (R372, R467). -/
def State.frontPlace (s : State) (a va n : Nat) (acc : Access) : Place :=
  if 2 ^ 56 ≤ va then .bad cPROTECT
  else
    match s.look s.front a va with
    | .leaf l =>
      match s.leafPlace l va n acc (s.ctx a).secure with
      | .at pa =>
        if !isBarrier pa then .at pa
        else match acc with
          | .read => .bad cPROTECT
          | .atom => .bad cBARRIER_CLOBBER
          | _ => .at pa
      | p => p
    | .page => .bad cPAGE
    | .request => if s.pageRefused s.front a va then .bad cPAGE else .wait

/-- What an access of the front end leaves behind: a cached leaf, or the request that it waits for (R460, R465). -/
def State.frontTouch (s : State) (a va : Nat) : State :=
  if 2 ^ 56 ≤ va then s
  else
    match s.look s.front a va with
    | .leaf l =>
      let s := s.cacheLeaf s.front l
      if l.tier = 2 && l.ats && !(s.ats.any (fun x => x.1 == a && x.2.1 == l.pa)) && 
          !s.atsReq.any (fun x => x.1 == a && x.2.1 == l.pa) then
        { s with atsReq := s.atsReq ++ [(a, l.pa, s.now)] }
      else s
    | .request =>
      if s.pageRefused s.front a va then s.clearPri s.front a va
      else (s.cacheWalk (dieOf s.front) a va).askPage s.front a va
    | .page => s.cacheWalk (dieOf s.front) a va

/-- How an access of the front end ended: with bytes, with an error at an address, or in a wait. -/
inductive Front where
  | ok (s : State) (bytes : List Byte)
  | bad (s : State) (cause : Cause) (va : Nat)
  | wait (s : State)
  deriving DecidableEq, Repr

/-- Reads n bytes of a context's memory, line by line; the count bounds the lines. -/
def State.frontReadGo (s : State) (a va n : Nat) : Nat → Front
  | 0 => .ok s []
  | k + 1 =>
    let m := min n (64 - va % 64)
    if n = 0 then .ok s []
    else
      let t := s.frontTouch a va
      match s.frontPlace a va m .read with
      | .bad c => .bad t c va
      | .wait => .wait t
      | .at pa =>
        let r := t.readLine t.front pa m
        match r.err with
        | some c => .bad r.s c va
        | none =>
          match r.s.frontReadGo a (va + m) (n - m) k with
          | .ok s bs => .ok s (r.bytes ++ bs)
          | x => x
/-- Reads n bytes of a context's memory. -/
def State.frontRead (s : State) (a va n : Nat) : Front := s.frontReadGo a va n (n / 64 + 2)

/-- Writes bytes of a context's memory as records of the front end's log (R549). On a barrier page a write to a live word
fails, and any other is discarded (R372, R467). -/
def State.frontWrite (s : State) (a va n : Nat) (lines : Nat → List Nat) (records : Nat → List (List Part)) : Front :=
  let t := s.frontTouch a va
  match s.frontPlace a va n .write with
  | .bad c => .bad t c va
  | .wait => .wait t
  | .at pa =>
    let f := t.front
    let rs := records pa
    if isBarrier pa then if (lines pa).any t.barrierLive then .bad t cBARRIER_CLOBBER va else .ok t []
    else if (t.log f).fits ((rs.map recordUnits).sum) then
      .ok (rs.foldl (fun s r => s.append f (recordUnits r) r) (t.setLog f { t.log f with held := false })) []
    else .wait (t.setLog f { t.log f with held := true })
/-- Bytes of one line. -/
def State.frontWriteLine (s : State) (a va : Nat) (bs : List Byte) : Front :=
  s.frontWrite a va bs.length (fun pa => [pa]) (fun pa => [[partOf pa (allBytes bs)]])
/-- Bytes that the copy engine writes within one 4 KiB block (R286, R549). -/
def State.frontWriteBlock (s : State) (a va : Nat) (bs : List Byte) : Front :=
  let split := fun pa => splitLines (bs.length / 64 + 2) pa bs
  s.frontWrite a va bs.length (fun pa => (split pa).map (·.1)) (fun pa => engineRecords (split pa))

/-- A 64-bit atomic of the front end at .sy (R297, R327, R549): its log is published first, and for host memory its
records are sent before. `op` is 0 for add and 6 for
swap. -/
def State.frontAtom (s : State) (a va : Nat) (op : BitVec 3) (x : Word) : Front :=
  let t := s.frontTouch a va
  match s.frontPlace a va 8 .atom with
  | .bad c => .bad t c va
  | .wait => .wait t
  | .at pa =>
    let f := t.front
    let t := t.publish f
    let t := if isHost pa then t.pressPublished f else t
    let (t, src, keys) := t.atomAtHome f ⟨pa, BitVec.ofNat 64 va, op, 1, 6, x, 0⟩
    match src with
    | .error c _ => .bad t c va
    | _ => .ok (t.liftAll f keys) []

/-- A field of a packet or object: n bytes from an offset. -/
def fieldOf (x off n : Nat) : Nat := x / 2 ^ (8 * off) % 2 ^ (8 * n)
/-- A field of a packet. -/
def Packet.field (p : Packet) (off n : Nat) : Nat := fieldOf p.bytes.toNat off n
/-- TYPE (R424). -/
def Packet.ty (p : Packet) : Nat := p.field 0 1
/-- ORD. -/
def Packet.ord (p : Packet) : Bool := p.field 1 1 % 2 == 1
/-- The MSI flag. -/
def Packet.msi (p : Packet) : Bool := p.field 1 1 / 2 % 2 == 1
/-- SIG. -/
def Packet.sig (p : Packet) : Nat := p.field 8 8
/-- SADD. -/
def Packet.sadd (p : Packet) : Word := BitVec.ofNat 64 (p.field 16 8)
/-- RES. -/
def Packet.res (p : Packet) : Nat := p.field 24 8

/-- The bytes of the body that a packet type names (R425). -/
def bodyBytes (ty : Nat) : Option (List (Nat × Nat)) :=
  match ty with
  | 0x01 => some [(0x20, 24)]
  | 0x02 => some [(0x20, 5), (0x28, 12)]
  | 0x03 => some [(0x20, 4)]
  | 0x04 => some [(0x20, 20)]
  | 0x05 => some [(0x20, 17)]
  | 0x06 | 0x07 => some [(0x20, 9), (0x30, 8)]
  | 0x08 => some [(0x20, 16)]
  | 0x09 => some [(0x20, 8)]
  | 0x0F => some []
  | _ => none

/-- A reserved byte of a packet is not zero (R424, R425). -/
def Packet.reserved (p : Packet) (named : List (Nat × Nat)) : Bool :=
  p.field 1 1 / 4 != 0 || p.field 2 6 != 0 ||
    (List.range 32).any fun i =>
      p.field (0x20 + i) 1 != 0 && !named.any (fun r => decide (r.1 ≤ 0x20 + i) && decide (0x20 + i < r.1 + r.2))

/-- A body field outside its range (R425). -/
def Packet.outOfRange (p : Packet) : Bool :=
  match p.ty with
  | 0x02 => (decide (6 ≤ p.field 0x24 1) && p.field 0x24 1 != 0xFF) || p.field 0x30 4 == 0 || decide (65536 < p.field 0x30 4)
  | 0x05 => decide (1 < p.field 0x30 1)
  | 0x06 | 0x07 => p.field 0x28 1 == 0 || decide (12 < p.field 0x28 1)
  | _ => false

/-- An address of a packet that is not aligned (R424, R425). -/
def Packet.misaligned (p : Packet) : Bool :=
  p.sig % 8 != 0 || p.res % 16 != 0 ||
    (match p.ty with
      | 0x02 => p.field 0x28 8 % 64 != 0
      | 0x05 | 0x06 | 0x07 | 0x09 => p.field 0x20 8 % 8 != 0
      | 0x08 => p.field 0x28 8 % 64 != 0
      | _ => false)

/-- Why a packet is refused as it stands (R424, R425; log 33). -/
def Packet.malformed (p : Packet) : Option Cause :=
  match bodyBytes p.ty with
  | none => some cUNDEF
  | some l =>
    if p.reserved l then some cUNDEF
    else if p.outOfRange then some cFORMAT
    else if p.misaligned then some cMISALIGN
    else none

/-- The statuses of R428. -/
def stOK : Nat := 0
def stREFUSED : Nat := 1
def stKILLED : Nat := 2
def stNODE : Nat := 3
def stTIMEOUT : Nat := 4
def stFAULT : Nat := 5
def stRESET : Nat := 6

/-- A packet whose work is complete. -/
def Packet.finish (p : Packet) (status : Nat) (cause : Cause) (aux1 : Nat) (aux2 : Word) : Packet :=
  { p with st := .ready, status := status, cause := cause, aux1 := aux1, aux2 := aux2 }

/-- A packet as the front end takes it up. -/
def newPacket (id qid asid idx : Nat) (bytes : Line) (node : Option (Nat × Nat)) : Packet :=
  { id := id, qid := qid, asid := asid, idx := idx, bytes := bytes, node := node, st := .head, prog := 0, read := false,
    list := [], status := 0, cause := 0, aux1 := 0, aux2 := 0, ref := 0, rels := [], buf := [] }

/-- Replaces a packet. -/
def State.setPacket (s : State) (p : Packet) : State :=
  { s with packets := s.packets.map (fun x => if x.id = p.id then p else x) }

/-- A queue as it is before its first enable. -/
def Queue.start : Queue :=
  { st := .disabled, wptr := 0, rptr := 0, slot := none, base := 0, vec := 0, pasid := 0, en := false,
    wt := 0, pri := 0, logsz := 0, cause := 0, err := false, fail := false, drop := false, asid := 0, overrun := false }
/-- A queue by its QID. -/
def State.queue (s : State) (q : Nat) : Queue := mget s.queues q Queue.start
/-- Replaces a queue. -/
def State.setQueue (s : State) (q : Nat) (x : Queue) : State := { s with queues := mset s.queues q x }
/-- The queues of the package (R418). -/
def queueCount : Nat := 4096

/-- A fault record of the front end (R424, R451). -/
def State.frontFault (s : State) (a : Nat) (cause : Cause) (va : Nat) (group : Nat) (aux : Word) : State :=
  s.fault a ⟨8, cause, false, 0, group, s.front, 0, dieOf s.front, 0, BitVec.ofNat 64 va, aux⟩

end Sys2Proof.Machine
end

