-- ==== Sys2Proof/Machine/Kernel.lean ====
section
/-! DEFINITION. Kernels (R403 to R409): LAUNCH and its checks, flumes and FEED (R387, R388, R427), RETIRE, and the end
of a kernel. The event of a packet type acts on the packets of that type that wait to issue, at the head of the
queue's ring or as graph nodes. -/

namespace Sys2Proof.Machine

/-- A kernel that is live (R425): neither Retired nor Refused. -/
def Kernel.live (k : Kernel) : Bool := k.st != .retired && k.st != .refused
/-- The live kernel of a context that a KTAG names (R425). -/
def State.kernelByTag (s : State) (a ktag : Nat) : Option (Nat × Kernel) :=
  s.kernels.find? (fun k => k.2.asid == a && k.2.ktag == ktag && k.2.live)

/-- The bytes of a die's reserved region that flumes may take (R547): what the log areas, a save image and extension for
every core place, and the event ring leave (log 34). -/
def State.flumeRoom (s : State) : Nat :=
  s.rsvg * 2 ^ 30 - 64 * 2 ^ 24 - 64 * (0x280000 + 0x100000) - 2 ^ 15
/-- Flume capacity of the kernels that hold flumes: the same on every present die. -/
def State.flumeUse (s : State) : Nat := ((s.kernels.filter (fun k => k.2.flumes != [])).map (fun k => 64 * k.2.cap)).sum

/-- The fields of a kernel object (R403). -/
structure Kobj where
  entry : Nat
  group : Nat
  feed : Nat
  banks : Nat
  nbanks : Nat
  image : Word
  deriving DecidableEq, Repr

/-- Reads the fields. -/
def kobjOf (x : Nat) : Kobj :=
  ⟨fieldOf x 8 8, fieldOf x 0x10 2, fieldOf x 0x14 4, fieldOf x 0x18 8, fieldOf x 0x20 4, BitVec.ofNat 64 (fieldOf x 0x28 8)⟩

/-- Reserved fields of a kernel object that are set. -/
def kobjReserved (x : Nat) : Bool :=
  fieldOf x 6 2 != 0 || fieldOf x 0x12 2 != 0 || fieldOf x 0x24 4 != 0 || fieldOf x 0x30 16 != 0

/-- Check 4 of R406. -/
def kobjBad (x : Nat) : Bool :=
  let k := kobjOf x
  k.group == 0 || decide (378 < k.group) || decide (1048576 < k.feed) || decide (416 < k.nbanks) ||
    (k.nbanks != 0 && k.banks % 8 != 0) || kobjReserved x

/-- The bank entries of a kernel (R399): whether shared, the bank and its format. -/
def bankEntries (bs : List Byte) (n : Nat) : List (Nat × Nat × BitVec 32) :=
  let x := bytesNat bs
  (List.range n).map (fun i => (fieldOf x (8 * i) 1, fieldOf x (8 * i + 2) 2, BitVec.ofNat 32 (fieldOf x (8 * i + 4) 4)))
/-- Check 5 of R406: a bank entry that names no bank, or a bad format. -/
def State.bankEntryBad (s : State) (e : Nat × Nat × BitVec 32) : Bool :=
  formatBad e.2.2 ||
    (match e.1 with
      | 0 => decide (32 ≤ e.2.1)
      | 1 => decide (384 ≤ e.2.1) || !s.present (e.2.1 % 6)
      | _ => true)

/-- How a LAUNCH goes on: it waits, it is refused (with IMAGE once the object is read), or a kernel is made. -/
inductive Launch where
  | wait (s : State)
  | refuse (s : State) (cause : Cause) (image : Word) (va : Nat)
  | make (s : State) (k : Kobj) (banks : List (Nat × Nat × BitVec 32))
  deriving DecidableEq, Repr

/-- Checks 6 to 8 of R406. -/
def State.launchRoom (s : State) (a ngroups : Nat) (k : Kobj) : Bool :=
  decide (k.group ≤ ((List.range Config.cores).filter (s.programCore (s.ctxWorld a))).length) &&
    (k.feed == 0 || decide (s.flumeUse + 64 * k.feed ≤ s.flumeRoom)) && ngroups != 0

/-- Check 5 of R406, then the rest: entries that cannot be read fail it too (log 93). -/
def State.launchBanks (s : State) (a ngroups : Nat) (k : Kobj) : Launch :=
  match s.frontRead a k.banks (8 * k.nbanks) with
  | .wait s => .wait s
  | .bad s _ va => .refuse s cFORMAT k.image va
  | .ok s bs =>
    let l := bankEntries bs k.nbanks
    if l.any s.bankEntryBad then .refuse s cFORMAT k.image k.banks
    else if !s.launchRoom a ngroups k then .refuse s cFRAG_STATE k.image 0
    else .make s k l

/-- The checks of a LAUNCH (R406, R425), in their order. Of the causes that R406 lists for check 1, an object that cannot be
read gives PAGE, and of those for check 3, an ENTRY without a translation gives PAGE unless it is PROTECT: DESIGN CHOICE,
unsafe (log 93). -/
def State.launchChecks (s : State) (a : Nat) (p : Packet) : Launch :=
  let kobj := p.field 0x20 8
  if (s.kernelByTag a (p.field 0x34 4)).isSome then .refuse s cFRAG_STATE 0 kobj
  else if kobj % 64 != 0 then .refuse s cMISALIGN 0 kobj
  else
    match s.frontRead a kobj 64 with
    | .wait s => .wait s
    | .bad s _ va => .refuse s cPAGE 0 va
    | .ok s bs =>
      let x := bytesNat bs
      let k := kobjOf x
      if fieldOf x 0 4 != 0x4A424F4B || fieldOf x 4 1 != 1 then .refuse s cFORMAT k.image kobj
      else if s.feat 0 % 256 < fieldOf x 5 1 then .refuse s cUNDEF k.image kobj
      else if k.entry % 4 != 0 then .refuse s cMISALIGN k.image k.entry
      else
        match s.frontPlace a k.entry 4 .fetch with
        | .wait => .wait (s.frontTouch a k.entry)
        | .bad c => .refuse (s.frontTouch a k.entry) (if c = cPROTECT then c else cPAGE) k.image k.entry
        | .at _ =>
          if kobjBad x then .refuse s cFORMAT k.image kobj else s.launchBanks a (p.field 0x30 4) k

/-- The kernel of a LAUNCH that no check has stopped, or that one has. -/
def newKernel (st : KernelSt) (p : Packet) (k : Kobj) (banks : List (Bool × Nat × BitVec 32)) (flumes : SMap Flume) : Kernel :=
  { st := st, asid := p.asid, ktag := p.field 0x34 4, qid := p.qid, arg := BitVec.ofNat 64 (p.field 0x28 8),
    entry := BitVec.ofNat 64 k.entry, size := k.group, cap := k.feed, banks := banks, image := k.image,
    ngroups := p.field 0x30 4, next := 0, killedEarly := [], done := 0, killed := 0, closed := false, flumes := flumes,
    discarded := 0, lastDie := none, waited := 0, hold := none, placedAt := 0 }

/-- The shared banks of a kernel take their formats, in entry order (R406). -/
def State.setSharedBanks (s : State) (l : List (Bool × Nat × BitVec 32)) : State :=
  (l.filter (fun e => e.1)).foldl (fun s e => s.setFormat (.inr e.2.1) e.2.2) s

/-- How the issue of a packet ended: it holds, or it has issued. -/
inductive Issue where
  | hold (s : State) (p : Packet)
  | go (s : State) (p : Packet)
  deriving DecidableEq, Repr

/-- A LAUNCH (R406, R426): its groups become Waiting, or it is refused with a fault record that carries IMAGE. -/
def State.launch (s : State) (p : Packet) : Issue :=
  match s.launchChecks p.asid p with
  | .wait s => .hold s p
  | .refuse s c image va =>
    let s := s.frontFault p.asid c va (p.field 0x34 4 * 2 ^ 32) image
    let s := (s.setKernel s.nextId (newKernel .refused p ⟨0, 0, 0, 0, 0, image⟩ [] []))
    .go { s with nextId := s.nextId + 1 } (p.finish stREFUSED c (p.field 0x30 4) 0)
  | .make s k l =>
    let l := l.map (fun e => (e.1 == 1, e.2.1, e.2.2))
    let flumes := if k.feed = 0 then [] else s.dieList.map (fun d => (d, (⟨0, 0, []⟩ : Flume)))
    let s := (s.setSharedBanks l).setKernel s.nextId (newKernel .launched p k l flumes)
    .go { s with nextId := s.nextId + 1 } { p with st := .issued, ref := s.nextId }

/-- The wake latch of every strand of a kernel on a die (R138, R388). -/
def State.wakeStrands (s : State) (kernel die : Nat) : State :=
  let wake := fun (c : Nat × Core) =>
    if dieOf c.1 == die && c.2.strand.group.map groupKernel == some kernel && !c.2.strand.ended then
      (c.1, { c.2 with strand := { c.2.strand with wake := true } })
    else c
  { s with cores := s.cores.map wake }

/-- The die whose flume takes record j of a FEED (R427). -/
def State.feedDie (s : State) (die j : Nat) : Nat :=
  if die = 0xFF then s.dieList.getD (j % s.dieList.length) 0 else die

/-- Appends a record to a flume that has room (R388). -/
def State.appendRecord (s : State) (i : Nat) (k : Kernel) (die : Nat) (f : Flume) (r : Line) : State :=
  let f : Flume := ⟨f.head, ticketAfter f.tail, f.recs ++ [(f.tail, r)]⟩
  (s.setKernel i { k with flumes := mset k.flumes die f }).wakeStrands i die

/-- The next records of a FEED, at most as many as the count (R388, R409, R427): the first that finds no room, or whose
translation waits, holds the packet. -/
def State.feedGo (s : State) (p : Packet) : Nat → Issue
  | 0 => if p.prog < p.field 0x30 4 then .hold s p else .go s (p.finish stOK 0 0 0)
  | n + 1 =>
    match s.kernelByTag p.asid (p.field 0x20 4) with
    | none => .go s (p.finish stREFUSED cFRAG_STATE 0 0)
    | some (i, k) =>
      let d := s.feedDie (p.field 0x24 1) p.prog
      match if k.closed then none else mfind k.flumes d with
      | none => .go s (p.finish stREFUSED cFRAG_STATE 0 0)
      | some f =>
        if f.count < k.cap then
          match s.frontRead p.asid (p.field 0x28 8 + 64 * p.prog) 64 with
          | .wait s => .hold s p
          | .bad s c _ => .go s (p.finish stFAULT c 0 0)
          | .ok s bs =>
            let p := { p with prog := p.prog + 1 }
            let s := s.appendRecord i k d f (BitVec.ofNat 512 (bytesNat bs))
            if p.prog < p.field 0x30 4 then s.feedGo p n else .go s (p.finish stOK 0 0 0)
        else .hold s p

/-- A FEED (R426, R427): the checks, then its records. -/
def State.feedIssue (s : State) (p : Packet) (n : Nat) : Issue :=
  match s.kernelByTag p.asid (p.field 0x20 4) with
  | none => .go s (p.finish stREFUSED cFRAG_STATE 0 0)
  | some (_, k) =>
    if k.closed || k.cap == 0 then .go s (p.finish stREFUSED cFRAG_STATE 0 0)
    else if p.field 0x24 1 != 0xFF && !s.present (p.field 0x24 1) then .go s (p.finish stREFUSED cABSENT 0 0)
    else s.feedGo p n

/-- A kernel's flumes are freed; the tickets not yet taken are discarded and counted (R408). -/
def Kernel.freeFlumes (k : Kernel) : Kernel :=
  { k with flumes := [], discarded := k.discarded + (k.flumes.map (fun f => f.2.count)).sum }

/-- A Retiring kernel whose groups have all ended is Retired (R405, R408). -/
def Kernel.retireIfDone (k : Kernel) : Kernel :=
  if k.st = .retiring ∧ k.done + k.killed = k.ngroups then { k.freeFlumes with st := .retired } else k

/-- A RETIRE (R405, R408): it closes the feed. -/
def State.retireIssue (s : State) (p : Packet) : Issue :=
  match s.kernelByTag p.asid (p.field 0x20 4) with
  | none => .go s (p.finish stREFUSED cFRAG_STATE 0 0)
  | some (i, k) =>
    .go (s.setKernel i { k with st := .retiring, closed := true }.retireIfDone) { p with st := .issued, ref := i }

/-- KERNEL_RETIRED (R405, R408): the last group of a Retiring kernel has ended. -/
def execKernelRetired (kernel : Nat) (s : State) : Result State :=
  match mfind s.kernels kernel with
  | none => .fault .noSuchObject
  | some k => .next (s.setKernel kernel k.retireIfDone)

/-- Groups of a kernel that are placed and have not ended. -/
def State.liveGroups (s : State) (i : Nat) : List Nat :=
  (s.groups.filter (fun g => groupKernel g.1 == i && !g.2.ended)).map (fun g => g.1)

/-- The numbers of a kernel's Waiting groups, in order. -/
def Kernel.waiting (k : Kernel) : List Nat :=
  ((List.range (k.ngroups - k.next)).map (· + k.next)).filter (fun n => !k.killedEarly.contains n)
/-- The records of the Waiting groups of a kernel, which is killed (R384). -/
def State.reportWaiting (s : State) (i : Nat) (l : List Nat) : State :=
  l.foldl (fun s n => { s.reportKill (groupId i n) 7 0 (s.rank0 (groupId i n)) with freeCtr := s.freeCtr + 1 }) s

/-- Kills every group of a kernel, which retires at once (R384, R405, R433, R438). -/
def State.killKernel (s : State) (i : Nat) : State :=
  let s := (s.liveGroups i).foldl (fun s g => s.killReported g 7 0 (s.rank0 g)) s
  match mfind s.kernels i with
  | none => s
  | some k =>
    if k.live then
      let l := k.waiting
      let y := { k with st := .retired, closed := true, killed := k.killed + l.length, next := max k.next k.ngroups,
                        killedEarly := [] }
      (s.reportWaiting i l).setKernel i y.freeFlumes
    else s

end Sys2Proof.Machine
end

