-- ==== Sys2Proof/Machine/Queue.lean ====
section
/-! DEFINITION. Queues (R418 to R435, R549): their registers and states, the run list, fetch, the packet types, the
completion of packets, graph replays (R410 to R417), and queue reset. -/

namespace Sys2Proof.Machine

/-! ### The work of issued packets (R426) -/

/-- The next part of a COPY packet (R426, R549), or the fault that ends the copy: a line of the source is read, or, once
the bytes of a 4 KiB block of the destination are there, the copy engine writes them in the records of R286. -/
def State.copyStep (s : State) (p : Packet) : State × Packet :=
  let dst := p.field 0x28 8 + p.prog
  let len := p.field 0x30 4
  let n := min (len - p.prog) (4096 - dst % 4096)
  if len ≤ p.prog then (s, p.finish stOK 0 0 0)
  else if p.buf.length < n then
    let src := p.field 0x20 8 + p.prog + p.buf.length
    match s.frontRead p.asid src (min (n - p.buf.length) (64 - src % 64)) with
    | .wait s => (s, p)
    | .bad s c va => (s, p.finish stFAULT c 0 (BitVec.ofNat 64 va))
    | .ok s bs => (s, { p with buf := p.buf ++ bs })
  else
    match s.frontWriteBlock p.asid dst (p.buf.take n) with
    | .wait s => (s, p)
    | .bad s c va => (s, p.finish stFAULT c 0 (BitVec.ofNat 64 va))
    | .ok s _ =>
      let p := { p with prog := p.prog + n, buf := [] }
      (s, if len ≤ p.prog then p.finish stOK 0 0 0 else p)

/-- The store or add of a SIGNAL packet (R426). -/
def State.signalStep (s : State) (p : Packet) : State × Packet :=
  let op : BitVec 3 := if p.field 0x30 1 = 0 then 6 else 0
  match s.frontAtom p.asid (p.field 0x20 8) op (BitVec.ofNat 64 (p.field 0x28 8)) with
  | .wait s => (s, p)
  | .bad s c _ => (s, p.finish stFAULT c 0 0)
  | .ok s _ => (s, p.finish stOK 0 0 0)

/-- The write of a TIMESTAMP packet, whose AUX2 holds the time of its issue until then (R426). -/
def State.stampStep (s : State) (p : Packet) : State × Packet :=
  match s.frontWriteLine p.asid (p.field 0x20 8) (natBytes 8 p.aux2.toNat) with
  | .wait s => (s, p)
  | .bad s c _ => (s, p.finish stFAULT c 0 0)
  | .ok s _ => (s, p.finish stOK 0 0 0)

/-- A LAUNCH completes once all its groups are placed or killed (R426), from the tick after on (R435). -/
def State.launchStep (s : State) (p : Packet) : State × Packet :=
  match mfind s.kernels p.ref with
  | none => (s, p)
  | some k => if (k.skip k.killedEarly.length).ngroups ≤ (k.skip k.killedEarly.length).next && decide (k.placedAt ≤ s.now) then
      (s, p.finish stOK 0 k.ngroups 0) else (s, p)

/-- A RETIRE completes once its kernel is Retired (R408, R426). -/
def State.retireStep (s : State) (p : Packet) : State × Packet :=
  match mfind s.kernels p.ref with
  | none => (s, p)
  | some k =>
    if k.st = .retired then
      (s, p.finish (if k.killed = 0 then stOK else stKILLED) 0 k.done
        (BitVec.ofNat 64 (k.killed % 2 ^ 32 + k.discarded % 2 ^ 32 * 2 ^ 32)))
    else (s, p)

/-- A replay whose nodes have all completed or been skipped. -/
def Replay.ended (r : Replay) : Bool :=
  r.flying.isEmpty && decide (r.nodes.length ≤ r.completed.length + r.skipped.length)

/-- A GRAPH packet copies its patch, a line at a time, and completes with its replay (R416, R417, R426). -/
def State.graphStep (s : State) (p : Packet) : State × Packet :=
  match mfind s.replays p.ref with
  | none => (s, p)
  | some r =>
    let drop := fun (s : State) => { s with replays := mdel s.replays p.ref }
    if r.failed.isNone && decide (r.copied < r.size) then
      match s.frontRead p.asid (r.patch + r.copied) 64 with
      | .wait s => (s, p)
      | .bad s c _ => (drop s, p.finish stFAULT c 0 0)
      | .ok s bs =>
        match s.frontWriteLine p.asid (r.pbuf + r.copied) bs with
        | .wait s => (s, p)
        | .bad s c _ => (drop s, p.finish stFAULT c 0 0)
        | .ok s _ => ({ s with replays := mset s.replays p.ref { r with copied := r.copied + 64 } }, p)
    else if r.ended then
      match r.failed with
      | some (i, c) => (drop s, p.finish stNODE c i 0)
      | none => (drop s, p.finish stOK 0 0 0)
    else (s, p)

/-- The work that an issued packet still has to do, one step of it. -/
def State.packetStep (s : State) (p : Packet) : State × Packet :=
  match p.ty with
  | 0x01 => s.launchStep p
  | 0x03 => s.retireStep p
  | 0x04 => s.copyStep p
  | 0x05 => s.signalStep p
  | 0x08 => s.graphStep p
  | 0x09 => s.stampStep p
  | _ => (s, p)

/-! ### WAIT (R429, R430) -/

/-- An entry of the list: address, value, operation. -/
def waitEntry (x i : Nat) : Word × Word × Nat :=
  (BitVec.ofNat 64 (fieldOf x (24 * i) 8), BitVec.ofNat 64 (fieldOf x (24 * i + 8) 8), fieldOf x (24 * i + 16) 1)

/-- Why a list is refused (R429). -/
def waitListBad (x n : Nat) : Option Cause :=
  if (List.range n).any (fun i => fieldOf x (24 * i + 17) 7 != 0) then some cUNDEF
  else if (List.range n).any (fun i => decide (5 < fieldOf x (24 * i + 16) 1)) then some cFORMAT
  else if (List.range n).any (fun i => fieldOf x (24 * i) 8 % 8 != 0) then some cMISALIGN
  else none

/-- The compares of R411 and R429: EQ, NE, LT, GE, LTN, GEN. -/
def compareOp {w : Nat} (op : Nat) (x y : BitVec w) : Bool :=
  match op with
  | 0 => x == y
  | 1 => x != y
  | 2 => x.slt y
  | 3 => !x.slt y
  | 4 => x.ult y
  | _ => !x.ult y

/-- One evaluation's loads and compares: the mask of the entries that hold (R430). -/
def State.waitMask (s : State) (a : Nat) : List (Word × Word × Nat) → Nat → Sum Front (State × Nat)
  | [], _ => .inr (s, 0)
  | (va, v, op) :: l, bit =>
    match s.frontRead a va.toNat 8 with
    | .ok s bs =>
      match s.waitMask a l (2 * bit) with
      | .inr (s, m) => .inr (s, (if compareOp op (BitVec.ofNat 64 (bytesNat bs)) v then bit else 0) + m)
      | x => x
    | x => .inl x

/-- An evaluation of a WAIT (R430), after its acquire: the condition wins over the deadline. -/
def State.waitEval (s : State) (p : Packet) : Issue :=
  match s.waitMask p.asid p.list 1 with
  | .inl (.bad s c _) => .go s (p.finish stFAULT c 0 0)
  | .inl (.wait s) => .hold s p
  | .inl (.ok s _) => .hold s p
  | .inr (s, m) =>
    let full := 2 ^ p.list.length - 1
    if if p.ty = 0x06 then m = full else m ≠ 0 then .go s (p.finish stOK 0 m 0)
    else if p.field 0x30 8 ≠ 0 ∧ p.field 0x30 8 ≤ (s.ptime s.front).toNat then .go s (p.finish stTIMEOUT 0 0 0)
    else .hold s p

/-- A WAIT packet. -/
def Packet.isWait (p : Packet) : Bool := p.ty == 0x06 || p.ty == 0x07
/-- A WAIT that reaches the head reads its list, once (R429). -/
def State.readList (s : State) (p : Packet) : Issue :=
  let n := p.field 0x28 1
  match s.frontRead p.asid (p.field 0x20 8) (24 * n) with
  | .wait s => .hold s p
  | .bad s c _ => .go s (p.finish stFAULT c 0 0)
  | .ok s bs =>
    let x := bytesNat bs
    match waitListBad x n with
    | some c => .go s (p.finish stREFUSED c 0 0)
    | none => .hold s { p with read := true, list := (List.range n).map (waitEntry x) }
/-- A WAIT is evaluated once it has its list (R429, R430). -/
def State.waitIssue (s : State) (p : Packet) : Issue :=
  if p.read then s.waitEval p
  else
    match s.readList p with
    | .hold s p => if p.read then s.waitEval p else .hold s p
    | r => r

/-! ### Graphs (R410 to R417) -/

/-- A field of a node. -/
def nodeField (x : BitVec 1024) (off n : Nat) : Nat := fieldOf x.toNat off n
/-- The dependences of a node (R411). -/
def nodeDeps (x : BitVec 1024) : List Nat := (List.range (nodeField x 64 2)).map (fun i => nodeField x (80 + 2 * i) 2)
/-- A conditional node. -/
def nodeCond (x : BitVec 1024) : Bool := nodeField x 66 1 % 2 == 1
/-- PMASK. -/
def nodeMask (x : BitVec 1024) : Nat := nodeField x 112 8

/-- A node that refuses its graph (R411, R412). -/
def nodeBad (psize i : Nat) (x : BitVec 1024) : Bool :=
  decide (14 < nodeField x 64 2) || nodeField x 66 1 / 4 != 0 || decide (5 < nodeField x 67 1) ||
    nodeField x 108 4 % 64 != 0 || nodeField x 120 8 != 0 || nodeField x 0 1 == 0x08 ||
    (nodeDeps x).any (fun d => decide (i ≤ d)) ||
    (nodeMask x != 0 && decide (psize < nodeField x 108 4 + 64)) || (nodeCond x && nodeField x 72 8 % 4 != 0)

/-- A header that refuses its graph (R410, R412). -/
def graphBad (x : Nat) : Bool :=
  fieldOf x 0 4 != 0x48505247 || fieldOf x 6 2 != 0 || fieldOf x 0x24 28 != 0 || fieldOf x 4 2 == 0 ||
    decide (4096 < fieldOf x 4 2) || fieldOf x 8 8 % 64 != 0 || fieldOf x 0x10 8 % 64 != 0 ||
    fieldOf x 0x18 8 % 64 != 0 || fieldOf x 0x20 4 % 64 != 0 || decide (2 ^ 20 < fieldOf x 0x20 4)

/-- A buffer of a graph object is busy (R416). -/
def State.bufferBusy (s : State) (a object b : Nat) : Bool :=
  s.replays.any (fun r => r.2.asid == a && r.2.object == object && r.2.buf == b)

/-- A refused GRAPH: the rules name no cause for it, so the cause is a free value (log 4). -/
def State.graphRefused (s : State) (p : Packet) : Issue :=
  let (s, w) := s.fresh
  .go s (p.finish stREFUSED (w.extractLsb' 0 8) 0 0)

/-- The node images in a list of bytes. -/
def nodesOf (x n : Nat) : List (BitVec 1024) := (List.range n).map (fun i => BitVec.ofNat 1024 (fieldOf x (128 * i) 128))

/-- A GRAPH at the head (R412, R416): it waits for a buffer, is refused whole, or its replay is accepted. -/
def State.graphIssue (s : State) (p : Packet) : Issue :=
  let object := p.field 0x20 8
  let patch := p.field 0x28 8
  let b := if s.bufferBusy p.asid object 0 then 1 else 0
  if s.bufferBusy p.asid object 0 && s.bufferBusy p.asid object 1 then .hold s p
  else if object % 64 != 0 then s.graphRefused p
  else
    match s.frontRead p.asid object 64 with
    | .wait s => .hold s p
    | .bad s c _ => .go s (p.finish stREFUSED c 0 0)
    | .ok s bs =>
      let x := bytesNat bs
      if graphBad x then s.graphRefused p
      else
        let n := fieldOf x 4 2
        match s.frontRead p.asid (fieldOf x 8 8) (128 * n) with
        | .wait s => .hold s p
        | .bad s c _ => .go s (p.finish stREFUSED c 0 0)
        | .ok s bs =>
          let nodes := nodesOf (bytesNat bs) n
          let psize := fieldOf x 0x20 4
          if nodes.zipIdx.any (fun y => nodeBad psize y.2 y.1) then s.graphRefused p
          else
            let r : Replay :=
              { qid := p.qid, asid := p.asid, object := object, buf := b, pbuf := fieldOf x (0x10 + 8 * b) 8,
                patch := patch, size := if patch = 0 then 0 else psize, copied := 0, nodes := nodes, completed := [],
                skipped := [], flying := [], passed := [], failed := none }
            .go { s with replays := mset s.replays s.nextId r, nextId := s.nextId + 1 }
              { p with st := .issued, ref := s.nextId }

/-- A node that has completed, been skipped, or issued. -/
def Replay.started (r : Replay) (i : Nat) : Bool := r.completed.contains i || r.skipped.contains i || r.flying.contains i
/-- A node is ready (R413). -/
def Replay.ready (r : Replay) (i : Nat) : Bool :=
  match r.nodes[i]? with
  | none => false
  | some x => !r.started i && (nodeDeps x).all (fun d => r.completed.contains d || r.skipped.contains d)
/-- The ready node that issues next (R413). -/
def Replay.nextNode (r : Replay) : Option Nat := (List.range r.nodes.length).find? r.ready

/-- The dependents of a skipped node, directly or through others (R414). -/
def Replay.dependents (r : Replay) (i : Nat) : List Nat :=
  (r.nodes.zipIdx.foldl (fun (l : List Nat) (y : BitVec 1024 × Nat) =>
    if (nodeDeps y.1).any l.contains && !l.contains y.2 then l ++ [y.2] else l) [i])

/-- Nodes of a replay are skipped. -/
def Replay.skipNodes (r : Replay) (l : List Nat) : Replay :=
  { r with skipped := r.skipped ++ l.filter (fun i => !r.started i) }

/-- A replay fails (R417): its nodes that have not issued are skipped. -/
def State.failReplay (s : State) (rid i : Nat) (cause : Cause) : State :=
  match mfind s.replays rid with
  | none => s
  | some r =>
    if r.failed.isSome then s
    else
      let waiting := (s.packets.filter (fun p => p.st == .head && p.node.map (fun x => x.1) == some rid)).filterMap
        (fun p => p.node.map (fun x => x.2))
      let r := { r with flying := r.flying.filter (fun j => !waiting.contains j), failed := some (i, cause) }
      let r := r.skipNodes (List.range r.nodes.length)
      { s with
        replays := mset s.replays rid r
        packets := s.packets.filter (fun p => !(p.st == .head && p.node.map (fun x => x.1) == some rid)) }

/-- A node's packet has completed (R413, R417). -/
def State.nodeDone (s : State) (rid i status : Nat) (cause : Cause) : State :=
  match mfind s.replays rid with
  | none => s
  | some r =>
    let r := { r with flying := r.flying.filter (· != i), completed := r.completed ++ [i] }
    let s := { s with replays := mset s.replays rid r }
    if status = stOK then s else s.failReplay rid i cause

/-- A replay runs when it is the first of its object and its buffer is filled (R416). -/
def State.replayRuns (s : State) (rid : Nat) (r : Replay) : Bool :=
  r.failed.isNone && decide (r.size ≤ r.copied) &&
    s.replays.all (fun x => decide (rid ≤ x.1) || x.2.asid != r.asid || x.2.object != r.object)

/-- The predicate of a node: whether the node runs (R414). -/
def nodeTrue (x : BitVec 1024) (bs : List Byte) : Bool :=
  compareOp (nodeField x 67 1) (BitVec.ofNat 32 (bytesNat bs)) (BitVec.ofNat 32 (nodeField x 68 4))

/-- The first ready conditional node of a replay whose predicate has not been read, and is not among those that wait for a
translation of it. -/
def Replay.unread (r : Replay) (wait : List Nat) : Option (Nat × BitVec 1024) :=
  ((r.nodes.zipIdx.map (fun y => (y.2, y.1))).find?
    (fun y => nodeCond y.2 && r.ready y.1 && !r.passed.contains y.1 && !wait.contains y.1))

/-- The ready conditional nodes of a replay read their predicates, each after its acquire (R413, R414): a false one skips
its node, which can make others ready; one whose translation is on its way holds no other back. The count bounds the
reads. -/
def State.readPredicatesGo (s : State) (rid : Nat) (wait : List Nat) : Nat → State
  | 0 => s
  | n + 1 =>
    match mfind s.replays rid with
    | none => s
    | some r =>
      match if s.replayRuns rid r then r.unread wait else none with
      | none => s
      | some (i, x) =>
        match s.frontAcquire.frontRead r.asid (nodeField x 72 8) 4 with
        | .wait s => s.readPredicatesGo rid (i :: wait) n
        | .bad s c _ => s.failReplay rid i c
        | .ok s bs =>
          let r :=
            if nodeTrue x bs then { r with passed := r.passed ++ [i] }
            else r.skipNodes (if nodeField x 66 1 / 2 % 2 = 1 then r.dependents i else [i])
          ({ s with replays := mset s.replays rid r }).readPredicatesGo rid wait n
/-- The same for all the nodes of a replay. -/
def State.readPredicates (s : State) (rid : Nat) : State :=
  s.readPredicatesGo rid [] ((mfind s.replays rid).elim 0 (fun r => r.nodes.length))
/-- Every replay that runs reads the predicates of its ready nodes (R414). -/
def State.settleReplays (s : State) : State := (s.replays.map (·.1)).foldl State.readPredicates s

/-- Byte j of the packet a node issues (R415). -/
def overlay (x : BitVec 1024) (bs : List Byte) : Line :=
  mergeLine (BitVec.ofNat 512 (nodeField x 0 64)) (BitVec.ofNat 512 (bytesNat bs)) (BitVec.ofNat 64 (nodeMask x))

/-! ### Issue (R426) -/

/-- What issuing a packet does, after its acquire (R425, R426). A graph node cannot be a GRAPH. -/
def State.issue (s : State) (p : Packet) : Issue :=
  match p.ty with
  | 0x01 => s.launch p
  | 0x02 => s.feedIssue { p with read := true } (p.field 0x30 4 - p.prog)
  | 0x03 => s.retireIssue p
  | 0x04 => .go s { p with st := .issued }
  | 0x05 =>
    let (s, p) := s.signalStep { p with st := .issued }
    .go s p
  | 0x06 | 0x07 => s.waitIssue p
  | 0x08 => if p.node.isSome then .go s (p.finish stREFUSED cUNDEF 0 0) else s.graphIssue p
  | 0x09 =>
    let (s, p) := s.stampStep { p with st := .issued, aux2 := s.ptime s.front }
    .go s p
  | _ => .go s (p.finish stOK 0 0 0)

/-- The ORD condition of a packet (R424); inside a graph the bit is ignored (R426). -/
def State.ordMet (s : State) (p : Packet) : Bool :=
  p.node.isSome || !p.ord || s.packets.all (fun x => x.qid != p.qid || x.node.isSome || decide (p.idx ≤ x.idx))

/-- The head packet of a ring has issued: RPTR moves on, and a Held queue is Mapped again (R422). -/
def State.ringIssued (s : State) (p : Packet) : State :=
  if p.node.isSome then s
  else
    let q := s.queue p.qid
    s.setQueue p.qid { q with rptr := q.rptr + 1, st := if q.st = .held then .mapped else q.st }
/-- The head packet of a ring cannot issue (R422). -/
def State.ringHeld (s : State) (p : Packet) : State :=
  if p.node.isSome then s
  else
    let q := s.queue p.qid
    s.setQueue p.qid { q with st := if q.st = .mapped then .held else q.st }

/-- The nodes of a replay that have a packet which waits to issue. -/
def State.heldNodes (s : State) (rid : Nat) : List Nat :=
  (s.packets.filter (fun p => p.st == .head)).filterMap (fun p => p.node.bind (fun x => if x.1 = rid then some x.2 else none))
/-- A replay with fewer than 16 nodes that have issued and not completed (R413). -/
def State.flightRoom (s : State) (rid : Nat) : Bool :=
  (mfind s.replays rid).elim false (fun r => decide (r.flying.length - (s.heldNodes rid).length < 16))
/-- A held graph node may try to issue: fewer than 16 are in flight, and none of a lower index is ready or held (R413). -/
def State.nodeTurn (s : State) (rid i : Nat) : Bool :=
  s.flightRoom rid &&
  (match (mfind s.replays rid).bind Replay.nextNode with
    | some j => decide (i < j)
    | none => true) &&
  s.packets.all (fun q => q.st != .head || (match q.node with
    | some (r, j) => r != rid || decide (i ≤ j)
    | none => true))
/-- A packet that waits to issue may try: a graph node, or the head of a queue that holds a slot. -/
def State.mayIssue (s : State) (p : Packet) : Bool :=
  p.st == .head && (match p.node with
    | some (rid, i) => s.nodeTurn rid i
    | none => (s.queue p.qid).st == .mapped || (s.queue p.qid).st == .held)

/-- Applies what an attempt to issue gave. -/
def State.applyIssue (s0 : State) (p : Packet) (attempt : State → Packet → Issue) : State :=
  match attempt s0 p with
  | .hold s p => (s.setPacket p).ringHeld p
  | .go s p => (s.setPacket p).ringIssued p

/-- One attempt to issue the packet with a number (R426). -/
def State.tryIssue (s : State) (attempt : State → Packet → Issue) (id : Nat) : State :=
  match s.packets.find? (fun p => p.id == id) with
  | none => s
  | some p =>
    if !s.mayIssue p then s
    else if !s.ordMet p then (if p.isWait && !p.read then s.frontAcquire.applyIssue p State.readList else s.ringHeld p)
    else s.frontAcquire.applyIssue p attempt

/-- The packets of a queue that wait to issue and meet a condition. -/
def State.heads (s : State) (qid : Nat) (c : Packet → Bool) : List Nat :=
  (s.packets.filter (fun p => p.qid == qid && p.st == .head && c p)).map Packet.id

/-- The event of a packet type: every packet of that type that waits to issue in a queue is tried. -/
def typeEvent (ty qid : Nat) (s : State) : Result State :=
  if queueCount ≤ qid then .fault .noSuchObject
  else .next ((s.heads qid (fun p => p.ty == ty)).foldl (fun s i => s.tryIssue State.issue i) s)

/-- LAUNCH (R406, R426). -/
def execLaunch (qid : Nat) (s : State) : Result State := typeEvent 0x01 qid s
/-- FEED (R426, R427). -/
def execFeed (qid : Nat) (s : State) : Result State := typeEvent 0x02 qid s
/-- FEED_RECORD_APPEND (R388, R427): a FEED that has begun appends its next record. -/
def execFeedRecordAppend (qid : Nat) (s : State) : Result State :=
  if queueCount ≤ qid then .fault .noSuchObject
  else
    let one := fun (s : State) (i : Nat) => match s.packets.find? (fun p => p.id == i) with
      | none => s
      | some p => if s.mayIssue p then s.applyIssue p (fun s p => s.feedGo p 1) else s
    .next ((s.heads qid (fun p => p.ty == 0x02 && p.read)).foldl one s)
/-- RETIRE (R408, R426). -/
def execRetire (qid : Nat) (s : State) : Result State := typeEvent 0x03 qid s
/-- COPY (R426). -/
def execCopy (qid : Nat) (s : State) : Result State := typeEvent 0x04 qid s
/-- SIGNAL (R426). -/
def execSignal (qid : Nat) (s : State) : Result State := typeEvent 0x05 qid s
/-- WAIT_ALL (R429, R430). -/
def execWaitAll (qid : Nat) (s : State) : Result State := typeEvent 0x06 qid s
/-- WAIT_ANY (R429, R430). -/
def execWaitAny (qid : Nat) (s : State) : Result State := typeEvent 0x07 qid s
/-- WAIT_EVALUATION (R430): of every WAIT of a queue that has read its list. -/
def execWaitEvaluation (qid : Nat) (s : State) : Result State :=
  if queueCount ≤ qid then .fault .noSuchObject
  else .next ((s.heads qid (fun p => (p.ty == 0x06 || p.ty == 0x07) && p.read)).foldl
    (fun s i => s.tryIssue State.waitEval i) s)
/-- GRAPH (R416, R426). -/
def execGraph (qid : Nat) (s : State) : Result State :=
  match typeEvent 0x08 qid s with
  | .next s => .next s.settleReplays
  | r => r
/-- TIMESTAMP (R426). -/
def execTimestamp (qid : Nat) (s : State) : Result State := typeEvent 0x09 qid s
/-- NOP_PACKET (R426). -/
def execNopPacket (qid : Nat) (s : State) : Result State := typeEvent 0x0F qid s

/-- A node's packet, with its overlay: malformed, it is refused; else it tries to issue (R413, R415, R425). -/
def State.issueNode (s : State) (rid i : Nat) (r : Replay) (bytes : Line) : State :=
  let p := newPacket s.nextId r.qid r.asid 0 bytes (some (rid, i))
  let s := { s with
    nextId := s.nextId + 1
    replays := mset s.replays rid { r with flying := r.flying ++ [i] }
    packets := s.packets ++ [p] }
  match p.malformed with
  | some c => s.setPacket (p.finish stREFUSED c 0 0)
  | none => s.applyIssue p State.issue

/-- A node that runs takes its overlay from the replay's buffer (R415). -/
def State.runNode (s : State) (rid i : Nat) (r : Replay) (x : BitVec 1024) : State :=
  if nodeMask x = 0 then s.issueNode rid i r (overlay x [])
  else
    match s.frontRead r.asid (r.pbuf + nodeField x 108 4) 64 with
    | .wait s => s
    | .bad s c _ => (s.failReplay rid i c)
    | .ok s bs => s.issueNode rid i r (overlay x bs)


/-- GRAPH_NODE_ISSUE (R413 to R415): the least ready node, behind no held node of a lower index, and a conditional one once
its predicate has been read. -/
def execGraphNodeIssue (replay node : Nat) (s : State) : Result State :=
  match (mfind s.replays replay).bind (fun r => r.nodes[node]?) with
  | none => .fault .noSuchObject
  | some x =>
    let s := s.readPredicates replay
    match mfind s.replays replay with
    | none => .next s
    | some r =>
      if s.replayRuns replay r && r.nextNode == some node && s.flightRoom replay &&
          (s.heldNodes replay).all (fun i => decide (node < i)) && (!nodeCond x || r.passed.contains node) then
        .next (s.frontAcquire.runNode replay node r x)
      else .next s

/-! ### Completion (R424, R428) -/

/-- The publications of the strands of a kernel, by core (R408). -/
def State.kernelRels (s : State) (i : Nat) : List (Nat × Nat) :=
  ((s.groups.filter (fun g => groupKernel g.1 == i)).flatMap (fun g => g.2.cores)).map (fun c => (c, (s.log c).pub))

/-- The release of a completion (R408, R426): what it published is on its way, and its signal is due once that is
pressed. -/
def State.releasePacket (s : State) (p : Packet) : State :=
  let s := s.publish s.front
  let rels := (s.front, (s.log s.front).pub) :: (if p.ty = 0x03 then s.kernelRels p.ref else [])
  s.setPacket { p with st := .released, rels := rels }

/-- The result record of a packet (R428). -/
def Packet.result (p : Packet) : List Byte :=
  natBytes 16 (p.status + p.cause.toNat * 2 ^ 16 + p.aux1 % 2 ^ 32 * 2 ^ 32 + p.aux2.toNat * 2 ^ 64)

/-- Writes the result record of a completed packet, and releases (R424). -/
def State.writeResult (s : State) (p : Packet) : State :=
  if p.res = 0 then s.releasePacket p
  else if p.res % 16 != 0 then (s.frontFault p.asid cMISALIGN p.res 0 0).releasePacket p
  else
    match s.frontWriteLine p.asid p.res p.result with
    | .wait s => s
    | .bad s c va => (s.frontFault p.asid c va 0 0).releasePacket p
    | .ok s _ => s.releasePacket p

/-- The end of a packet: its MSI, the queue's FAIL bit, and its node (R417, R420, R424). -/
def State.endPacket (s : State) (p : Packet) : State :=
  let q := s.queue p.qid
  let s := if p.msi then { s with msi := s.msi ++ [q.vec] } else s
  let s := if p.status = stOK then s else s.setQueue p.qid { q with fail := true, cause := p.cause }
  let s := { s with packets := s.packets.filter (fun x => x.id != p.id) }
  match p.node with
  | some (rid, i) => s.nodeDone rid i p.status p.cause
  | none => s

/-- The signal of a released packet (R424, R426). -/
def State.signalPacket (s : State) (p : Packet) : State :=
  if !p.rels.all (fun r => (s.log r.1).pressedTo r.2) then s
  else if p.sig = 0 then s.endPacket p
  else if p.sig % 8 != 0 then (s.frontFault p.asid cMISALIGN p.sig 0 0).endPacket p
  else
    match s.frontAtom p.asid p.sig 0 p.sadd with
    | .wait s => s
    | .bad s c va => (s.frontFault p.asid c va 0 0).endPacket p
    | .ok s _ => s.endPacket p

/-- A packet that a reset completes waits for the earlier ones of its ring (R433). -/
def State.resetTurn (s : State) (p : Packet) : Bool :=
  p.status != stRESET || s.packets.all (fun x => x.qid != p.qid || x.status != stRESET || decide (p.idx ≤ x.idx))

/-- PACKET_COMPLETE (R424, R426, R428): the n-th packet takes its next step towards its end. -/
def execPacketComplete (n : Nat) (s : State) : Result State :=
  match s.packets[n]? with
  | none => .next s
  | some p =>
    match p.st with
    | .head => .next s
    | .issued =>
      let (s, p) := s.packetStep p
      .next (s.setPacket p).settleReplays
    | .ready => .next (if s.resetTurn p then s.writeResult p else s)
    | .released => .next (if s.resetTurn p then (s.signalPacket p).settleReplays else s)

/-! ### Registers and states (R418 to R423) -/

/-- The address of a ring slot (R423). -/
def Queue.slotAddr (q : Queue) (i : Nat) : Nat := q.base.toNat / 64 * 64 + 64 * (i % 2 ^ q.logsz)

/-- A queue enters Error (R422, R423). -/
def State.queueError (s : State) (qid : Nat) (cause : Cause) : State :=
  s.setQueue qid { s.queue qid with st := .error, err := true, cause := cause }

/-- A write to QDB (R423, R453). The overrun of an Idle queue is recorded, and sends it to Error once it is mapped
(R422, R423; log 36). -/
def State.doorbell (s : State) (qid : Nat) (value : Word) : State :=
  let q := s.queue qid
  if q.st = .disabled || q.st = .resetting || value.toNat < q.wptr then s.setQueue qid { q with drop := true }
  else
    let tooFar := decide (2 ^ q.logsz < value.toNat - q.rptr)
    let s := s.setQueue qid { q with wptr := value.toNat, overrun := q.overrun || (tooFar && q.st == .idle) }
    if (q.st = .mapped || q.st = .held) && tooFar then s.queueError qid cFORMAT
    else if q.st = .idle then s.post (dieOf s.front) 1 (BitVec.ofNat 64 qid) value
    else s

/-- DOORBELL (R419, R423). -/
def execDoorbell (qid : Nat) (value : Word) (s : State) : Result State :=
  if queueCount ≤ qid then .fault .noSuchObject else .next (s.doorbell qid value)

/-- The live context of a PASID (R421, R436). -/
def State.liveByPasid (s : State) (pasid : Nat) : Option Nat :=
  (s.ctxs.find? (fun c => c.2.st == .live && c.2.pasid == pasid)).map (fun c => c.1)

/-- The fields of a written QCFG (R420). -/
def Queue.config (q : Queue) (x : Word) : Queue :=
  { q with vec := x.toNat / 2 ^ 36 % 2 ^ 12, pasid := x.toNat / 2 ^ 16 % 2 ^ 20, en := x.getLsbD 15,
           wt := x.toNat / 2 ^ 7 % 2 ^ 8, pri := x.toNat / 2 ^ 5 % 4, logsz := x.toNat % 32 }

/-- The queues of a context that are enabled and neither in Error nor Resetting. -/
def State.queuesOf (s : State) (a : Nat) : List Nat :=
  (s.queues.filter (fun q => q.2.asid == a &&
    (q.2.st == .idle || q.2.st == .mapped || q.2.st == .held))).map (fun q => q.1)

/-- The queues that a context may enable (R431). -/
def contextQueues : Nat := 256
/-- Setting EN from Disabled (R421). An enable beyond the queues of a context is refused as one with a bad field is: DESIGN
CHOICE, unsafe (log 94). -/
def State.enableQueue (s : State) (qid : Nat) (q : Queue) : State :=
  match s.liveByPasid q.pasid with
  | some a =>
    if q.logsz < 2 || 16 < q.logsz || q.wt = 0 ||
        decide (contextQueues ≤ (s.queues.filter (fun x => x.2.en && x.2.asid == a)).length) then
      s.setQueue qid { q with en := false, err := true, cause := cFORMAT }
    else
      let s := s.setQueue qid { q with st := .idle, wptr := 0, rptr := 0, asid := a, slot := none, overrun := false }
      { s with runList := if s.runList.contains a then s.runList else s.runList ++ [a] }
  | none => s.setQueue qid { q with en := false, err := true, cause := cFORMAT }

/-- Takes a context without enabled queues off the run list (R431). -/
def State.pruneRunList (s : State) (a : Nat) : State :=
  if s.queues.any (fun q => q.2.asid == a && q.2.en) then s
  else { s with runList := s.runList.filter (· != a) }

/-- A RETIRE that has issued, of a kernel that another queue launched: a reset of its queue leaves it alone (R433, R434). -/
def State.retiresOther (s : State) (p : Packet) : Bool :=
  p.ty == 0x03 && p.st == .issued && (mfind s.kernels p.ref).elim false (fun k => k.qid != p.qid && k.live)
/-- Such a RETIRE of a replay that its queue's reset fails goes on by itself. -/
def State.freeRetires (s : State) (rid : Nat) : State :=
  match mfind s.replays rid with
  | none => s
  | some r =>
    let out := fun (p : Packet) => s.retiresOther p && p.node.map (·.1) == some rid
    let gone := (s.packets.filter out).filterMap (fun p => p.node.map (·.2))
    { s with
      packets := s.packets.map (fun p => if out p then { p with node := none } else p)
      replays := mset s.replays rid { r with flying := r.flying.filter (fun i => !gone.contains i), completed := r.completed ++ gone } }

/-- The start of a queue reset (R433): steps 1, 3 and 4; the packets that have not issued complete one by one. -/
def State.resetQueue (s : State) (qid : Nat) : State :=
  let q := s.queue qid
  if q.st = .disabled || q.st = .resetting then s
  else
    let s := s.setQueue qid { q with st := .resetting, en := false, slot := none }
    let kept := fun (p : Packet) => !(p.qid == qid && p.node.isNone && p.st == .head)
    let s : State := { s with packets := s.packets.filter kept }
    let ks := (s.kernels.filter (fun k => k.2.qid == qid && k.2.live)).map (fun k => k.1)
    let s := ks.foldl State.killKernel s
    let rs := (s.replays.filter (fun r => r.2.qid == qid)).map (fun r => r.1)
    let fail := fun (s : State) (r : Nat) => (s.fresh.1.failReplay r (s.fresh.2.toNat % 2 ^ 32) cFRAG_STATE).freeRetires r
    let s := rs.foldl fail s
    let s : State := { s with packets := s.packets.map (fun p =>
      if p.qid = qid && s.retiresOther p then { p with idx := 2 ^ 64 } else p) }
    s.pruneRunList q.asid

/-- A write to QCFG (R420, R421, R433). -/
def State.writeQcfg (s : State) (qid : Nat) (value : Word) : State :=
  let q := s.queue qid
  if q.st = .disabled then
    let q := q.config value
    if q.en then s.enableQueue qid q else s.setQueue qid q
  else if value.getLsbD 15 then s
  else s.resetQueue qid

/-- QUEUE_ENABLE (R421): a write to QCFG that sets EN. -/
def execQueueEnable (qid : Nat) (value : Word) (s : State) : Result State :=
  if queueCount ≤ qid then .fault .noSuchObject
  else if value.getLsbD 15 then .next (s.writeQcfg qid value) else .next s

/-- QUEUE_DISABLE (R421, R433): a write to QCFG that clears EN. -/
def execQueueDisable (qid : Nat) (value : Word) (s : State) : Result State :=
  if queueCount ≤ qid then .fault .noSuchObject
  else if value.getLsbD 15 then .next s else .next (s.writeQcfg qid value)

/-- A translation of a context meets a range of its addresses (R464). -/
def Leaf.meets (l : Leaf) (a lo hi : Nat) : Bool := l.asid == a && decide (l.va < hi) && decide (lo < l.va + l.size)
/-- The same for an entry of a walk cache, which stands for every address below its level's step. -/
def WalkEnt.meets (w : WalkEnt) (a lo hi : Nat) : Bool :=
  let size := 2 ^ ((levels.find? (fun l => l.n == w.level)).elim 0 Level.shift)
  w.asid == a && decide (w.va * size < hi) && decide (lo < w.va * size + size)
/-- Every TLB and walk-cache entry that overlaps a range of a context is dropped (R464). -/
def State.dropRange (s : State) (a lo hi : Nat) : State :=
  let tlb := fun (c : Nat × Core) => (c.1, { c.2 with tlb := c.2.tlb.filter (fun l => !l.meets a lo hi) })
  let walks := fun (d : Nat × Die) => (d.1, { d.2 with walks := d.2.walks.filter (fun w => !w.meets a lo hi) })
  { s with cores := s.cores.map tlb, dies := s.dies.map walks }
/-- Every TLB and cache entry of an ASID is dropped (R464, R472). -/
def State.dropSpace (s : State) (a : Nat) : State :=
  let s := s.dropRange a 0 (2 ^ 56)
  { s with leaves := s.leaves.filter (fun l => l.asid != a) }

/-- The cells and tags of a context are freed (R379, R441). -/
def State.freeCells (s : State) (a : Nat) : State :=
  let mine := (s.cellOwner.filter (fun x => x.2 == a)).map (fun x => x.1) ++
    (s.tagOwner.filter (fun x => x.2 == a)).map (fun x => 3072 + x.1)
  { s with
    cells := s.cells.filter (fun c => !mine.contains c.1)
    arrivals := s.arrivals.filter (fun x => !mine.contains x.line)
    compl := s.compl.filter (fun x => !mine.contains x.1)
    cellOwner := s.cellOwner.filter (fun x => x.2 != a)
    tagOwner := s.tagOwner.filter (fun x => x.2 != a) }

/-- A context enters Tearing (R438, R441, R472, R496): its translations are dropped, and its grants and window handles
released. -/
def State.startTearing (s : State) (a : Nat) : State :=
  let s := ((s.dropSpace a).freeCells a).freeWins a
  let s : State := { s with
    banks := s.banks.filter (fun x => x.2 != a), ats := s.ats.filter (fun x => x.1 != a) }
  s.setCtx a { s.ctx a with st := .tearing }

/-- A context in Killing is Dead once no group lives and every queue is reset (R438); a DESTROY that waits for this goes
on, and a READIMG that waits for a page is no operation that this ends (R438, R440). -/
def State.settleCtx (s : State) (a : Nat) : State :=
  let c := s.ctx a
  if c.st = .killing && s.ctxIdle a && s.queues.all (fun q => q.2.asid != a || q.2.st == .disabled) then
    let s := s.setCtx a { c with st := .dead }
    let s := { s with cwait := s.cwait.filter (fun w => w != (a, false) || s.readimg.isSome) }
    if s.cwait.contains (a, true) then s.startTearing a else s
  else s

/-- One packet that a reset completes with RESET: its header is read again (R433). -/
def State.resetPacket (s : State) (qid : Nat) (q : Queue) : State :=
  match s.frontRead q.asid (q.slotAddr q.rptr) 32 with
  | .wait s => s
  | .bad s c va => (s.frontFault q.asid c va 0 0).setQueue qid { q with rptr := q.rptr + 1 }
  | .ok s bs =>
    let p := newPacket s.nextId qid q.asid q.rptr (BitVec.ofNat 512 (bytesNat bs)) none
    { s.setQueue qid { q with rptr := q.rptr + 1 } with
      nextId := s.nextId + 1, packets := s.packets ++ [p.finish stRESET 0 0 0] }

/-- A packet of a queue that its reset ends, or that completes normally under it; a RETIRE of a kernel that another queue
launched goes on by itself (R433). -/
def State.resetEnds (s : State) (qid : Nat) (p : Packet) : Bool :=
  p.qid == qid && !s.retiresOther p

/-- QUEUE_RESET_COMPLETE (R433, R434): the next packet of step 2, or the end of the reset. -/
def execQueueResetComplete (qid : Nat) (s : State) : Result State :=
  if queueCount ≤ qid then .fault .noSuchObject
  else
    let q := s.queue qid
    if q.st ≠ .resetting then .next s
    else if q.rptr < q.wptr then .next (s.frontAcquire.resetPacket qid q)
    else if s.packets.any (s.resetEnds qid) then .next s
    else .next ((s.setQueue qid { q with st := .disabled, wptr := 0, rptr := 0 }).settleCtx q.asid)

/-! ### Fetch (R432) -/

/-- Ticks before a slot is served again (R432). -/
def slotTicks : Nat := 16
/-- A mapped queue with a packet to fetch. -/
def State.fetchable (s : State) (qid : Nat) (q : Queue) : Bool :=
  q.st == .mapped && decide (q.rptr < q.wptr) && decide (mget s.served (q.slot.getD 0) 0 ≤ s.now) &&
    !s.packets.any (fun p => p.qid == qid && p.node.isNone && p.st == .head)

/-- The order among the slots of one priority (R432). -/
def slotRank (last : Nat) (q : Queue) : Nat := ((q.slot.getD 0) + 512 - 1 - last) % 256

/-- The slot that is served: the greatest PRI, then round robin, and one in a tick (R432). -/
def State.nextFetch (s : State) : Option (Nat × Queue) :=
  if mget s.served s.lastSlot 0 = s.now + slotTicks then none
  else (s.queues.filter (fun q => s.fetchable q.1 q.2)).foldl (fun best q => match best with
    | none => some q
    | some b =>
      if b.2.pri < q.2.pri || (b.2.pri == q.2.pri && decide (slotRank s.lastSlot q.2 < slotRank s.lastSlot b.2)) then some q
      else best) none

/-- The link to the host is Dead (R475). -/
def State.hostDead (s : State) : Bool := (s.link 48).st == .dead

/-- A packet that has been fetched, and so is at the head: malformed, it completes at once (R424, R425); a WAIT reads its
list (R429). -/
def State.fetched (s : State) (qid : Nat) (q : Queue) (bytes : Line) : State :=
  let p := newPacket s.nextId qid q.asid q.rptr bytes none
  let s := { s.setQueue qid q with nextId := s.nextId + 1, packets := s.packets ++ [p] }
  match p.malformed with
  | some c => (s.setPacket (p.finish stREFUSED c 0 0)).ringIssued p
  | none =>
    if p.isWait then
      match s.readList p with
      | .hold s p => s.setPacket p
      | .go s p => (s.setPacket p).ringIssued p
    else s

/-- PACKET_FETCH (R423, R432). A poisoned line of a ring counts as UE_DATA (log 17). -/
def execPacketFetch (s : State) : Result State :=
  match s.nextFetch with
  | none => .next s
  | some (qid, q) =>
    if s.hostDead then .next s
    else
      let n := q.slot.getD 0
      let s := { s with lastSlot := n, served := mset s.served n (s.now + slotTicks) }
      match s.frontAcquire.frontRead q.asid (q.slotAddr q.rptr) 64 with
      | .wait s => .next s
      | .bad s c _ => .next (s.queueError qid (if c = cLOG_POISON then cUE_DATA else c))
      | .ok s bs => .next (s.fetched qid q (BitVec.ofNat 512 (bytesNat bs)))

/-! ### The run list (R431) -/

/-- Slots that queues in Error keep. -/
def State.stuckSlots (s : State) : List Nat :=
  (s.queues.filter (fun q => q.2.st == .error)).filterMap (fun q => q.2.slot)

/-- The queues that a turn maps: the head entry's, then those of every following entry that fits whole. -/
def State.turnQueues (s : State) : List Nat → List Nat
  | [] => []
  | a :: l =>
    let room := 256 - s.stuckSlots.length
    l.foldl (fun (qs : List Nat) b =>
      if qs.length + (s.queuesOf b).length ≤ room then qs ++ s.queuesOf b else qs) ((s.queuesOf a).take room)

/-- A queue without a slot takes the lowest free one. -/
def State.mapQueue (s : State) (qid : Nat) : State :=
  let q := s.queue qid
  if q.slot.isSome then s
  else
    match (List.range 256).find? (fun i => s.queues.all (fun x => x.2.slot != some i)) with
    | some i =>
      let s := s.setQueue qid { q with slot := some i, st := .mapped }
      if q.overrun then s.queueError qid cFORMAT else s
    | none => s

/-- A turn of the run list (R431): the head entry moves to the tail, and the queues of the new turn are mapped. -/
def State.nextTurn (s : State) : State :=
  let l := match s.turn, s.runList with
    | some (a, _), b :: l => if a = b then l ++ [b] else b :: l
    | _, l => l
  let qs := s.turnQueues l
  let unmap := fun (q : Nat × Queue) =>
    if (q.2.st == .mapped || q.2.st == .held) && !qs.contains q.1 then (q.1, { q.2 with st := .idle, slot := none }) else q
  let s := { s with runList := l, turn := l.head?.map (fun a => (a, s.now)), queues := s.queues.map unmap }
  qs.foldl State.mapQueue s

/-- The current turn has ended (R431). -/
def State.turnEnded (s : State) : Bool :=
  match s.turn with
  | none => true
  | some (a, t) =>
    decide (t + (s.ctx a).quantum ≤ s.now) || (s.queuesOf a).all (fun q => decide ((s.queue q).wptr ≤ (s.queue q).rptr))

/-- RUN_LIST_TURN (R431). -/
def execRunListTurn (s : State) : Result State := .next (if s.turnEnded then s.nextTurn else s)

end Sys2Proof.Machine
end

