-- ==== Sys2Proof/Machine/Context.lean ====
section
/-! DEFINITION. Contexts (R436 to R441, R446 to R449, R472): the operations of the context command block, the save image
as READIMG copies it, a restore and its failure, and the end of a teardown. -/

namespace Sys2Proof.Machine

/-- Kills a Live context (R438, R452): every kernel of it, with its groups, and a reset of every queue. -/
def State.killCtx (s : State) (a : Nat) : State :=
  if (s.ctx a).st ≠ .live then s
  else
    let s := s.setCtx a { s.ctx a with st := .killing }
    let s := ((s.kernels.filter (fun k => k.2.asid == a && k.2.live)).map (fun k => k.1)).foldl State.killKernel s
    let s := ((s.queues.filter (fun q => q.2.asid == a && q.2.st != .disabled)).map (fun q => q.1)).foldl State.resetQueue s
    let s := { s with runList := s.runList.filter (· != a) }
    s.settleCtx a

/-- The statuses of CRES (R439). -/
def crOK : Nat := 0
def crNO_ASID : Nat := 1
def crINVALID : Nat := 2
def crSTATE : Nat := 3
def crDENIED : Nat := 4

/-- CRES but for BUSY, which reads 1 while `cwait` is not empty (R439). -/
def State.result (s : State) (op status value : Nat) : State :=
  { s with cres := BitVec.ofNat 64 (value % 2 ^ 16 * 2 ^ 16 + status * 2 ^ 8 + op) }
/-- BUSY. -/
def State.cmdBusy (s : State) : Bool := s.cwait != []
/-- CRES as the host reads it. -/
def State.readCres (s : State) : Word := s.cres ||| (if s.cmdBusy then 0x8000000000000000 else 0)

/-- ASID of the arguments (R440). -/
def State.argAsid (s : State) : Nat := s.carg0.toNat % 2048
/-- PASID, TENANT and SEC of CCMD (R439). -/
def ccPasid (x : Word) : Nat := x.toNat / 2 ^ 24 % 2 ^ 20
def ccTenant (x : Word) : Nat := x.toNat / 2 ^ 16 % 2 ^ 8
def ccSec (x : Word) : Bool := x.getLsbD 15

/-- A write that starts an operation (R439, R455): ignored while BUSY; firmware is told of it (R453). An operation of the
secure management path (R440) takes its OP and arguments from CCMD, CARG0 and CARG1 too, which the host then reads back:
DESIGN CHOICE, unsafe (log 90). -/
def State.startCmd (s : State) (value : Word) (secure : Bool) (f : State → State) : State :=
  if s.cmdBusy then s
  else f ({ s with ccmd := value &&& 0x00000FFFFFFF80FF }.post (dieOf s.front) 7 value (if secure then 1 else 0))

/-- An operation that names a secure context comes through the secure management path only (R440). -/
def State.named (s : State) (op : Nat) (secure : Bool) (f : State → Nat → Ctx → State) : State :=
  let a := s.argAsid
  if (s.ctx a).secure && (s.ctx a).st != .free && !secure then s.result op crDENIED 0 else f s a (s.ctx a)

/-- CREATE (R440): the checks in the order of the table (log 37). HEAD and LOST of the fault ring start at zero with TAIL,
which is all that R450 counts from CREATE: DESIGN CHOICE, unsafe (log 95). -/
def State.opCreate (s : State) (value : Word) (secure : Bool) : State :=
  let pasid := ccPasid value
  if ccSec value && !secure then s.result 1 crDENIED 0
  else if s.ctxs.any (fun c => c.2.st != .free && c.2.pasid == pasid) then s.result 1 crSTATE 0
  else
    match (List.range 2048).find? (fun a => (s.ctx a).st == .free) with
    | none => s.result 1 crNO_ASID 0
    | some a =>
      if ccSec value && s.feat 8 / 2 ^ 48 % 2 = 0 then s.result 1 crDENIED 0
      else if s.carg0.toNat % 64 != 0 || decide (2 ^ 56 ≤ s.carg0.toNat) || decide (s.carg1.toNat % 32 < 4) ||
          decide (16 < s.carg1.toNat % 32) then s.result 1 crINVALID 0
      else
        let c : Ctx :=
          { Ctx.start with st := .live, pasid := pasid, tenant := ccTenant value, secure := ccSec value, quantum := 2 ^ 20,
                           wdog := 2 ^ 30, tinva := (s.ctx a).tinva, tinvCount := (s.ctx a).tinvCount, inval := (s.ctx a).inval, fqBase := s.carg0.toNat, fqLog := s.carg1.toNat % 32,
                           msi := s.carg1.toNat / 2 ^ 5 % 2 ^ 12 }
        (s.setCtx a c).result 1 crOK a

/-- KILL (R438, R440). -/
def State.opKill (s : State) (secure : Bool) : State :=
  s.named 2 secure fun s a c =>
    if c.st ≠ .live then s.result 2 crSTATE 0
    else
      let s := s.killCtx a
      { s.result 2 crOK 0 with cwait := if (s.ctx a).st = .killing then [(a, false)] else [] }

/-- DESTROY (R438, R440, R472): from Live the kill comes first. -/
def State.opDestroy (s : State) (secure : Bool) : State :=
  s.named 3 secure fun s a c =>
    match c.st with
    | .live =>
      let s : State := { s with cwait := [(a, true)] }
      (s.killCtx a).result 3 crOK 0
    | .dead => ({ s.startTearing a with cwait := [(a, true)] }).result 3 crOK 0
    | _ => s.result 3 crSTATE 0

/-- KILLG (R440). -/
def State.opKillg (s : State) (secure : Bool) : State :=
  s.named 4 secure fun s a c =>
    if c.st ≠ .live then s.result 4 crSTATE 0
    else
      match s.kernelByTag a (s.carg1.toNat / 2 ^ 32) with
      | none => s.result 4 crSTATE 0
      | some (i, _) =>
        let g := groupId i (s.carg1.toNat % 2 ^ 32)
        if s.groupLive g then (s.killReported g 7 0 (s.rank0 g)).result 4 crOK 0 else s.result 4 crSTATE 0

/-- QUANTUM (R440). -/
def State.opQuantum (s : State) (secure : Bool) : State :=
  s.named 5 secure fun s a c =>
    if c.st = .free then s.result 5 crSTATE 0
    else if s.carg1.toNat < 2 ^ 16 || 2 ^ 32 < s.carg1.toNat then s.result 5 crINVALID 0
    else (s.setCtx a { c with quantum := s.carg1.toNat }).result 5 crOK 0

/-- A new WDOG counts from here on for groups whose kill the one before has not decided (R443). -/
def State.latchOverdue (s : State) (a : Nat) : State :=
  let w := (s.ctx a).wdog
  { s with groups := s.groups.map fun g =>
      if (s.kernelOf g.1).elim false (fun k => k.asid == a) && g.2.overdue w s.now then (g.1, { g.2 with expired := true })
      else g }
/-- WDOG (R440, R443). -/
def State.opWdog (s : State) (secure : Bool) : State :=
  s.named 6 secure fun s a c =>
    let n := s.carg1.toNat
    if c.st = .free then s.result 6 crSTATE 0
    else if n ≠ 0 && (n < 2 ^ 20 || 2 ^ 40 < n) then s.result 6 crINVALID 0
    else ((s.latchOverdue a).setCtx a { c with wdog := n }).result 6 crOK 0

/-- TRESET (R440). -/
def State.opTreset (s : State) (value : Word) (secure : Bool) : State :=
  let mine := (s.ctxs.filter (fun c => c.2.st == .live && c.2.tenant == ccTenant value)).map (fun c => c.1)
  let kill := mine.filter (fun a => secure || !(s.ctx a).secure)
  let s := (kill.foldl State.killCtx s).result 8 crOK (mine.length - kill.length)
  { s with cwait := (kill.filter (fun a => (s.ctx a).st == .killing)).map (fun a => (a, false)) }

/-- The code of a context's state (R437, R440). -/
def CtxSt.code : CtxSt → Nat
  | .free => 0
  | .live => 1
  | .killing => 2
  | .dead => 3
  | .tearing => 4

/-- QUERY (R440). -/
def State.opQuery (s : State) (secure : Bool) : State :=
  s.named 9 secure fun s _ c =>
    s.result 9 crOK (c.st.code + (if c.st = .free then 0 else c.secure.toNat * 2 ^ 3 + c.tenant % 256 * 2 ^ 4))

/-! ### READIMG (R440) -/

/-- Writes the lines of an image from a line on, as records of the front end's core (R446; log 38). -/
def State.writeImage (s : State) (a dst core : Nat) (i : Image) (byte : Nat → Byte) : Nat → Nat → Front
  | _, 0 => .ok s []
  | l, n + 1 =>
    match s.frontWriteLine a (dst + 64 * l) ((List.range 64).map (fun k => byte (64 * l + k))) with
    | .ok s _ => (s.flushLog s.front).writeImage a dst core i byte (l + 1) n
    | x => x

/-- The save image of a strand of a context that is Saved on a core. -/
def State.imageOn (s : State) (a core : Nat) : Option Image :=
  (s.images.find? (fun i => i.1 % 512 == core && i.2.strand.asid == some a)).map (·.2)

/-- READIMG copies, or waits for a page of its destination: it keeps its context, core and destination (R440). -/
def State.copyImage (s : State) (a core dst : Nat) : State :=
  let stop := fun (s : State) (status : Nat) => { s.result 7 status 0 with cwait := [], readimg := none }
  match s.imageOn a core with
  | none => stop s crSTATE
  | some i =>
    match s.writeImage a dst core i (fun o => i.byte s core o) 0 i.lines with
    | .ok s _ => stop s crOK
    | .bad s _ _ => stop s crINVALID
    | .wait s => { s.result 7 crOK 0 with cwait := [(a, false)], readimg := some (a, core, dst) }

/-- READIMG (R440): the first Saved strand of the context whose core it names. -/
def State.opReadimg (s : State) (secure : Bool) : State :=
  s.named 7 secure fun s a c =>
    let core := s.carg0.toNat / 2 ^ 32 % 512
    if c.st = .free || (s.imageOn a core).isNone then s.result 7 crSTATE 0
    else if s.carg1.toNat % 2 ^ 16 != 0 then s.result 7 crINVALID 0
    else s.copyImage a core s.carg1.toNat

/-- The write to CCMD that one operation's event stands for: its OP is that operation's. -/
def ccmdEvent (op : Nat) (value : Word) (secure : Bool) (s : State) (f : State → State) : Result State :=
  if value.toNat % 256 = op then .next (s.startCmd value secure f) else .next s

/-- CREATE (R440). -/
def execCreate (value : Word) (secure : Bool) (s : State) : Result State :=
  ccmdEvent 1 value secure s (fun s => s.opCreate value secure)
/-- KILL (R440). -/
def execKill (value : Word) (secure : Bool) (s : State) : Result State :=
  ccmdEvent 2 value secure s (fun s => s.opKill secure)
/-- DESTROY (R440, R472). -/
def execDestroy (value : Word) (secure : Bool) (s : State) : Result State :=
  ccmdEvent 3 value secure s (fun s => s.opDestroy secure)
/-- KILLG (R440). -/
def execKillg (value : Word) (secure : Bool) (s : State) : Result State :=
  ccmdEvent 4 value secure s (fun s => s.opKillg secure)
/-- QUANTUM (R440). -/
def execQuantum (value : Word) (secure : Bool) (s : State) : Result State :=
  ccmdEvent 5 value secure s (fun s => s.opQuantum secure)
/-- WDOG (R440). -/
def execWdog (value : Word) (secure : Bool) (s : State) : Result State :=
  ccmdEvent 6 value secure s (fun s => s.opWdog secure)
/-- READIMG (R440, R446). One that waits for a page of its destination goes on with the same event. -/
def execReadimg (value : Word) (secure : Bool) (s : State) : Result State :=
  match s.readimg with
  | some (a, core, dst) => .next (s.copyImage a core dst)
  | none => ccmdEvent 7 value secure s (fun s => s.opReadimg secure)
/-- TRESET (R440). -/
def execTreset (value : Word) (secure : Bool) (s : State) : Result State :=
  ccmdEvent 8 value secure s (fun s => s.opTreset value secure)
/-- QUERY (R440). -/
def execQuery (value : Word) (secure : Bool) (s : State) : Result State :=
  ccmdEvent 9 value secure s (fun s => s.opQuery secure)

/-- Any write to CCMD (R439, R440). -/
def State.writeCcmd (s : State) (value : Word) (secure : Bool) : State :=
  s.startCmd value secure fun s =>
    match value.toNat % 256 with
    | 1 => s.opCreate value secure
    | 2 => s.opKill secure
    | 3 => s.opDestroy secure
    | 4 => s.opKillg secure
    | 5 => s.opQuantum secure
    | 6 => s.opWdog secure
    | 7 => s.opReadimg secure
    | 8 => s.opTreset value secure
    | 9 => s.opQuery secure
    | op => s.result op crINVALID 0

/-- Ticks after which a request to the host has timed out (R465, R472). -/
def pageTicks : Nat := 4400000

/-- CONTEXT_TEARDOWN_COMPLETE (R438, R472): every request sent for the PASID has returned or timed out, and no packet of
the context is left. -/
def execContextTeardownComplete (asid : Nat) (s : State) : Result State :=
  if 2048 ≤ asid then .fault .noSuchObject
  else if (s.ctx asid).st ≠ .tearing || s.atsReq.any (fun x => x.1 == asid && decide (s.now < x.2.2 + pageTicks)) ||
      s.pri.any (fun x => x.asid == asid && decide (s.now < x.tick + pageTicks)) ||
      s.packets.any (fun p => p.asid == asid) then .next s
  else
    let s := s.setCtx asid { Ctx.start with
      tinva := (s.ctx asid).tinva, tinvCount := (s.ctx asid).tinvCount, inval := (s.ctx asid).inval }
    .next { s with
      cwait := s.cwait.filter (fun w => w.1 != asid)
      atsReq := s.atsReq.filter (fun x => x.1 != asid)
      pri := s.pri.filter (fun x => x.asid != asid)
      priFail := s.priFail.filter (fun x => x.2.1 != asid) }

/-- The address of a failing sector of an image (R449, R451): which sector of it fails is free (log 92). -/
def State.imageSector (s : State) (key core : Nat) : Nat :=
  s.imageAt key core + (Config.freeWord s.freeCtr).toNat % (mfind s.images key).elim 1 Image.lines * 64

/-- A restore that fails (R449, R451, R470): the group is killed, and a context without groups enters Killing. -/
def State.failRestore (s : State) (g core : Nat) (cause : Cause) : State :=
  let a := s.imageSector (imageKey g core) core
  let s := { s with freeCtr := s.freeCtr + 1 }.post (dieOf core) 8 (BitVec.ofNat 64 core) (BitVec.ofNat 64 g)
  let s := (s.killGroup g).reportKillAt g 5 cause core (BitVec.ofNat 64 a) (syndrome cause a s.freeCtr)
  let s := { s with freeCtr := s.freeCtr + 1 }
  match s.kernelOf g with
  | none => s
  | some k =>
    if (s.ctx k.asid).st = .live && s.ctxIdle k.asid then s.killCtx k.asid else s

/-- STRAND_RESTORE (R382, R384, R448, R449): all the group's cores are free, and every lease that was reclaimed is granted
again first. -/
def execStrandRestore (group : Nat) (s : State) : Result State :=
  match mfind s.groups group with
  | none => .fault .noSuchObject
  | some x =>
    let saved := x.cores.filterMap (fun c => (mfind s.images (imageKey group c)).map (fun i => (c, i)))
    if x.st ≠ .saved || !saved.all (fun c => s.coreFree c.1) then .next s
    else
      match saved.find? (fun c => c.2.bad.isSome) with
      | some c => .next (s.failRestore group c.1 (c.2.bad.getD 0))
      | none =>
        if saved.any (fun c => c.2.reclaimed != []) then
          .next (saved.foldl (fun s c => s.askAgain group c.1 c.2) s)
        else
          let s := saved.foldl (fun s c => s.restoreStrand group c.1 c.2) s
          .next (s.setGroup group { x with st := .running, progress := s.now - x.idle })

end Sys2Proof.Machine
end

