-- ==== Sys2Proof/Machine/Firmware.lean ====
section
/-! DEFINITION. Firmware on the dies (R122, R123, R441, R442, R453): the dispositions of traps, the SYSC services, the
resumption by a debugger, and the timer event. -/

namespace Sys2Proof.Machine

/-- The code of c.CAUSE (R120). -/
def Strand.causeCode (t : Strand) : Cause := t.cause.extractLsb' 0 8
/-- CODE of c.CAUSE (R120). -/
def Strand.codeField (t : Strand) : Nat := t.cause.toNat / 2 ^ 8 % 2 ^ 12
/-- HANDLE of c.CAUSE (R120). -/
def Strand.handleField (t : Strand) : Nat := t.cause.toNat / 2 ^ 24 % 16
/-- DEF of c.CAUSE (R120). -/
def Strand.defField (t : Strand) : Bool := t.cause.getLsbD 20

/-- The result of a service: g1 on success, or a status that is not 0 (R123). -/
inductive Service where
  | ok (s : State) (g1 : Word)
  | fail (status : Word)
  deriving DecidableEq, Repr

/-- The banks of a BANKGRANT or BANKFREE, or none for a bad argument (R442). -/
def bankList (first count stride : Word) : Option (List Nat) :=
  if count.toNat = 0 || 384 < count.toNat || stride.toNat = 0 || 383 < stride.toNat || 384 ≤ first.toNat ||
      383 < first.toNat + (count.toNat - 1) * stride.toNat then none
  else some ((List.range count.toNat).map (fun i => first.toNat + i * stride.toNat))

/-- Firmware zeroes a bank and resets its format before a grant (R441); writes of the bank's former context that no sub-bank
has granted come before. -/
def State.scrubBank (s : State) (b : Nat) : State :=
  let meets := fun (w : SWrite) => w.meets (sharedAddr (b * 2 ^ 20)) (2 ^ 20)
  let s := (s.cores.map (·.1)).foldl (fun s c => s.performWrites c meets) s
  let inside := fun a => decide (sharedAddr (b * 2 ^ 20) ≤ a) && decide (a < sharedAddr ((b + 1) * 2 ^ 20))
  { s with
    mem := s.mem.filter (fun c => !inside c.1)
    failed := s.failed.filter (fun x => !inside (64 * x.1))
    shfmt := mdel s.shfmt b }

/-- BANKGRANT (R442). -/
def State.bankGrant (s : State) (a : Nat) (first count stride : Word) : Service :=
  match bankList first count stride with
  | none => .fail 2
  | some l =>
    if l.any (fun b => !s.present (b % 6) || (mfind s.banks b).isSome) then .fail 1
    else .ok (l.foldl (fun s b => { s.scrubBank b with banks := mset s.banks b a }) s) 0

/-- A leased tile is paired with a quarter of a bank (R193, R442). -/
def State.bankLeased (s : State) (b : Nat) : Bool :=
  (List.range 256).any (fun t => tileBank (b % 6) t == b && s.tileState (b % 6) t == 1)

/-- BANKFREE (R442). -/
def State.bankFree (s : State) (a : Nat) (first count stride : Word) : Service :=
  match bankList first count stride with
  | none => .fail 2
  | some l =>
    if l.any (fun b => mfind s.banks b != some a || s.bankLeased b) then .fail 2
    else .ok (l.foldl (fun (s : State) b => { s with banks := mdel s.banks b }) s) 0

/-- The address of a line of the barrier window (R363). -/
def lineAddress (line : Nat) : Word := BitVec.ofNat 64 (0xFF30000000000000 + 64 * line)

/-- The line that an address of the barrier window names. -/
def addressLine (x : Word) : Option Nat :=
  if x.toNat < 0xFF30000000000000 || 0xFF30000000000000 + Config.barrierBytes ≤ x.toNat || x.toNat % 64 != 0 then none
  else some ((x.toNat - 0xFF30000000000000) / 64)

/-- CELLGRANT (R442): the lowest run of cells that no context holds (log 39). -/
def State.cellGrant (s : State) (a : Nat) (die count : Word) : Service :=
  let n := count.toNat
  if 6 ≤ die.toNat || n = 0 || 512 < n then .fail 2
  else if !s.present die.toNat then .fail 1
  else
    let isFree := fun c => (List.range n).all (fun i => (mfind s.cellOwner (512 * die.toNat + c + i)).isNone)
    match (List.range (513 - n)).find? isFree with
    | none => .fail 1
    | some c =>
      let first := 512 * die.toNat + c
      .ok { s with cellOwner := (List.range n).foldl (fun m i => mset m (first + i) a) s.cellOwner } (lineAddress first)

/-- CELLFREE (R442). -/
def State.cellFree (s : State) (a : Nat) (addr count : Word) : Service :=
  match addressLine addr with
  | none => .fail 2
  | some first =>
    let n := count.toNat
    if n = 0 || 3072 < first + n ||
        !(List.range n).all (fun i => mfind s.cellOwner (first + i) == some a && (s.cell (first + i)).st == .free) then
      .fail 2
    else .ok { s with cellOwner := (List.range n).foldl (fun m i => mdel m (first + i)) s.cellOwner } 0

/-- TAGGRANT (R442): the lowest tag that no context holds (log 39). -/
def State.tagGrant (s : State) (a : Nat) : Service :=
  match (List.range 8).find? (fun t => (mfind s.tagOwner t).isNone) with
  | none => .fail 1
  | some t => .ok { s with tagOwner := mset s.tagOwner t a } (lineAddress (3072 + t))

/-- TAGFREE (R442). -/
def State.tagFree (s : State) (a : Nat) (addr : Word) : Service :=
  match addressLine addr with
  | none => .fail 2
  | some l =>
    if l < 3072 || mfind s.tagOwner (l - 3072) != some a || (s.cell l).st != .free then .fail 2
    else .ok { s with tagOwner := mdel s.tagOwner (l - 3072) } 0

/-- INFO (R442). -/
def State.infoWord (s : State) (a : Nat) : Word :=
  let c := s.ctx a
  BitVec.ofNat 64 (a % 2048 + c.pasid % 2 ^ 20 * 2 ^ 16 + c.tenant % 256 * 2 ^ 36 + c.secure.toNat * 2 ^ 44)

/-- A service by its CODE (R442). -/
def State.service (s : State) (core code : Nat) : Service :=
  let t := s.strand core
  let a := t.asid.getD 0
  match code with
  | 0 => .ok s (s.infoWord a)
  | 1 => s.bankGrant a (t.gval 1) (t.gval 2) (t.gval 3)
  | 2 => s.bankFree a (t.gval 1) (t.gval 2) (t.gval 3)
  | 3 => s.cellGrant a (t.gval 1) (t.gval 2)
  | 4 => s.cellFree a (t.gval 1) (t.gval 2)
  | 5 => s.tagGrant a
  | 6 => s.tagFree a (t.gval 1)
  | 7 => .ok s.nextTurn 0
  | _ => .fail 0xFFFFFFFFFFFFFFFF

/-- A strand goes on after its SYSC (R122, R123): g1 and g2 are written. A SYSC served so raises no BRK under single step,
whether or not it counts as a completed instruction (R121): DESIGN CHOICE, unsafe (log 98). -/
def State.resumeWith (s : State) (core : Nat) (g1 g2 : Word) : State :=
  let t := (s.strand core).setG 1 g1
  let t := t.setG 2 g2
  s.setStrand core { t with st := .running, pc := t.epc + 4, decided := false }

/-- Firmware serves a SYSC. The rules state no g1 for a service that fails: it is a free value (log 4). -/
def State.serve (s : State) (core code : Nat) : State :=
  match s.service core code with
  | .ok s g1 => s.resumeWith core g1 0
  | .fail status =>
    let (s, w) := s.fresh
    s.resumeWith core w status

/-- A strand Trapped on a SYSC that firmware has not served, and that no GEXIT has reached (R122). -/
def State.inSysc (s : State) (core : Nat) : Bool :=
  (s.strand core).st == .trapped && !(s.strand core).decided && !(s.strand core).reached && (s.strand core).causeCode == cSYSC

/-- The event of one service: the strand on a core is Trapped on a SYSC with its CODE. -/
def serviceEvent (core code : Nat) (s : State) : Result State :=
  if Config.cores ≤ core then .fault .noSuchObject
  else if s.inSysc core && (s.strand core).codeField == code then .next (s.serve core code) else .next s

/-- INFO (R442). -/
def execInfo (core : Nat) (s : State) : Result State := serviceEvent core 0 s
/-- BANKGRANT (R441, R442). -/
def execBankgrant (core : Nat) (s : State) : Result State := serviceEvent core 1 s
/-- BANKFREE (R442). -/
def execBankfree (core : Nat) (s : State) : Result State := serviceEvent core 2 s
/-- CELLGRANT (R442). -/
def execCellgrant (core : Nat) (s : State) : Result State := serviceEvent core 3 s
/-- CELLFREE (R442). -/
def execCellfree (core : Nat) (s : State) : Result State := serviceEvent core 4 s
/-- TAGGRANT (R442). -/
def execTaggrant (core : Nat) (s : State) : Result State := serviceEvent core 5 s
/-- TAGFREE (R442). -/
def execTagfree (core : Nat) (s : State) : Result State := serviceEvent core 6 s
/-- YIELD (R431, R442). -/
def execYield (core : Nat) (s : State) : Result State := serviceEvent core 7 s

/-- The byte of an address as a strand's translation has it, for a syndrome. -/
def State.whereIs (s : State) (core : Nat) (a : Word) : Nat :=
  match s.place core a 1 .any with
  | .at pa => pa
  | _ => 0

/-- The kill of a trapped strand's group, with its record (R122, R384, R451, R470): its TIME is that at which the trap was
found. -/
def State.trapKill (s : State) (core : Nat) : State :=
  let t := s.strand core
  let c := t.causeCode
  let pa := s.whereIs core t.tval
  let aux := s.readSyndrome c pa
  let s : State := { s with freeCtr := s.freeCtr + 1 }
  let r : FaultRec := ⟨1, c, t.defField, 0, s.groupWord t.group, core, t.handleField, dieOf core, t.epc, t.tval, aux⟩
  let s := match t.asid with
    | some a => s.faultAt a t.found r
    | none => s
  match t.group with
  | some g => s.killGroup g
  | none => s.killLive core

/-- TRAP_DISPOSITION (R122). A BRK with a debugger attached stays Trapped, decided; a strand that a GEXIT reached
undecided ends with its group. -/
def execTrapDisposition (core : Nat) (s : State) : Result State :=
  if Config.cores ≤ core then .fault .noSuchObject
  else
    let t := s.strand core
    if t.st ≠ .trapped || t.decided || t.reached then .next s
    else if t.causeCode = cSYSC then .next (s.serve core t.codeField)
    else if t.causeCode = cBRK && t.asid.elim false (fun a => (s.ctx a).debugger) then
      .next (s.setStrand core { t with decided := true })
    else .next (s.trapKill core)

/-- DEBUGGER_RESUME (R122): a strand held Trapped goes on where the debugger says. DESIGN CHOICE: the rules do not say
what becomes of the low two bits of that address, which PC does not have (R107); they are dropped (log 81). -/
def execDebuggerResume (core : Nat) (pc : Word) (s : State) : Result State :=
  if Config.cores ≤ core then .fault .noSuchObject
  else
    let t := s.strand core
    if t.st = .trapped && t.decided then
      .next (s.setStrand core (s.fetchFrom core
        { t with st := .running, pc := pc &&& 0xFFFFFFFFFFFFFFFC, decided := false }))
    else .next s

/-- FIRMWARE_TIMER (R453): a timer of a firmware core enters its event queue. -/
def execFirmwareTimer (die : Nat) (s : State) : Result State :=
  if Config.dies ≤ die then .fault .noSuchObject else .next (s.post die 3 (s.die die).ptime 0)

end Sys2Proof.Machine
end

