-- ==== Sys2Proof/Machine/Float.lean ====
section
/-! DEFINITION. The float and the weir (R113 to R115). -/

namespace Sys2Proof.Machine

/-- An agent that is a table. -/
def agentIsTable : Agent → Bool
  | .table _ _ => true
  | _ => false

/-- The full bounded queue of R113 on which a strand is stalled. -/
def Strand.blockedOn (t : Strand) (core : Nat) : Option QRef :=
  if t.st ≠ .stalled && t.st ≠ .halting then none
  else
    match t.why with
    | .vectorFull => some (.vector core)
    | .queueFull q => some (.operand core q)
    | .tableQueue h => some (.table core h)
    | .chanQueue ch => some (.channel core ch)
    | _ => none

/-- The full bounded queue of R113 on which a table waits: the outgoing link of its fragment, or its channel's
command queue. -/
def State.tableBlockedOn (s : State) (core h : Nat) : Option QRef :=
  match s.tbl core h with
  | none => none
  | some t =>
    if t.blocked.isNone then none else if h < 4 then some (.link core h) else some (.channel core (h - 8))

/-- The full bounded queue of R113 on which a channel's next command waits: its circular buffer, or its multicast counter
(R338, R346). -/
def State.engineBlockedOn (s : State) (core ch : Nat) : Option QRef :=
  match s.chan core ch with
  | none => none
  | some x =>
    match x.buf with
    | [] => none
    | c :: _ =>
      if x.blocked.isNone || s.cmdGate core ch x c == .clear then none
      else if c.kind = .cpym then some (.multicast core ch)
      else some (.buffer core ch)

/-- The full bounded queue of R113 on which an agent is blocked. The vector unit produces for none. -/
def State.blockedOn (s : State) : Agent → Option QRef
  | .strand c => (s.strand c).blockedOn c
  | .vector _ => none
  | .table c h => s.tableBlockedOn c h
  | .engine c ch => s.engineBlockedOn c ch
  | .member i => match mfind s.rings i with
    | some r => if r.blocked.isSome then some (.rill i) else none
    | none => none

/-- Since when an agent is blocked. -/
def State.blockedSince (s : State) : Agent → Option Nat
  | .strand c => (s.strand c).blocked
  | .vector _ => none
  | .table c h => (s.tbl c h).bind Tbl.blocked
  | .engine c ch => (s.chan c ch).bind Chan.blocked
  | .member i => (mfind s.rings i).bind Ring.blocked

/-- The consumers that still hold the oldest slot of a buffer (R114): those that have not freed it. -/
def CBuf.holders (b : CBuf) (core : Nat) : List Agent :=
  (b.cons.filter (fun c => c.freed == b.freedAll)).map fun c =>
    if c.who = 0 then .strand core else .table core (c.who - 1)

/-- The consumers of the buffer of a channel. -/
def State.holdersOf (s : State) (core ch : Nat) : List Agent :=
  match (s.chan core ch).bind Chan.cbuf with
  | some b => b.holders core
  | none => []

/-- The consumers of a queue that hold its oldest entry (R113, R114). A channel's queue carries its table's commands
too, and the table applies those (R249). -/
def State.consumersOf (s : State) : QRef → List Agent
  | .vector c => [.vector c]
  | .operand c _ => [.vector c]
  | .table c h => [.table c h]
  | .channel c ch => match (s.chan c ch).bind (fun x => x.queue.head?) with
    | some (.tbl _) => [.table c (8 + ch)]
    | _ => [.engine c ch]
  | .buffer c ch => s.holdersOf c ch
  | .link c h => match (mfind (s.strand c).frag h).bind Frag.link with
    | some l => [.table c l.dst]
    | none => []
  | .multicast c ch =>
    match s.chan c ch with
    | none => []
    | some x =>
      match x.buf with
      | [] => []
      | m :: _ => (s.emptyReceivers c ch x (m.receivers c)).flatMap fun r => match s.rxOf c ch r with
        | some (rch, _) => s.holdersOf r rch
        | none => []
  | .rill i => match mfind s.rings i with
    | some r => match s.ringBuf i r with
      | some b => b.holders r.core
      | none => []
    | none => []

/-- Grants the weir entry of a queue to the blocked producer, which may be a table (R114, R115). While it is in use the
grant changes nothing. -/
def State.grantWeir (s : State) (table : Bool) : QRef → State
  | .vector c => s.setStrand c { s.strand c with vweir := true }
  | .operand c q =>
    let t := s.strand c
    s.setStrand c { t with vqweir := if t.vqweir.contains q then t.vqweir else t.vqweir ++ [q] }
  | .table c h => match s.tbl c h with
    | some t => s.setTbl c h { t with weir := true }
    | none => s
  | .channel c ch => match s.chan c ch with
    | some x => s.setChan c ch { x with weir := x.weir <|> some table }
    | none => s
  | .buffer c ch => match s.chan c ch with
    | some x =>
      let g := fun (b : CBuf) => { b with weir := true }
      s.setChan c ch { x with cbuf := x.cbuf.map g }
    | none => s
  | .link c h => match mfind (s.strand c).frag h with
    | some f =>
      let g := fun (l : Link) => { l with weir := true }
      let t := s.strand c
      s.setStrand c { t with frag := mset t.frag h { f with link := f.link.map g } }
    | none => s
  | .multicast c ch => match s.chan c ch with
    | some x =>
      if x.runs.any (fun r => r.rwait != []) then s
      else
      let e := match x.buf with
        | [] => []
        | m :: _ => s.emptyReceivers c ch x (m.receivers c)
      s.setChan c ch { x with cntWeir := x.cntWeir ++ e.filter (fun r => !x.cntWeir.contains r) }
    | none => s
  | .rill i => match mfind s.rings i with
    | some r => s.setRing i { r with weir := true }
    | none => s

/-- Objects that an agent names. -/
def agentThere : Agent → Bool
  | .strand c => decide (c < Config.cores)
  | .vector c => decide (c < Config.cores)
  | .table c h => decide (c < Config.cores) && isHandle h
  | .engine c ch => decide (c < Config.cores) && decide (ch < 8)
  | .member i => decide (i < ringEntries)

/-- A float of its own that keeps a producer from launching another (R114): one in flight, or one launched less
than 4,096 ticks ago. -/
def FloatTok.holds (f : FloatTok) (agent : Agent) (now : Nat) : Bool :=
  f.origin == agent && (!f.copies.isEmpty || decide (now < f.tick + Config.floatTicks))

/-- FLOAT_LAUNCH (R114): a producer that has been blocked on a full bounded queue for 4,096 ticks launches a float,
which goes to the consumers of that queue. -/
def execFloatLaunch (agent : Agent) (s : State) : Result State :=
  if !agentThere agent then .fault .noSuchObject
  else
    match s.blockedOn agent, s.blockedSince agent with
    | some q, some b =>
      if s.now < b + Config.floatTicks || s.floats.any (fun f => f.holds agent s.now) then .next s
      else
        let l := (s.consumersOf q).map (fun a => (a, 0))
        .next { s with floats := s.floats.filter (fun f => f.origin != agent) ++ [⟨agent, q, s.now, l⟩] }
    | _, _ => .next s

/-- The hops after which a float is discarded (R114). -/
def floatHops : Nat := 64

/-- FLOAT_HOP (R114): a copy of the n-th float reaches an agent. At its origin it grants the weir or ends, and the
other copies end with it; at a blocked agent it goes on to the consumers of that queue; elsewhere it is discarded. -/
def execFloatHop (n : Nat) (dst : Agent) (s : State) : Result State :=
  match s.floats[n]? with
  | none => .next s
  | some f =>
    match f.copies.find? (fun c => c.1 == dst) with
    | none => .next s
    | some (_, hops) =>
      let put := fun (g : FloatTok) (s : State) => ({ s with floats := s.floats.set n g } : State)
      if dst = f.origin && s.blockedOn dst = some f.queue then
        .next (put { f with copies := [] } (s.grantWeir (agentIsTable f.origin) f.queue))
      else
        let rest := f.copies.erase (dst, hops)
        match s.blockedOn dst with
        | some q =>
          if floatHops ≤ hops + 1 then .next (put { f with copies := rest } s)
          else .next (put { f with copies := rest ++ (s.consumersOf q).map (fun a => (a, hops + 1)) } s)
        | none => .next (put { f with copies := rest } s)

end Sys2Proof.Machine
end

