-- ==== Sys2Proof/Machine/PageEvents.lean ====
section
/-! DEFINITION. The translation registers and invalidation (R463, R464), and the answers of the host to ATS and PRI
requests (R465, R472, R473). -/

namespace Sys2Proof.Machine

/-- The place of a page that a leaf maps: host memory stands apart, and an untranslated page lies where the host has it
(R458, R465). -/
def State.leafBase (s : State) (l : Leaf) : Nat :=
  if l.tier = 2 then
    hostBase + (if l.ats then (s.ats.find? (fun x => x.1 == l.asid && x.2.1 == l.pa)).elim l.pa (fun x => x.2.2) else l.pa)
  else l.pa

/-- An invalidation starts (R464): every TLB and walk-cache entry of the range is dropped, and the clusters' copies of its
host pages (R466); the pages that it waits for are those that the dropped translations name (log 40). -/
def State.startInval (s : State) (a lo hi : Nat) : State :=
  let s := s.dropRange a lo hi
  let meets := fun (l : Leaf) => l.meets a lo hi
  let pages := ((s.leaves.filter meets).map (fun l => (s.leafBase l, l.size))).eraseDups
  let pubs := (s.cores.filter (fun c => c.2.log.recs != [])).map (fun c => (c.1, c.2.log.pub))
  let host := (s.leaves.filter (fun l => meets l && l.tier == 2)).map
    (fun l => (s.leafBase l / 64, (s.leafBase l + l.size) / 64, s.now))
  let s : State := { s with
    leaves := s.leaves.filter (fun l => !meets l)
    pageFloors := s.pageFloors.filter (fun x => !host.any (fun y => y.1 == x.1 && y.2.1 == x.2.1)) ++ host }
  s.setCtx a { s.ctx a with inval := some ⟨lo, hi, pages, pubs⟩ }

/-- The whole space of a context. -/
def State.invalAll (s : State) (a : Nat) : State := s.startInval a 0 (2 ^ 56)

/-- A write to TINV (R463): ignored while BUSY. -/
def State.writeTinv (s : State) (a : Nat) (value : Word) : State :=
  let c := s.ctx a
  if c.inval.isSome then s
  else
    let n := value.toNat / 2 ^ 32
    let s := s.setCtx a { c with tinvCount := n }
    if !value.getLsbD 0 then s
    else if n = 0 then s.invalAll a
    else s.startInval a c.tinva.toNat (c.tinva.toNat + n * 2 ^ 16)

/-- A write to TINVA (R463). -/
def State.writeTinva (s : State) (a : Nat) (value : Word) : State :=
  if (s.ctx a).inval.isSome then s else s.setCtx a { s.ctx a with tinva := value &&& 0x00FFFFFFFFFF0000 }

/-- A write to TROOT (R463): it also invalidates the whole space. -/
def State.writeTroot (s : State) (a : Nat) (value : Word) : State :=
  if (s.ctx a).inval.isSome then s
  else { s with troot := mset s.troot a (value &&& 0x00FFFFFFFFF00000) }.invalAll a

/-- TINV_GO (R463, R464). -/
def execTinvGo (asid : Nat) (value : Word) (s : State) : Result State :=
  if 2048 ≤ asid then .fault .noSuchObject
  else if value.getLsbD 0 then .next (s.writeTinv asid value) else .next s

/-- TROOT_WRITE (R463). -/
def execTrootWrite (asid : Nat) (value : Word) (s : State) : Result State :=
  if 2048 ≤ asid then .fault .noSuchObject else .next (s.writeTroot asid value)

/-- A page of a range has an in-flight count, under whatever name it was pinned (R462, R464). -/
def State.rangePinned (s : State) (a : Nat) (v : Inval) : Bool :=
  (List.range 6).any fun d => (s.die d).pins.any fun p =>
    p.count != 0 && ((p.page.asid == a && decide (p.page.va < v.hi) && decide (v.lo < p.page.va + p.page.size)) ||
      v.pages.any (fun q => decide (p.page.pa < q.1 + q.2) && decide (q.1 < p.page.pa + p.page.size)))

/-- Every record published before an invalidation that covers its pages has been pressed (R464). -/
def State.rangePressed (s : State) (v : Inval) : Bool :=
  v.pubs.all fun p => (s.log p.1).recs.all fun r =>
    decide (p.2 ≤ r.idx) || !r.parts.any (fun q => v.pages.any (fun g => decide (g.1 ≤ 64 * q.line) && decide (64 * q.line < g.1 + g.2)))

/-- INVALIDATION_COMPLETE (R464). -/
def execInvalidationComplete (asid : Nat) (s : State) : Result State :=
  if 2048 ≤ asid then .fault .noSuchObject
  else
    match (s.ctx asid).inval with
    | none => .next s
    | some v =>
      if s.rangePinned asid v || !s.rangePressed v then .next s
      else .next (s.setCtx asid { s.ctx asid with inval := none })

/-- The PASID of a context is dead: it is being torn down, or is Free (R472). -/
def State.pasidDead (s : State) (a : Nat) : Bool := (s.ctx a).st == .tearing || (s.ctx a).st == .free

/-- A request is answered (R465): a success lets the walk be tried again; a failure, and any answer for a
dead PASID, raises PAGE at an access that still waits (R472, R473). -/
def State.answerPage (s : State) (r : PriReq) (ok : Bool) : State :=
  let s : State := { s with pri := s.pri.erase r }
  if (ok && !s.pasidDead r.asid) || 512 ≤ r.core then s
  else { s with priFail := s.priFail ++ [(r.core, r.asid, r.page)] }

/-- The requests of a core, those of strands that have left it among them. -/
def State.priOf (s : State) (core : Nat) : List PriReq := s.pri.filter (fun x => x.core % 512 == core)

/-- PRI_RESPONSE (R465): which of a core's requests the host answers is the slot's choice. -/
def execPriResponse (core : Nat) (ok : Bool) (s : State) : Result State :=
  if Config.cores ≤ core then .fault .noSuchObject
  else
    match (s.priOf core)[s.choice.replyLen % (s.priOf core).length]? with
    | none => .next s
    | some r => .next (s.answerPage r ok)

/-- PRI_TIMEOUT (R465). -/
def execPriTimeout (core : Nat) (s : State) : Result State :=
  if Config.cores ≤ core then .fault .noSuchObject
  else
    match (s.priOf core).find? (fun x => decide (x.tick + pageTicks ≤ s.now)) with
    | none => .next s
    | some r => .next (s.answerPage r false)

/-- ATS_INVALIDATE (R465). -/
def execAtsInvalidate (asid addr : Nat) (s : State) : Result State :=
  if 2048 ≤ asid then .fault .noSuchObject
  else .next { s with ats := s.ats.filter (fun x => !(x.1 == asid && x.2.1 == addr)) }

/-- ATS_TRANSLATION_COMPLETION (R465, R472). -/
def execAtsTranslationCompletion (asid addr dst : Nat) (s : State) : Result State :=
  if 2048 ≤ asid then .fault .noSuchObject
  else if !s.atsReq.any (fun x => x.1 == asid && x.2.1 == addr) then .next s
  else
    let s : State := { s with atsReq := s.atsReq.filter (fun x => !(x.1 == asid && x.2.1 == addr)) }
    if s.pasidDead asid then .next s else .next { s with ats := (asid, addr, dst) :: s.ats }

end Sys2Proof.Machine
end

