-- ==== Sys2Proof/Machine/Life.lean ====
section
/-! DEFINITION. Power-on to warm reset (R517 to R526): the boot stages, power and heat, management, attestation, and the
host's accesses to BAR 0 and BAR 2 (R14, R418 to R420, R439, R450, R463, R477, R526, R550). -/

namespace Sys2Proof.Machine

/-- How many dies of a set accept a die's answer (R520). -/
def bootAccepts (b : Boot) (l : List Nat) (d : Nat) : Nat :=
  (l.filter (fun e => e != d && b.acceptances.contains (e, d))).length

/-- The dies that authentication leaves (R520): while dies disagree, the one with the fewest acceptances is dropped. -/
def authenticate (b : Boot) (l : List Nat) : Nat → List Nat
  | 0 => l
  | n + 1 =>
    if l.all (fun d => bootAccepts b l d + 1 == l.length) then l
    else
      match l.find? (fun d => l.all (fun e => decide (bootAccepts b l d ≤ bootAccepts b l e))) with
      | some d => authenticate b (l.filter (· != d)) n
      | none => l

/-- Why a die is absent before stage 4, as DIESTAT codes it (R519, R522): 0 for a die that takes part. -/
def earlyStat (b : Boot) (d : Nat) : Nat :=
  if b.imageBad.contains d then 1
  else if b.clusterBad.contains (d, 0) then 5
  else if b.memoryBad.contains d then 2
  else 0

/-- The dies that reach stage 4. -/
def testedDies (b : Boot) : List Nat := (List.range 6).filter (fun d => earlyStat b d == 0)
/-- How a link's training ends (R476, R517). -/
def bootTraining (b : Boot) (n : Nat) : Training := ((b.training.find? (fun x => x.1 == n)).map (·.2)).getD .full
/-- The link of a die fails its training (R519). -/
def linkFails (b : Boot) (d : Nat) : Bool := b.linkBad.contains d || bootTraining b (32 + d) == .fail
/-- The dies that are present after boot (R520); none when the basin fails (R519). -/
def bootDies (b : Boot) : List Nat :=
  if b.basinBad then [] else authenticate b ((testedDies b).filter (fun d => !linkFails b d)) 6
/-- DIESTAT of a die (R522). -/
def bootStat (b : Boot) (d : Nat) : Nat :=
  if earlyStat b d ≠ 0 then earlyStat b d
  else if linkFails b d then 3
  else if (bootDies b).contains d then 0
  else 4
/-- The stage in which a boot ends (R517, R519, R520). -/
def lastStage (b : Boot) : Nat :=
  if b.basinBad || testedDies b == [] then 3 else if bootDies b == [] then 4 else 7

/-- A die after boot (R517, R519, R520): its failed clusters, its time, and its presence. -/
def bootDie (b : Boot) (d : Nat) : Die :=
  { Die.start with
    ptime := b.time, present := (bootDies b).contains d,
    failed := (List.range 16).filter (fun c => b.clusterBad.contains (d, c)) }

/-- A link after its training (R476). -/
def trainedLink (b : Boot) (n : Nat) : PLink :=
  let w := trainedWidth n (bootTraining b n)
  { PLink.start n with st := if w = 0 then .dead else if w = fullWidth n then .up else .narrow, width := w }

/-- The links after boot: the die links of present dies are trained and those of absent dies Dead (R476), and once stage 7
has trained them the fabric ports and the host link have their widths (R517). -/
def bootLinks (b : Boot) : SMap PLink :=
  let last := fun (n : Nat) => (n, if lastStage b = 7 then trainedLink b n else PLink.start n)
  ((List.range 18).map last) ++
    ((List.range 6).map (fun d => (32 + d,
      if (bootDies b).contains d then trainedLink b (32 + d) else { PLink.start (32 + d) with st := .dead }))) ++
    [last 48]

/-- The alignment path of a die (R482): its own die link, and the links beyond the basin. -/
def bootPath (b : Boot) (d : Nat) : List (Nat × BitVec 32) := b.path.filter (fun l => l.1 < 32 || l.1 == 32 + d || l.1 == 48)

/-- The dies are aligned to the time master, as stage 5 does (R482, R517). -/
def State.bootAlign (s : State) (b : Boot) : State :=
  (bootDies b).foldl (fun s d => if s.mayAlign (bootPath b d) then s.align d (bootPath b d) else s) s

/-- The firmware core of an absent die holds no strand. -/
def bootCores (b : Boot) : SMap Core :=
  ((List.range 6).filter (fun d => !(bootDies b).contains d)).map
    (fun d => (64 * d, { Core.start (64 * d) with strand := Strand.start }))

/-- The world map that takes effect (R548). -/
def bootMap (b : Boot) : SMap (BitVec 16) :=
  if (bootDies b).length = 6 then (List.range 6).map (fun d => (d, b.secmap.getD d 0)) else []

/-- Host memory outlives a reset; every other byte is zeroed (R517 stage 3). -/
def hostCells (m : List Host.Cell) : List Host.Cell := cellsIn m hostBase (2 ^ 61)

/-- The package without its power: nothing but host memory and the model's own fields stay (R14, R517). -/
def State.powerOff (s : State) : State :=
  { State.reset with
    sched := s.sched, now := s.now, freeCtr := s.freeCtr, choice := s.choice, nextId := s.nextId,
    mem := hostCells s.mem, update := s.update, powered := false }

/-- The attestation report as stage 6 builds it (R522; the nonce is the requester's, so it is zero until then). -/
def State.buildReport (s : State) (b : Boot) : Report :=
  { degraded := (bootDies b).length != 6, feat8 := BitVec.ofNat 64 s.feat8,
    clpass := ((List.range 96).map (fun i =>
      if b.clusterBad.contains (i / 16, i % 16) || earlyStat b (i / 16) == 1 then 0 else 2 ^ i)).sum,
    diestat := (List.range 6).map (bootStat b), digest := s.digest, nonce := 0, ptime := b.time }

/-- The boot stages (R517 to R520, R525, R548): every object at its reset value, then what the stages set. Management
commands that wait for stage 7 stay (R525). -/
def State.boot (s : State) (b : Boot) : State :=
  let s : State := { s.powerOff with
    powered := true
    dies := (List.range 6).map (fun d => (d, bootDie b d))
    cores := bootCores b
    links := bootLinks b
    stage := lastStage b
    digest := s.update.getD b.digest
    update := none
    master := some b.master
    management := b.management
    basinFailed := b.basinBad
    pending := s.pending }
  if lastStage b = 7 then
    let s : State := { s with secmap := bootMap b, rsvg := b.rsvg.toNat, fabid := b.fabid, ready := true }
    { s.bootAlign b with report := some (s.buildReport b) }
  else s

/-- A boot image's reserved figure lies from 2 to 16 (R547), its fabric number from 0 to 287 (R477), and its time master is
an input of the host or of one fabric port (R481). -/
def bootOk (b : Boot) : Bool :=
  decide (2 ≤ b.rsvg.toNat) && decide (b.rsvg.toNat ≤ 16) && decide (b.fabid.toNat ≤ 287) &&
    (decide (b.master < 18) || b.master == 48)

/-- POWER_ON (R517): of a package without power, or one that has never booted. -/
def execPowerOn (boot : Boot) (s : State) : Result State :=
  if bootOk boot && (!s.powered || s.stage == 0) then .next (s.boot boot) else .next s

/-- WARM_RESET (R518): one has been requested by firmware. -/
def execWarmReset (boot : Boot) (s : State) : Result State :=
  if bootOk boot && s.powered && s.resetDue then .next (s.boot boot) else .next s

/-- RSTCTL (R518, R526). -/
def execRstctl (value : Word) (boot : Boot) (s : State) : Result State :=
  if bootOk boot && value.getLsbD 0 && value.toNat / 2 % 2 ^ 15 == 0x2B57 then .next (s.boot boot) else .next s

/-- MANAGEMENT_RESET (R518, R525): the endpoint holds what arrives before stage 7 has ended, and takes it then. -/
def execManagementReset (boot : Boot) (s : State) : Result State :=
  if bootOk boot && s.ready then .next (s.boot boot) else .next s

/-- INPUT_POWER_LOSS (R14, R517). -/
def execInputPowerLoss (s : State) : Result State := .next s.powerOff

/-- BLOCK_THROTTLE (R523): it changes only timing. -/
def execBlockThrottle (block : Block) (s : State) : Result State :=
  .next (if s.throttled.contains block then s else { s with throttled := block :: s.throttled })

/-- THROTTLE_RECOVERY (R523). -/
def execThrottleRecovery (block : Block) (s : State) : Result State :=
  .next { s with throttled := s.throttled.filter (· != block) }

/-- THERMAL_STOP (R523): the block's clocks stop, and a warm reset is requested. -/
def execThermalStop (block : Block) (s : State) : Result State :=
  let s := if s.stopped.contains block then s else { s with stopped := block :: s.stopped }
  .next { s with resetDue := true }

/-- The design maximum in units of 100 mW (R8, R526). -/
def powerLimit : Nat := 22000

/-- The budgets of the blocks in units of 100 mW (R524): the six dies, the basin, and the LPDDR tier. -/
def budgets : List Nat := List.replicate 6 3080 ++ [1500, 2000]

/-- POWER_REFRESH (R8, R524, R526): the power of each block, in units of 100 mW and in the order of the budgets, within which
each of them keeps itself; their sum never exceeds the design maximum. -/
def execPowerRefresh (blocks : List Nat) (s : State) : Result State :=
  .next (if decide (blocks.length ≤ budgets.length) && (blocks.zip budgets).all (fun x => decide (x.1 ≤ x.2)) then
    { s with power := BitVec.ofNat 32 blocks.sum } else s)

/-- PLDM_UPDATE (R525), taken once stage 7 has ended: the image is booted at the next warm reset. -/
def execPldmUpdate (digest : BitVec 256) (s : State) : Result State :=
  .next (if s.ready then { s with update := some digest } else s)

/-- n free bytes (log 4). -/
def State.freeBytes (s : State) (n : Nat) : List Byte :=
  (List.range n).map (fun i => (Config.freeWord (s.freeCtr + i)).setWidth 8)

/-- The bytes of a report that are not a key or a signature (R522). -/
def Report.bytes (r : Report) : List Byte :=
  natBytes 4 0x54414C56 ++ natBytes 2 1 ++ [1, BitVec.ofNat 8 r.degraded.toNat] ++ natBytes 8 r.feat8.toNat ++
    natBytes 16 r.clpass ++ r.diestat.map (BitVec.ofNat 8) ++ natBytes 2 0 ++ natBytes 32 r.digest.toNat ++
    natBytes 32 r.nonce.toNat ++ natBytes 8 r.ptime.toNat

/-- The public key of the die that signs (R522). -/
def State.signKey (s : State) : List Byte := (List.range 64).map (Config.dieKeyByte (dieOf s.front))

/-- The bytes that a report's signature covers (R522): the report and the public key of the die that signs. -/
def State.signedBytes (s : State) (r : Report) : List Byte := r.bytes ++ s.signKey

/-- ATTESTATION_REQUEST (R8, R522): signed by the lowest-numbered present die (log 42). -/
def execAttestationRequest (nonce : BitVec 256) (s : State) : Result State :=
  match s.report with
  | none => .next s
  | some r =>
    let r := { r with nonce := nonce, ptime := s.ptime s.front }
    let m := s.signedBytes r
    .next { s with
      report := some r, output := m ++ (List.range 29792).map (Config.signatureByte s.signKey m s.freeCtr),
      freeCtr := s.freeCtr + 1 }

/-- MANAGEMENT_READING (R476, R519, R525): the power, a temperature for each block, which the rules leave open, and whether
the host link is Dead; of a package that a failed basin stopped, the stage at which it stands. The layout is the model's:
DESIGN CHOICE, unsafe (log 42). -/
def execManagementReading (s : State) : Result State :=
  .next (if s.ready then
    { s with
      output := natBytes 4 s.power.toNat ++ s.freeBytes 8 ++ [BitVec.ofNat 8 ((s.link 48).st == .dead).toNat]
      freeCtr := s.freeCtr + 8 }
  else if s.basinFailed then { s with output := [BitVec.ofNat 8 s.stage] } else s)

/-! ### BAR 0 and BAR 2 -/

/-- A register of BAR 0: its area, object number and offset within the object (R418, R439, R450, R463, R477, R526). -/
inductive HostReg where
  | command (r : Nat)
  | control (qid r : Nat)
  | faultq (asid r : Nat)
  | translation (asid r : Nat)
  | link (n r : Nat)
  | fabid
  | package (r : Nat)
  | bell (qid r : Nat)
  | none
  deriving DecidableEq, Repr

/-- The register at an offset of BAR 0. -/
def hostReg (off : Nat) : HostReg :=
  if 0x30000 ≤ off ∧ off < 0x30020 then .command (off - 0x30000)
  else if 0x40000 ≤ off ∧ off < 0x80000 then .control ((off - 0x40000) / 0x40) (off % 0x40)
  else if 0x80000 ≤ off ∧ off < 0x90000 then .faultq ((off - 0x80000) / 0x20) (off % 0x20)
  else if 0xA0000 ≤ off ∧ off < 0xB0000 then .translation ((off - 0xA0000) / 0x20) (off % 0x20)
  else if 0xC0000 ≤ off ∧ off < 0xC1000 then .link ((off - 0xC0000) / 0x40) (off % 0x40)
  else if off = 0xC1000 then .fabid
  else if 0xC2000 ≤ off ∧ off < 0xC2030 then .package (off - 0xC2000)
  else if 0x1000000 ≤ off ∧ off < 0x2000000 then .bell ((off - 0x1000000) / 0x1000) (off % 0x1000)
  else .none

/-- The code of a queue's state (R419). -/
def QueueSt.code : QueueSt → Nat
  | .disabled => 0
  | .idle => 1
  | .mapped => 2
  | .held => 3
  | .error => 4
  | .resetting => 5
/-- The code of a link's state (R477). -/
def LinkSt.code : LinkSt → Nat
  | .down => 0
  | .training => 1
  | .up => 2
  | .narrow => 3
  | .dead => 4

/-- A register of a queue's control block (R420). -/
def Queue.controlReg (q : Queue) (r : Nat) : Nat :=
  match r with
  | 0x00 => q.base.toNat
  | 0x08 => q.vec * 2 ^ 36 + q.pasid * 2 ^ 16 + q.en.toNat * 2 ^ 15 + q.wt * 2 ^ 7 + q.pri * 2 ^ 5 + q.logsz
  | 0x10 => q.cause.toNat * 2 ^ 24 + q.err.toNat * 4 + q.fail.toNat * 2 + q.drop.toNat
  | _ => 0
/-- A register of a doorbell page (R419). -/
def Queue.bellReg (q : Queue) (r : Nat) : Nat :=
  match r with
  | 0x00 => q.wptr
  | 0x08 => q.rptr
  | 0x10 => (q.slot.getD 0) * 2 ^ 16 + q.slot.isSome.toNat * 2 ^ 15 + q.st.code
  | _ => 0
/-- A register of a link (R477). -/
def PLink.reg (l : PLink) (r : Nat) : Nat :=
  match r with
  | 0x00 => (if l.live then l.width else 0) * 2 ^ 8 + l.st.code
  | 0x08 => l.drop
  | 0x10 => l.retry
  | 0x18 => l.dup
  | 0x20 => l.skew
  | _ => 0
/-- SECMAP of a die as the host reads it (R526): zero for an absent one. -/
def State.worldMap (s : State) (d : Nat) : Nat := if s.present d then (mget s.secmap d 0).toNat else 0

/-- A register of the package control block (R526). -/
def State.packageReg (s : State) (r : Nat) : Nat :=
  match r with
  | 0x00 => powerLimit * 2 ^ 32 + s.power.toNat
  | 0x08 =>
    (s.ready && s.dieList.length != 6).toNat * 2 ^ 11 + s.ready.toNat * 2 ^ 10 +
      (if s.stage < 6 then 0 else (s.dieList.map (fun d => 2 ^ d)).sum * 2 ^ 4) + s.stage
  | 0x18 => s.rsvg
  | 0x20 => ((List.range 4).map (fun d => s.worldMap d * 2 ^ (16 * d))).sum
  | 0x28 => ((List.range 2).map (fun d => s.worldMap (4 + d) * 2 ^ (16 * d))).sum
  | _ => 0
/-- A translation register (R463). -/
def State.translationReg (s : State) (a r : Nat) : Nat :=
  match r with
  | 0x00 => (mget s.troot a 0).toNat
  | 0x08 => (s.ctx a).tinva.toNat
  | 0x10 => (s.ctx a).tinvCount * 2 ^ 32 + (s.ctx a).inval.isSome.toNat * 2
  | _ => 0
/-- A register of a fault ring (R450). -/
def Ctx.faultReg (c : Ctx) (r : Nat) : Nat :=
  match r with
  | 0x00 => c.fqTail
  | 0x08 => c.fqHead
  | 0x10 => c.fqLost
  | _ => 0

/-- What the host reads at an offset of BAR 0 (R550); a read changes nothing. -/
def State.readBar0 (s : State) (off : Nat) : Word :=
  match hostReg off with
  | .command 0x00 => s.ccmd
  | .command 0x08 => s.carg0
  | .command 0x10 => s.carg1
  | .command 0x18 => s.readCres
  | .command _ => 0
  | .control q r => BitVec.ofNat 64 ((s.queue q).controlReg r)
  | .faultq a r => BitVec.ofNat 64 ((s.ctx a).faultReg r)
  | .translation a r => BitVec.ofNat 64 (s.translationReg a r)
  | .link n r => if isLink n then BitVec.ofNat 64 ((s.link n).reg r) else 0
  | .fabid => s.fabid.setWidth 64
  | .package r => BitVec.ofNat 64 (s.packageReg r)
  | .bell q r => BitVec.ofNat 64 ((s.queue q).bellReg r)
  | .none => 0

/-- What a naturally aligned read of 1, 2, 4 or 8 bytes of BAR 0 returns: the addressed bytes of the register
(R550). -/
def State.readBar0Bytes (s : State) (off size : Nat) : Nat :=
  (s.readBar0 (off / 8 * 8)).toNat / 2 ^ (8 * (off % 8)) % 2 ^ (8 * size)

/-- A write to a register of a control block (R420, R421). -/
def State.writeControl (s : State) (qid r : Nat) (value : Word) : State :=
  let q := s.queue qid
  match r with
  | 0x00 => if q.st = .disabled then s.setQueue qid { q with base := value &&& 0xFFFFFFFFFFFFFFC0 } else s
  | 0x08 => s.writeQcfg qid value
  | 0x10 => s.setQueue qid { q with
      err := q.err && !value.getLsbD 2, fail := q.fail && !value.getLsbD 1, drop := q.drop && !value.getLsbD 0 }
  | _ => s

/-- A write to a register of a fault ring (R450). -/
def State.writeFault (s : State) (a r : Nat) (value : Word) : State :=
  let c := s.ctx a
  match r with
  | 0x08 => if value.toNat ≤ c.fqTail then s.setCtx a { c with fqHead := value.toNat } else s
  | 0x10 => s.setCtx a { c with fqLost := ((BitVec.ofNat 64 c.fqLost : Word) &&& ~~~value).toNat }
  | _ => s

/-- A write of 8 bytes to BAR 0 (R14, R15, R550). RSTCTL has its own event. -/
def State.writeBar0 (s : State) (off : Nat) (value : Word) : State :=
  match hostReg off with
  | .command 0x00 => s.writeCcmd value false
  | .command 0x08 => { s with carg0 := value }
  | .command 0x10 => { s with carg1 := value }
  | .command _ => s
  | .control q r => s.writeControl q r value
  | .faultq a r => s.writeFault a r value
  | .translation a 0x00 => s.writeTroot a value
  | .translation a 0x08 => s.writeTinva a value
  | .translation a 0x10 => s.writeTinv a value
  | .translation _ _ => s
  | .bell q 0 => s.doorbell q value
  | .bell _ _ => s
  | .link _ _ => s
  | .fabid => s
  | .package _ => s
  | .none => s

/-- REGISTER_WRITE (R14, R550): an aligned write of 8 bytes. -/
def execRegisterWrite (offset : Nat) (value : Word) (s : State) : Result State :=
  .next (if offset % 8 = 0 then s.writeBar0 offset value else s)

/-- BAR0_NARROW_WRITE (R550). On a doorbell page it sets DROP at every offset, also where R419 names no register:
DESIGN CHOICE, unsafe (log 91). -/
def execBar0NarrowWrite (offset size : Nat) (s : State) : Result State :=
  if size = 1 || size = 2 || size = 4 then
    match hostReg offset with
    | .bell q _ => .next (s.setQueue q { s.queue q with drop := true })
    | _ => .next s
  else .next s

/-- A write to BAR 2, line by line (R550): bytes of an absent die are not written. -/
def State.bar2Write (s : State) : List (Nat × List Byte) → State
  | [] => s
  | (o, bs) :: l =>
    (if s.present (o / 2 ^ 20 % 6) then s.putLine (sharedAddr o) (allBytes bs) else s).bar2Write l
/-- A read of BAR 2, line by line (R550): the rules do not say what bytes of an absent die, or of a line that fails,
return; they are free (log 42). -/
def State.bar2Read (s : State) : List (Nat × List Byte) → State × List Byte
  | [] => (s, [])
  | (o, bs) :: l =>
    let n := bs.length
    let r := s.read s.front (sharedAddr o) n
    let (s, got) := if s.present (o / 2 ^ 20 % 6) && r.err.isNone then (r.s, r.bytes)
      else ({ s with freeCtr := s.freeCtr + n }, s.freeBytes n)
    let (s, rest) := s.bar2Read l
    (s, got ++ rest)

/-- BAR2_ACCESS (R550): the shared scratchpad, 1 to 64 bytes. For a read, `data` gives the size. -/
def execBar2Access (write : Bool) (offset : Nat) (data : List Byte) (s : State) : Result State :=
  let n := data.length
  if n = 0 || 64 < n || Config.sharedBytes < offset + n then .next s
  else
    let lines := splitLines 3 offset data
    if write then .next (s.bar2Write lines)
    else
      let (s, bs) := s.bar2Read lines
      .next { s with output := bs }

end Sys2Proof.Machine
end

