-- ==== Sys2Proof/Machine/Scalar.lean ====
section
/-! DEFINITION. Scalar arithmetic (R145 to R158): majors 0x01 to 0x0C. -/

namespace Sys2Proof.Machine

/-- A two-source scalar operation (R145). -/
def alu2 (o : OpA) (f : Word → Word → Word) (s : State) : Result State :=
  s.src2 o.a o.ea o.b o.eb fun x y => s.write o.d (f x y)
/-- A one-source scalar operation (R148). -/
def alu1 (o : OpA) (f : Word → Word → Word) (s : State) : Result State :=
  s.src1 o.a o.ea fun x => s.write o.d (f x 0)
/-- An operation with an immediate (R149). -/
def aluI (d a : Reg) (ea : Bool) (y : Word) (f : Word → Word → Word) (s : State) : Result State :=
  s.src1 a ea fun x => s.write d (f x y)
/-- A division: gd is Pending from issue, and its result is formed from the sources read at issue
(R152, R153). -/
def divide (o : OpA) (f : Word → Word → Word) (s : State) : Result State :=
  s.src2 o.a o.ea o.b o.eb fun x y => s.produce o.d (.word (f x y))

/-- add (R147). -/
def execAdd (o : OpA) (s : State) : Result State := alu2 o opAdd s
/-- add.w (R146, R147). -/
def execAddW (o : OpA) (s : State) : Result State := alu2 o (wform opAdd) s
/-- sub (R147). -/
def execSub (o : OpA) (s : State) : Result State := alu2 o opSub s
/-- sub.w (R146, R147). -/
def execSubW (o : OpA) (s : State) : Result State := alu2 o (wform opSub) s
/-- and (R147). -/
def execAnd (o : OpA) (s : State) : Result State := alu2 o opAnd s
/-- and.w (R146, R147). -/
def execAndW (o : OpA) (s : State) : Result State := alu2 o (wform opAnd) s
/-- or (R147). -/
def execOr (o : OpA) (s : State) : Result State := alu2 o opOr s
/-- or.w (R146, R147). -/
def execOrW (o : OpA) (s : State) : Result State := alu2 o (wform opOr) s
/-- xor (R147). -/
def execXor (o : OpA) (s : State) : Result State := alu2 o opXor s
/-- xor.w (R146, R147). -/
def execXorW (o : OpA) (s : State) : Result State := alu2 o (wform opXor) s
/-- andn (R147). -/
def execAndn (o : OpA) (s : State) : Result State := alu2 o opAndn s
/-- andn.w (R146, R147). -/
def execAndnW (o : OpA) (s : State) : Result State := alu2 o (wform opAndn) s
/-- shl (R147). -/
def execShl (o : OpA) (s : State) : Result State := alu2 o opShl s
/-- shl.w (R146, R147). -/
def execShlW (o : OpA) (s : State) : Result State := alu2 o (wform opShl) s
/-- shr (R147). -/
def execShr (o : OpA) (s : State) : Result State := alu2 o opShr s
/-- shr.w (R146, R147). -/
def execShrW (o : OpA) (s : State) : Result State := alu2 o (wform opShr) s
/-- sar (R147). -/
def execSar (o : OpA) (s : State) : Result State := alu2 o opSar s
/-- sar.w (R146, R147). -/
def execSarW (o : OpA) (s : State) : Result State := alu2 o (wform opSar) s
/-- rol (R147). -/
def execRol (o : OpA) (s : State) : Result State := alu2 o opRol s
/-- rol.w (R146, R147). -/
def execRolW (o : OpA) (s : State) : Result State := alu2 o (wform opRol) s
/-- ror (R147). -/
def execRor (o : OpA) (s : State) : Result State := alu2 o opRor s
/-- ror.w (R146, R147). -/
def execRorW (o : OpA) (s : State) : Result State := alu2 o (wform opRor) s
/-- min (R147). -/
def execMin (o : OpA) (s : State) : Result State := alu2 o opMin s
/-- min.w (R146, R147). -/
def execMinW (o : OpA) (s : State) : Result State := alu2 o (wform opMin) s
/-- max (R147). -/
def execMax (o : OpA) (s : State) : Result State := alu2 o opMax s
/-- max.w (R146, R147). -/
def execMaxW (o : OpA) (s : State) : Result State := alu2 o (wform opMax) s
/-- minn (R147). -/
def execMinn (o : OpA) (s : State) : Result State := alu2 o opMinn s
/-- minn.w (R146, R147). -/
def execMinnW (o : OpA) (s : State) : Result State := alu2 o (wform opMinn) s
/-- maxn (R147). -/
def execMaxn (o : OpA) (s : State) : Result State := alu2 o opMaxn s
/-- maxn.w (R146, R147). -/
def execMaxnW (o : OpA) (s : State) : Result State := alu2 o (wform opMaxn) s
/-- clz (R148). -/
def execClz (o : OpA) (s : State) : Result State := alu1 o opClz s
/-- clz.w (R146, R148). -/
def execClzW (o : OpA) (s : State) : Result State := alu1 o (wform opClz) s
/-- ctz (R148). -/
def execCtz (o : OpA) (s : State) : Result State := alu1 o opCtz s
/-- ctz.w (R146, R148). -/
def execCtzW (o : OpA) (s : State) : Result State := alu1 o (wform opCtz) s
/-- popc (R148). -/
def execPopc (o : OpA) (s : State) : Result State := alu1 o opPopc s
/-- popc.w (R146, R148). -/
def execPopcW (o : OpA) (s : State) : Result State := alu1 o (wform opPopc) s
/-- bswap (R148). -/
def execBswap (o : OpA) (s : State) : Result State := alu1 o opBswap s
/-- bswap.w (R146, R148). -/
def execBswapW (o : OpA) (s : State) : Result State := alu1 o (wform opBswap) s
/-- addi (R149). -/
def execAddi (o : OpI) (s : State) : Result State := aluI o.d o.a o.ea (imm15 o.imm) opAdd s
/-- addi.w (R149). -/
def execAddiW (o : OpI) (s : State) : Result State := aluI o.d o.a o.ea (imm15 o.imm) (wform opAdd) s
/-- andi (R149). -/
def execAndi (o : OpI13) (s : State) : Result State := aluI o.d o.a o.ea (imm13 o.imm) opAnd s
/-- ori (R149). -/
def execOri (o : OpI13) (s : State) : Result State := aluI o.d o.a o.ea (imm13 o.imm) opOr s
/-- xori (R149). -/
def execXori (o : OpI13) (s : State) : Result State := aluI o.d o.a o.ea (imm13 o.imm) opXor s
/-- andni (R149). -/
def execAndni (o : OpI13) (s : State) : Result State := aluI o.d o.a o.ea (imm13 o.imm) opAndn s
/-- shli (R149). -/
def execShli (o : OpSh) (s : State) : Result State := aluI o.d o.a o.ea (o.amt.setWidth 64) opShl s
/-- shli.w (R149). -/
def execShliW (o : OpSh) (s : State) : Result State := aluI o.d o.a o.ea (o.amt.setWidth 64) (wform opShl) s
/-- shri (R149). -/
def execShri (o : OpSh) (s : State) : Result State := aluI o.d o.a o.ea (o.amt.setWidth 64) opShr s
/-- shri.w (R149). -/
def execShriW (o : OpSh) (s : State) : Result State := aluI o.d o.a o.ea (o.amt.setWidth 64) (wform opShr) s
/-- sari (R149). -/
def execSari (o : OpSh) (s : State) : Result State := aluI o.d o.a o.ea (o.amt.setWidth 64) opSar s
/-- sari.w (R149). -/
def execSariW (o : OpSh) (s : State) : Result State := aluI o.d o.a o.ea (o.amt.setWidth 64) (wform opSar) s
/-- roli (R149). -/
def execRoli (o : OpSh) (s : State) : Result State := aluI o.d o.a o.ea (o.amt.setWidth 64) opRol s
/-- roli.w (R149). -/
def execRoliW (o : OpSh) (s : State) : Result State := aluI o.d o.a o.ea (o.amt.setWidth 64) (wform opRol) s
/-- rori (R149). -/
def execRori (o : OpSh) (s : State) : Result State := aluI o.d o.a o.ea (o.amt.setWidth 64) opRor s
/-- rori.w (R149). -/
def execRoriW (o : OpSh) (s : State) : Result State := aluI o.d o.a o.ea (o.amt.setWidth 64) (wform opRor) s
/-- slti (R149, R156). -/
def execSlti (o : OpI13) (s : State) : Result State := 
  aluI o.d o.a o.ea (imm13 o.imm) (fun x y => flagWord (cmpSlt x y)) s
/-- sltni (R149, R156). -/
def execSltni (o : OpI13) (s : State) : Result State := 
  aluI o.d o.a o.ea (imm13 o.imm) (fun x y => flagWord (cmpSltn x y)) s
/-- seqi (R149, R156). -/
def execSeqi (o : OpI13) (s : State) : Result State := 
  aluI o.d o.a o.ea (imm13 o.imm) (fun x y => flagWord (cmpSeq x y)) s
/-- snei (R149, R156). -/
def execSnei (o : OpI13) (s : State) : Result State := 
  aluI o.d o.a o.ea (imm13 o.imm) (fun x y => flagWord (cmpSne x y)) s
/-- mini (R149). -/
def execMini (o : OpI13) (s : State) : Result State := aluI o.d o.a o.ea (imm13 o.imm) opMin s
/-- maxi (R149). -/
def execMaxi (o : OpI13) (s : State) : Result State := aluI o.d o.a o.ea (imm13 o.imm) opMax s
/-- minni (R149). -/
def execMinni (o : OpI13) (s : State) : Result State := aluI o.d o.a o.ea (imm13 o.imm) opMinn s
/-- maxni (R149). -/
def execMaxni (o : OpI13) (s : State) : Result State := aluI o.d o.a o.ea (imm13 o.imm) opMaxn s
/-- lui (R150): imm << 43. -/
def execLui (d : Reg) (imm : BitVec 21) (s : State) : Result State := s.write d (imm ++ (0 : BitVec 43))
/-- bfx (R154, R155). -/
def execBfx (o : OpF) (s : State) : Result State := 
  s.src1 o.a o.ea fun x => s.write o.d (bfExtract true x o.off.toNat o.wid.toNat)
/-- bfxn (R154, R155). -/
def execBfxn (o : OpF) (s : State) : Result State := 
  s.src1 o.a o.ea fun x => s.write o.d (bfExtract false x o.off.toNat o.wid.toNat)
/-- bfi (R154, R155): gd is read as a source under ea. -/
def execBfi (o : OpF) (s : State) : Result State := 
  s.src2 o.a o.ea o.d o.ea fun x y => s.write o.d (bfInsert y x o.off.toNat o.wid.toNat)
/-- bfx with a register (R154, R155). -/
def execBfxReg (o : OpFR) (s : State) : Result State := 
  s.src2 o.a o.ea o.b o.eb fun x y => s.write o.d (bfExtract true x (bfOff y) (bfWid y))
/-- bfxn with a register (R154, R155). -/
def execBfxnReg (o : OpFR) (s : State) : Result State := 
  s.src2 o.a o.ea o.b o.eb fun x y => s.write o.d (bfExtract false x (bfOff y) (bfWid y))
/-- bfi with a register (R154, R155). -/
def execBfiReg (o : OpFR) (s : State) : Result State := 
  s.src3 o.a o.ea o.b o.eb o.d o.ea fun x y z => s.write o.d (bfInsert z x (bfOff y) (bfWid y))
/-- mul (R151). -/
def execMul (o : OpA) (s : State) : Result State := alu2 o opMul s
/-- mul.w (R146, R151). -/
def execMulW (o : OpA) (s : State) : Result State := alu2 o (wform opMul) s
/-- mulh (R151). -/
def execMulh (o : OpA) (s : State) : Result State := alu2 o opMulh s
/-- mulh.w (R146, R151). -/
def execMulhW (o : OpA) (s : State) : Result State := alu2 o (wform opMulh) s
/-- mulhn (R151). -/
def execMulhn (o : OpA) (s : State) : Result State := alu2 o opMulhn s
/-- mulhn.w (R146, R151). -/
def execMulhnW (o : OpA) (s : State) : Result State := alu2 o (wform opMulhn) s
/-- div (R152, R153). -/
def execDiv (o : OpA) (s : State) : Result State := divide o opDiv s
/-- div.w (R146, R152, R153). -/
def execDivW (o : OpA) (s : State) : Result State := divide o (wform opDiv) s
/-- divn (R152, R153). -/
def execDivn (o : OpA) (s : State) : Result State := divide o opDivn s
/-- divn.w (R146, R152, R153). -/
def execDivnW (o : OpA) (s : State) : Result State := divide o (wform opDivn) s
/-- rem (R152, R153). -/
def execRem (o : OpA) (s : State) : Result State := divide o opRem s
/-- rem.w (R146, R152, R153). -/
def execRemW (o : OpA) (s : State) : Result State := divide o (wform opRem) s
/-- remn (R152, R153). -/
def execRemn (o : OpA) (s : State) : Result State := divide o opRemn s
/-- remn.w (R146, R152, R153). -/
def execRemnW (o : OpA) (s : State) : Result State := divide o (wform opRemn) s
/-- lea (R158): ga + (gb << s), with no check of the address. -/
def execLea (o : OpA) (sh : BitVec 3) (s : State) : Result State := 
  alu2 o (fun x y => x + (y <<< sh.toNat)) s
/-- slt (R156). -/
def execSlt (o : OpA) (s : State) : Result State := alu2 o (fun x y => flagWord (cmpSlt x y)) s
/-- slt.w (R156). -/
def execSltW (o : OpA) (s : State) : Result State := alu2 o (fun x y => flagWord (wcmp cmpSlt x y)) s
/-- sltn (R156). -/
def execSltn (o : OpA) (s : State) : Result State := alu2 o (fun x y => flagWord (cmpSltn x y)) s
/-- sltn.w (R156). -/
def execSltnW (o : OpA) (s : State) : Result State := alu2 o (fun x y => flagWord (wcmp cmpSltn x y)) s
/-- seq (R156). -/
def execSeq (o : OpA) (s : State) : Result State := alu2 o (fun x y => flagWord (cmpSeq x y)) s
/-- seq.w (R156). -/
def execSeqW (o : OpA) (s : State) : Result State := alu2 o (fun x y => flagWord (wcmp cmpSeq x y)) s
/-- sne (R156). -/
def execSne (o : OpA) (s : State) : Result State := alu2 o (fun x y => flagWord (cmpSne x y)) s
/-- sne.w (R156). -/
def execSneW (o : OpA) (s : State) : Result State := alu2 o (fun x y => flagWord (wcmp cmpSne x y)) s
/-- sel (R157): gd is the condition, read under ea. -/
def execSel (o : OpA) (s : State) : Result State := 
  s.src3 o.a o.ea o.b o.eb o.d o.ea fun x y c => s.write o.d (if c != 0 then x else y)

end Sys2Proof.Machine
end

