-- ==== Sys2Proof/Machine/Wait.lean ====
section
/-! DEFINITION. The end of a stall (R104, R108, R301): whether the condition that a strand waits for holds. A
stalled strand that moves tries its instruction again in any case; the release alone changes its state. -/

namespace Sys2Proof.Machine

/-- A broken channel ends the waits on it (R342, R345, R356). -/
def State.chanBroken (s : State) (core ch : Nat) : Bool :=
  match s.chan core ch with
  | some x => x.st == .broken
  | none => true

/-- What a waiting instruction of a strand waits for holds. -/
def State.condMet (s : State) (core : Nat) (t : Strand) : Cond → Bool
  | .vectorIdle => t.vectorIdle
  | .accessesDone => t.accessesDone
  | .loadsDone => t.loadsDone
  | .bankDone b => !t.bankDue (bankOfCode b)
  | .pointEverywhere num => s.pointDone core num
  | .pressedTo idx => (s.log core).pressedTo idx
  | .delivered v n => if v then t.vst n != .pending else t.gst n != .pending
  | .translated va => match s.place core va 1 .any with
    | .wait => false
    | _ => true
  | .pinned => decide ((s.die (dieOf core)).pinned.length < 8192)
  | .always => true
  | .tablesOut mask =>
    (List.range 16).all fun h =>
      !isHandle h || !mask.getLsbD (if h < 4 then h else h - 4) || s.tblOut core h
  | .markers id => match t.holdOf id, t.wait with
    | some h, some w => s.markersDone core (BitVec.ofNat 64 w.b) h.chans
    | _, _ => true
  | .performed id => match t.holdOf id with
    | some h => s.performed core h
    | none => true
  | .lease => !s.leasePending core
  | .reshape => match t.wait with
    | some w => match t.reshapeNext w with
      | .wait => false
      | _ => true
    | none => true
  | .tableDrained h => s.tblDrained core h
  | .watermark ch a => s.chanBroken core ch || (s.chan core ch).elim true (fun x => a.ule x.wm)
  | .chanDone ch => (s.chan core ch).elim true Chan.quiet
  | .slots ch n => s.chanBroken core ch ||
    (((s.chan core ch).bind Chan.cbuf).bind (fun b => b.consumer 0)).elim true (fun c => decide (n ≤ c.fill))
  | .counted => t.wait.elim true (fun w => w.stage != 2)
  | .generation line => (t.arrOf line).elim true (fun r => s.delivered core r)
  | .winCount h q n => (mfind s.wins h).elim true (fun w => decide (n.toNat ≤ w.counter q) || w.broken != 0)
  | .winSettled h => s.winSettled h
  | .ringCount i out n => (mfind s.rings i).elim true fun r =>
    decide (n.toNat ≤ r.counter out) || r.st == .broken
  | .ringReady i => (mfind s.rings i).elim true fun r =>
    if t.wait.isSome then r.outs.isEmpty else decide (r.blocks.length < ownBlocks)
  | .event => decide ((s.core core).evhead < (s.core core).evtail)
  | .others => (t.group.bind (fun g => mfind s.groups g)).elim true (fun x => s.othersEnded x core)

/-- The guard of a channel no longer holds back a byte (R342). -/
def Strand.guardOpen (t : Strand) (a : Word) : Bool :=
  match t.guard a.toNat 1 with
  | some (_, .broken) => true
  | some _ => false
  | none => true

/-- The cause of a strand's stall has ended (R104, R108). -/
def State.whyMet (s : State) (core : Nat) (t : Strand) : Why → Bool
  | .none => true
  | .reg v n => if v then t.vst n != .pending else t.gst n != .pending
  | .head q => (mget t.vq q []).head?.elim true (fun e => e.fe != .pending)
  | .vectorFull => decide (t.vocc < 16 + t.vweir.toNat)
  | .queueFull q => decide ((mget t.vq q []).length < 4 + (t.vqweir.contains q).toNat)
  | .vectorStores => t.storesDone
  | .vectorMemory => t.vectorMemoryDone
  | .atoms => !t.atomDue t.seq
  | .guard _ a => t.guardOpen a
  | .serial => t.vcq.isEmpty && !t.lanesDue && t.vq.all (fun q => q.2.all (fun e => e.fe != .pending))
  | .drain => t.drained
  | .log units => (s.log core).fits units
  | .translation va => match s.place core va 1 .any with
    | .wait => false
    | _ => true
  | .tableQueue h => ({ s with cur := core } : State).tblRoom h
  | .chanQueue ch => (s.chan core ch).elim true (Chan.room · false)
  | .windowQueue => decide ((s.die (dieOf core)).winq.length < winEntries)
  | .pins => decide ((s.die (dieOf core)).pinned.length < 8192)
  | .until c => s.condMet core t c

/-- STALL_RELEASE (R104, R108): a Stalled strand whose cause has ended is Running, and tries its instruction
again. -/
def execStallRelease (core : Nat) (s : State) : Result State :=
  if Config.cores ≤ core then .fault .noSuchObject
  else
    let t := s.strand core
    if t.st = .stalled && s.whyMet core t t.why then .next (s.setStrand core { t with st := .running })
    else .next s

/-- APPEND_RELEASE (R301): units are free again for the append of a stalled strand, which is Running. -/
def execAppendRelease (core : Nat) (s : State) : Result State :=
  if Config.cores ≤ core then .fault .noSuchObject
  else
    let t := s.strand core
    let l := s.log core
    match t.why with
    | .log n =>
      if t.st = .stalled && l.fits n then
        .next (s.setStrand core { t with st := .running })
      else .next s
    | _ => .next (if l.held && l.fits 2 then s.setLog core { l with held := false } else s)

end Sys2Proof.Machine
end

