-- ==== Sys2Proof/Machine/Dispatch.lean ====
section
/-! DEFINITION. What an instruction does to the package: one arm for each row of the opcode table. The words of a
strand act on the strand in focus, micro-orders on its table in focus; the other rows are events. -/

namespace Sys2Proof.Machine

open Sys2Proof.Machine in /-- The meaning of an instruction. -/ noncomputable
def exec (i : Instr) (s : State) : Host.Outcome State Fault Refusal :=
  match i with
  | .add o => Sys2Proof.Machine.execAdd o s
  | .addW o => Sys2Proof.Machine.execAddW o s
  | .sub o => Sys2Proof.Machine.execSub o s
  | .subW o => Sys2Proof.Machine.execSubW o s
  | .and o => Sys2Proof.Machine.execAnd o s
  | .andW o => Sys2Proof.Machine.execAndW o s
  | .or o => Sys2Proof.Machine.execOr o s
  | .orW o => Sys2Proof.Machine.execOrW o s
  | .xor o => Sys2Proof.Machine.execXor o s
  | .xorW o => Sys2Proof.Machine.execXorW o s
  | .andn o => Sys2Proof.Machine.execAndn o s
  | .andnW o => Sys2Proof.Machine.execAndnW o s
  | .shl o => Sys2Proof.Machine.execShl o s
  | .shlW o => Sys2Proof.Machine.execShlW o s
  | .shr o => Sys2Proof.Machine.execShr o s
  | .shrW o => Sys2Proof.Machine.execShrW o s
  | .sar o => Sys2Proof.Machine.execSar o s
  | .sarW o => Sys2Proof.Machine.execSarW o s
  | .rol o => Sys2Proof.Machine.execRol o s
  | .rolW o => Sys2Proof.Machine.execRolW o s
  | .ror o => Sys2Proof.Machine.execRor o s
  | .rorW o => Sys2Proof.Machine.execRorW o s
  | .min o => Sys2Proof.Machine.execMin o s
  | .minW o => Sys2Proof.Machine.execMinW o s
  | .max o => Sys2Proof.Machine.execMax o s
  | .maxW o => Sys2Proof.Machine.execMaxW o s
  | .minn o => Sys2Proof.Machine.execMinn o s
  | .minnW o => Sys2Proof.Machine.execMinnW o s
  | .maxn o => Sys2Proof.Machine.execMaxn o s
  | .maxnW o => Sys2Proof.Machine.execMaxnW o s
  | .clz o => Sys2Proof.Machine.execClz o s
  | .clzW o => Sys2Proof.Machine.execClzW o s
  | .ctz o => Sys2Proof.Machine.execCtz o s
  | .ctzW o => Sys2Proof.Machine.execCtzW o s
  | .popc o => Sys2Proof.Machine.execPopc o s
  | .popcW o => Sys2Proof.Machine.execPopcW o s
  | .bswap o => Sys2Proof.Machine.execBswap o s
  | .bswapW o => Sys2Proof.Machine.execBswapW o s
  | .addi o => Sys2Proof.Machine.execAddi o s
  | .addiW o => Sys2Proof.Machine.execAddiW o s
  | .andi o => Sys2Proof.Machine.execAndi o s
  | .ori o => Sys2Proof.Machine.execOri o s
  | .xori o => Sys2Proof.Machine.execXori o s
  | .andni o => Sys2Proof.Machine.execAndni o s
  | .shli o => Sys2Proof.Machine.execShli o s
  | .shliW o => Sys2Proof.Machine.execShliW o s
  | .shri o => Sys2Proof.Machine.execShri o s
  | .shriW o => Sys2Proof.Machine.execShriW o s
  | .sari o => Sys2Proof.Machine.execSari o s
  | .sariW o => Sys2Proof.Machine.execSariW o s
  | .roli o => Sys2Proof.Machine.execRoli o s
  | .roliW o => Sys2Proof.Machine.execRoliW o s
  | .rori o => Sys2Proof.Machine.execRori o s
  | .roriW o => Sys2Proof.Machine.execRoriW o s
  | .slti o => Sys2Proof.Machine.execSlti o s
  | .sltni o => Sys2Proof.Machine.execSltni o s
  | .seqi o => Sys2Proof.Machine.execSeqi o s
  | .snei o => Sys2Proof.Machine.execSnei o s
  | .mini o => Sys2Proof.Machine.execMini o s
  | .maxi o => Sys2Proof.Machine.execMaxi o s
  | .minni o => Sys2Proof.Machine.execMinni o s
  | .maxni o => Sys2Proof.Machine.execMaxni o s
  | .lui d imm => Sys2Proof.Machine.execLui d imm s
  | .bfx o => Sys2Proof.Machine.execBfx o s
  | .bfxn o => Sys2Proof.Machine.execBfxn o s
  | .bfi o => Sys2Proof.Machine.execBfi o s
  | .bfxReg o => Sys2Proof.Machine.execBfxReg o s
  | .bfxnReg o => Sys2Proof.Machine.execBfxnReg o s
  | .bfiReg o => Sys2Proof.Machine.execBfiReg o s
  | .mul o => Sys2Proof.Machine.execMul o s
  | .mulW o => Sys2Proof.Machine.execMulW o s
  | .mulh o => Sys2Proof.Machine.execMulh o s
  | .mulhW o => Sys2Proof.Machine.execMulhW o s
  | .mulhn o => Sys2Proof.Machine.execMulhn o s
  | .mulhnW o => Sys2Proof.Machine.execMulhnW o s
  | .div o => Sys2Proof.Machine.execDiv o s
  | .divW o => Sys2Proof.Machine.execDivW o s
  | .divn o => Sys2Proof.Machine.execDivn o s
  | .divnW o => Sys2Proof.Machine.execDivnW o s
  | .rem o => Sys2Proof.Machine.execRem o s
  | .remW o => Sys2Proof.Machine.execRemW o s
  | .remn o => Sys2Proof.Machine.execRemn o s
  | .remnW o => Sys2Proof.Machine.execRemnW o s
  | .lea o v_s => Sys2Proof.Machine.execLea o v_s s
  | .slt o => Sys2Proof.Machine.execSlt o s
  | .sltW o => Sys2Proof.Machine.execSltW o s
  | .sltn o => Sys2Proof.Machine.execSltn o s
  | .sltnW o => Sys2Proof.Machine.execSltnW o s
  | .seq o => Sys2Proof.Machine.execSeq o s
  | .seqW o => Sys2Proof.Machine.execSeqW o s
  | .sne o => Sys2Proof.Machine.execSne o s
  | .sneW o => Sys2Proof.Machine.execSneW o s
  | .sel o => Sys2Proof.Machine.execSel o s
  | .beq o => Sys2Proof.Machine.execBeq o s
  | .bne o => Sys2Proof.Machine.execBne o s
  | .blt o => Sys2Proof.Machine.execBlt o s
  | .bge o => Sys2Proof.Machine.execBge o s
  | .bltn o => Sys2Proof.Machine.execBltn o s
  | .bgen o => Sys2Proof.Machine.execBgen o s
  | .j off => Sys2Proof.Machine.execJ off s
  | .jal off => Sys2Proof.Machine.execJal off s
  | .jr o => Sys2Proof.Machine.execJr o s
  | .jalr o => Sys2Proof.Machine.execJalr o s
  | .loop o => Sys2Proof.Machine.execLoop o s
  | .ld o => Sys2Proof.Machine.execLd o s
  | .st o => Sys2Proof.Machine.execSt o s
  | .atom o => Sys2Proof.Machine.execAtom o s
  | .femark file o => Sys2Proof.Machine.execFemark file o s
  | .fetest file o => Sys2Proof.Machine.execFetest file o s
  | .fewait file o => Sys2Proof.Machine.execFewait file o s
  | .vadd o => Sys2Proof.Machine.execVadd o s
  | .vsub o => Sys2Proof.Machine.execVsub o s
  | .vmul o => Sys2Proof.Machine.execVmul o s
  | .vmulh o => Sys2Proof.Machine.execVmulh o s
  | .vimin o => Sys2Proof.Machine.execVimin o s
  | .vimax o => Sys2Proof.Machine.execVimax o s
  | .vand o => Sys2Proof.Machine.execVand o s
  | .vor o => Sys2Proof.Machine.execVor o s
  | .vxor o => Sys2Proof.Machine.execVxor o s
  | .vshl o => Sys2Proof.Machine.execVshl o s
  | .vshr o => Sys2Proof.Machine.execVshr o s
  | .vsar o => Sys2Proof.Machine.execVsar o s
  | .vabs o => Sys2Proof.Machine.execVabs o s
  | .vfadd o => Sys2Proof.Machine.execVfadd o s
  | .vfsub o => Sys2Proof.Machine.execVfsub o s
  | .vfmul o => Sys2Proof.Machine.execVfmul o s
  | .vfma o => Sys2Proof.Machine.execVfma o s
  | .vfms o => Sys2Proof.Machine.execVfms o s
  | .vdiv o => Sys2Proof.Machine.execVdiv o s
  | .vsqrt o => Sys2Proof.Machine.execVsqrt o s
  | .vmin o => Sys2Proof.Machine.execVmin o s
  | .vmax o => Sys2Proof.Machine.execVmax o s
  | .vminn o => Sys2Proof.Machine.execVminn o s
  | .vmaxn o => Sys2Proof.Machine.execVmaxn o s
  | .vfabs o => Sys2Proof.Machine.execVfabs o s
  | .vfneg o => Sys2Proof.Machine.execVfneg o s
  | .vcvt o => Sys2Proof.Machine.execVcvt o s
  | .vcvtw o => Sys2Proof.Machine.execVcvtw o s
  | .vcvtn o => Sys2Proof.Machine.execVcvtn o s
  | .venc4 o => Sys2Proof.Machine.execVenc4 o s
  | .vdec4 o => Sys2Proof.Machine.execVdec4 o s
  | .vmov o => Sys2Proof.Machine.execVmov o s
  | .vsplat o => Sys2Proof.Machine.execVsplat o s
  | .viota o => Sys2Proof.Machine.execViota o s
  | .vget o => Sys2Proof.Machine.execVget o s
  | .vset o => Sys2Proof.Machine.execVset o s
  | .vperm o => Sys2Proof.Machine.execVperm o s
  | .vzip o => Sys2Proof.Machine.execVzip o s
  | .vunzip o => Sys2Proof.Machine.execVunzip o s
  | .vrot o => Sys2Proof.Machine.execVrot o s
  | .vslideup o => Sys2Proof.Machine.execVslideup o s
  | .vslidedn o => Sys2Proof.Machine.execVslidedn o s
  | .vcompress o => Sys2Proof.Machine.execVcompress o s
  | .vexpand o => Sys2Proof.Machine.execVexpand o s
  | .vrev o => Sys2Proof.Machine.execVrev o s
  | .vfcmp o => Sys2Proof.Machine.execVfcmp o s
  | .vicmp o => Sys2Proof.Machine.execVicmp o s
  | .kand o => Sys2Proof.Machine.execKand o s
  | .kor o => Sys2Proof.Machine.execKor o s
  | .kxor o => Sys2Proof.Machine.execKxor o s
  | .kandn o => Sys2Proof.Machine.execKandn o s
  | .knot o => Sys2Proof.Machine.execKnot o s
  | .kpopc o => Sys2Proof.Machine.execKpopc o s
  | .kfirst o => Sys2Proof.Machine.execKfirst o s
  | .vexp2 o => Sys2Proof.Machine.execVexp2 o s
  | .vlog2 o => Sys2Proof.Machine.execVlog2 o s
  | .vrcp o => Sys2Proof.Machine.execVrcp o s
  | .vrsqrt o => Sys2Proof.Machine.execVrsqrt o s
  | .vtanh o => Sys2Proof.Machine.execVtanh o s
  | .vsigm o => Sys2Proof.Machine.execVsigm o s
  | .vsum o => Sys2Proof.Machine.execVsum o s
  | .vscan o => Sys2Proof.Machine.execVscan o s
  | .vrmax o => Sys2Proof.Machine.execVrmax o s
  | .vrmin o => Sys2Proof.Machine.execVrmin o s
  | .vld o => Sys2Proof.Machine.execVld o s
  | .vst o => Sys2Proof.Machine.execVst o s
  | .vlds o => Sys2Proof.Machine.execVlds o s
  | .vsts o => Sys2Proof.Machine.execVsts o s
  | .vldx o => Sys2Proof.Machine.execVldx o s
  | .vstx o => Sys2Proof.Machine.execVstx o s
  | .qld o => Sys2Proof.Machine.execQld o s
  | .vlsld o => Sys2Proof.Machine.execVlsld o s
  | .vlsst o => Sys2Proof.Machine.execVlsst o s
  | .pq p second => Sys2Proof.Machine.execPq p second s
  | .flease o => Sys2Proof.Machine.execFlease o s
  | .fleaseFix o => Sys2Proof.Machine.execFleaseFix o s
  | .ffree o => Sys2Proof.Machine.execFfree o s
  | .fsplit o => Sys2Proof.Machine.execFsplit o s
  | .fsplitDiscard o => Sys2Proof.Machine.execFsplitDiscard o s
  | .ffuse o => Sys2Proof.Machine.execFfuse o s
  | .ffuseDiscard o => Sys2Proof.Machine.execFfuseDiscard o s
  | .fchain o => Sys2Proof.Machine.execFchain o s
  | .funchain o => Sys2Proof.Machine.execFunchain o s
  | .fquery o => Sys2Proof.Machine.execFquery o s
  | .tload o => Sys2Proof.Machine.execTload o s
  | .tloadKeep o => Sys2Proof.Machine.execTloadKeep o s
  | .tnest o => Sys2Proof.Machine.execTnest o s
  | .tgo o => Sys2Proof.Machine.execTgo o s
  | .tstop o => Sys2Proof.Machine.execTstop o s
  | .tstopMark o => Sys2Proof.Machine.execTstopMark o s
  | .tbase o => Sys2Proof.Machine.execTbase o s
  | .tbaseNow o => Sys2Proof.Machine.execTbaseNow o s
  | .trestart o => Sys2Proof.Machine.execTrestart o s
  | .tstat o => Sys2Proof.Machine.execTstat o s
  | .tstatIdx0 o => Sys2Proof.Machine.execTstatIdx0 o s
  | .tstatIdx4 o => Sys2Proof.Machine.execTstatIdx4 o s
  | .tstatEseq o => Sys2Proof.Machine.execTstatEseq o s
  | .tstatEhw o => Sys2Proof.Machine.execTstatEhw o s
  | .tstatClr o => Sys2Proof.Machine.execTstatClr o s
  | .chopen o => Sys2Proof.Machine.execChopen o s
  | .chopenRx o => Sys2Proof.Machine.execChopenRx o s
  | .cpy o cb sum => Sys2Proof.Machine.execCpy o cb sum s
  | .cpym o sum => Sys2Proof.Machine.execCpym o sum s
  | .gth o cb sum => Sys2Proof.Machine.execGth o cb sum s
  | .chwm o => Sys2Proof.Machine.execChwm o s
  | .chwait o => Sys2Proof.Machine.execChwait o s
  | .chsum o => Sys2Proof.Machine.execChsum o s
  | .chsumExp o => Sys2Proof.Machine.execChsumExp o s
  | .chsumClr o => Sys2Proof.Machine.execChsumClr o s
  | .chsumStat o => Sys2Proof.Machine.execChsumStat o s
  | .chsumSlip o => Sys2Proof.Machine.execChsumSlip o s
  | .chsumSeq o => Sys2Proof.Machine.execChsumSeq o s
  | .chclose o => Sys2Proof.Machine.execChclose o s
  | .chcloseDiscard o => Sys2Proof.Machine.execChcloseDiscard o s
  | .cbcfg o => Sys2Proof.Machine.execCbcfg o s
  | .cbpop o => Sys2Proof.Machine.execCbpop o s
  | .wopenExp o => Sys2Proof.Machine.execWopenExp o s
  | .wopenImp o => Sys2Proof.Machine.execWopenImp o s
  | .wwr o red => Sys2Proof.Machine.execWwr o red s
  | .wwrs o red => Sys2Proof.Machine.execWwrs o red s
  | .watom o wide op => Sys2Proof.Machine.execWatom o wide op s
  | .wcntSent o => Sys2Proof.Machine.execWcntSent o s
  | .wcntAckd o => Sys2Proof.Machine.execWcntAckd o s
  | .wcntRcvd o => Sys2Proof.Machine.execWcntRcvd o s
  | .wcntSig o => Sys2Proof.Machine.execWcntSig o s
  | .wcntStat o => Sys2Proof.Machine.execWcntStat o s
  | .wwaitAckd o => Sys2Proof.Machine.execWwaitAckd o s
  | .wwaitRcvd o => Sys2Proof.Machine.execWwaitRcvd o s
  | .wwaitSig o => Sys2Proof.Machine.execWwaitSig o s
  | .wclose o => Sys2Proof.Machine.execWclose o s
  | .rngjoin o => Sys2Proof.Machine.execRngjoin o s
  | .rngsend o => Sys2Proof.Machine.execRngsend o s
  | .rngwait o => Sys2Proof.Machine.execRngwait o s
  | .rngwaitOut o => Sys2Proof.Machine.execRngwaitOut o s
  | .rngwaitStat o => Sys2Proof.Machine.execRngwaitStat o s
  | .rngwaitOwn o => Sys2Proof.Machine.execRngwaitOwn o s
  | .rngdone o => Sys2Proof.Machine.execRngdone o s
  | .rngleave o => Sys2Proof.Machine.execRngleave o s
  | .mfence o => Sys2Proof.Machine.execMfence o s
  | .pfence o => Sys2Proof.Machine.execPfence o s
  | .rel scope => Sys2Proof.Machine.execRel scope s
  | .acq o scope => Sys2Proof.Machine.execAcq o scope s
  | .acqH o scope => Sys2Proof.Machine.execAcqH o scope s
  | .logq o => Sys2Proof.Machine.execLogq o s
  | .binit o => Sys2Proof.Machine.execBinit o s
  | .barr o => Sys2Proof.Machine.execBarr o s
  | .bwait o => Sys2Proof.Machine.execBwait o s
  | .barw o => Sys2Proof.Machine.execBarw o s
  | .bmask o => Sys2Proof.Machine.execBmask o s
  | .bpend o => Sys2Proof.Machine.execBpend o s
  | .bq o => Sys2Proof.Machine.execBq o s
  | .fork o => Sys2Proof.Machine.execFork o s
  | .rdv o => Sys2Proof.Machine.execRdv o s
  | .fpop o => Sys2Proof.Machine.execFpop o s
  | .grank o => Sys2Proof.Machine.execGrank o s
  | .grankSize o => Sys2Proof.Machine.execGrankSize o s
  | .grankNum o => Sys2Proof.Machine.execGrankNum o s
  | .grankCores o => Sys2Proof.Machine.execGrankCores o s
  | .grankDies o => Sys2Proof.Machine.execGrankDies o s
  | .gexit => Sys2Proof.Machine.execGexit s
  | .nop => Sys2Proof.Machine.execNop s
  | .halt => Sys2Proof.Machine.execHalt s
  | .sleep o => Sys2Proof.Machine.execSleep o s
  | .time o => Sys2Proof.Machine.execTime o s
  | .feat o => Sys2Proof.Machine.execFeat o s
  | .locq o => Sys2Proof.Machine.execLocq o s
  | .cget o => Sys2Proof.Machine.execCget o s
  | .cset o => Sys2Proof.Machine.execCset o s
  | .spfmt o => Sys2Proof.Machine.execSpfmt o s
  | .eret => Sys2Proof.Machine.execEret s
  | .spfmtq o => Sys2Proof.Machine.execSpfmtq o s
  | .trap code => Sys2Proof.Machine.execTrap code s
  | .sysc code => Sys2Proof.Machine.execSysc code s
  | .brk code => Sys2Proof.Machine.execBrk code s
  | .nopt n => Sys2Proof.Machine.execNopt n s
  | .wld shape ty active gen col => Sys2Proof.Machine.execWld shape ty active gen col s
  | .wswap => Sys2Proof.Machine.execWswap s
  | .mma shape ty acc gen src brow bcol => Sys2Proof.Machine.execMma shape ty acc gen src brow bcol s
  | .aclr base rows => Sys2Proof.Machine.execAclr base rows s
  | .drain gen link ty base rows => Sys2Proof.Machine.execDrain gen link ty base rows s
  | .epi act bi sc bs rm sat thr => Sys2Proof.Machine.execEpi act bi sc bs rm sat thr s
  | .tstart => Sys2Proof.Machine.execTstart s
  | .proof seed bf literal => Sys2Proof.Machine.execProof seed bf literal s
  | .cbwait ch n => Sys2Proof.Machine.execCbwait ch n s
  | .cbfree ch n => Sys2Proof.Machine.execCbfree ch n s
  | .wmwait ch gen l => Sys2Proof.Machine.execWmwait ch gen l s
  | .sigb cell => Sys2Proof.Machine.execSigb cell s
  | .nest level target => Sys2Proof.Machine.execNest level target s
  | .jmpt target => Sys2Proof.Machine.execJmpt target s
  | .haltt => Sys2Proof.Machine.execHaltt s
  | .cpo sg dg sum cb => Sys2Proof.Machine.execCpo sg dg sum cb s
  | .cpot sg dg sum cb => Sys2Proof.Machine.execCpot sg dg sum cb s
  | .gto sg dg sum cb xg => Sys2Proof.Machine.execGto sg dg sum cb xg s
  | .sumchk => Sys2Proof.Machine.execSumchk s
  | .producerDelivery core n => Sys2Proof.Machine.execProducerDelivery core n s
  | .stallRelease core => Sys2Proof.Machine.execStallRelease core s
  | .trapDisposition core => Sys2Proof.Machine.execTrapDisposition core s
  | .sleepDeadline core => Sys2Proof.Machine.execSleepDeadline core s
  | .sleepWake core => Sys2Proof.Machine.execSleepWake core s
  | .vectorCommandStart core => Sys2Proof.Machine.execVectorCommandStart core s
  | .qldRead core => Sys2Proof.Machine.execQldRead core s
  | .reductionAccept cluster => Sys2Proof.Machine.execReductionAccept cluster s
  | .floatLaunch agent => Sys2Proof.Machine.execFloatLaunch agent s
  | .floatHop n dst => Sys2Proof.Machine.execFloatHop n dst s
  | .tableCommandApply core handle => Sys2Proof.Machine.execTableCommandApply core handle s
  | .tableRewind core handle => Sys2Proof.Machine.execTableRewind core handle s
  | .allocatorArbitration die => Sys2Proof.Machine.execAllocatorArbitration die s
  | .leaseGrant core => Sys2Proof.Machine.execLeaseGrant core s
  | .reservation die => Sys2Proof.Machine.execReservation die s
  | .fleaseDeadline core => Sys2Proof.Machine.execFleaseDeadline core s
  | .scrubComplete die => Sys2Proof.Machine.execScrubComplete die s
  | .reshapeComplete core => Sys2Proof.Machine.execReshapeComplete core s
  | .publicationPointArrival core die => Sys2Proof.Machine.execPublicationPointArrival core die s
  | .pressRecord core => Sys2Proof.Machine.execPressRecord core s
  | .appendRelease core => Sys2Proof.Machine.execAppendRelease core s
  | .atomHomeExecute core => Sys2Proof.Machine.execAtomHomeExecute core s
  | .lineRecall line => Sys2Proof.Machine.execLineRecall line s
  | .queueHeadEntry core ch => Sys2Proof.Machine.execQueueHeadEntry core ch s
  | .commandBegin core ch => Sys2Proof.Machine.execCommandBegin core ch s
  | .copyLineTransfer core ch seq => Sys2Proof.Machine.execCopyLineTransfer core ch seq s
  | .commandComplete core ch seq => Sys2Proof.Machine.execCommandComplete core ch seq s
  | .multicastCredit core ch receiver => Sys2Proof.Machine.execMulticastCredit core ch receiver s
  | .channelQueueApply core ch => Sys2Proof.Machine.execChannelQueueApply core ch s
  | .arrivalCounted n => Sys2Proof.Machine.execArrivalCounted n s
  | .childArrival die cell => Sys2Proof.Machine.execChildArrival die cell s
  | .tagComplete tag => Sys2Proof.Machine.execTagComplete tag s
  | .rootCompletionDelivery die cell => Sys2Proof.Machine.execRootCompletionDelivery die cell s
  | .groupPlacement group => Sys2Proof.Machine.execGroupPlacement group s
  | .groupStarvationHold group => Sys2Proof.Machine.execGroupStarvationHold group s
  | .preemptSave group => Sys2Proof.Machine.execPreemptSave group s
  | .strandRestore group => Sys2Proof.Machine.execStrandRestore group s
  | .leaseReclaim core => Sys2Proof.Machine.execLeaseReclaim core s
  | .watchdogExpiry group => Sys2Proof.Machine.execWatchdogExpiry group s
  | .doorbell qid value => Sys2Proof.Machine.execDoorbell qid value s
  | .queueEnable qid value => Sys2Proof.Machine.execQueueEnable qid value s
  | .queueDisable qid value => Sys2Proof.Machine.execQueueDisable qid value s
  | .queueResetComplete qid => Sys2Proof.Machine.execQueueResetComplete qid s
  | .packetFetch => Sys2Proof.Machine.execPacketFetch s
  | .launch qid => Sys2Proof.Machine.execLaunch qid s
  | .feed qid => Sys2Proof.Machine.execFeed qid s
  | .feedRecordAppend qid => Sys2Proof.Machine.execFeedRecordAppend qid s
  | .retire qid => Sys2Proof.Machine.execRetire qid s
  | .kernelRetired kernel => Sys2Proof.Machine.execKernelRetired kernel s
  | .copy qid => Sys2Proof.Machine.execCopy qid s
  | .signal qid => Sys2Proof.Machine.execSignal qid s
  | .waitAll qid => Sys2Proof.Machine.execWaitAll qid s
  | .waitAny qid => Sys2Proof.Machine.execWaitAny qid s
  | .waitEvaluation qid => Sys2Proof.Machine.execWaitEvaluation qid s
  | .graph qid => Sys2Proof.Machine.execGraph qid s
  | .graphNodeIssue replay node => Sys2Proof.Machine.execGraphNodeIssue replay node s
  | .timestamp qid => Sys2Proof.Machine.execTimestamp qid s
  | .nopPacket qid => Sys2Proof.Machine.execNopPacket qid s
  | .packetComplete n => Sys2Proof.Machine.execPacketComplete n s
  | .runListTurn => Sys2Proof.Machine.execRunListTurn s
  | .create value secure => Sys2Proof.Machine.execCreate value secure s
  | .kill value secure => Sys2Proof.Machine.execKill value secure s
  | .destroy value secure => Sys2Proof.Machine.execDestroy value secure s
  | .killg value secure => Sys2Proof.Machine.execKillg value secure s
  | .quantum value secure => Sys2Proof.Machine.execQuantum value secure s
  | .wdog value secure => Sys2Proof.Machine.execWdog value secure s
  | .readimg value secure => Sys2Proof.Machine.execReadimg value secure s
  | .treset value secure => Sys2Proof.Machine.execTreset value secure s
  | .query value secure => Sys2Proof.Machine.execQuery value secure s
  | .contextTeardownComplete asid => Sys2Proof.Machine.execContextTeardownComplete asid s
  | .info core => Sys2Proof.Machine.execInfo core s
  | .bankgrant core => Sys2Proof.Machine.execBankgrant core s
  | .bankfree core => Sys2Proof.Machine.execBankfree core s
  | .cellgrant core => Sys2Proof.Machine.execCellgrant core s
  | .cellfree core => Sys2Proof.Machine.execCellfree core s
  | .taggrant core => Sys2Proof.Machine.execTaggrant core s
  | .tagfree core => Sys2Proof.Machine.execTagfree core s
  | .yield core => Sys2Proof.Machine.execYield core s
  | .tinvGo asid value => Sys2Proof.Machine.execTinvGo asid value s
  | .trootWrite asid value => Sys2Proof.Machine.execTrootWrite asid value s
  | .invalidationComplete asid => Sys2Proof.Machine.execInvalidationComplete asid s
  | .priResponse core ok => Sys2Proof.Machine.execPriResponse core ok s
  | .priTimeout core => Sys2Proof.Machine.execPriTimeout core s
  | .atsInvalidate asid addr => Sys2Proof.Machine.execAtsInvalidate asid addr s
  | .linkResetRelease link => Sys2Proof.Machine.execLinkResetRelease link s
  | .linkTrainingResult link result => Sys2Proof.Machine.execLinkTrainingResult link result s
  | .laneFailure link => Sys2Proof.Machine.execLaneFailure link s
  | .retryTimeout flow sq => Sys2Proof.Machine.execRetryTimeout flow sq s
  | .operationArrival src target sq op => Sys2Proof.Machine.execOperationArrival src target sq op s
  | .ackArrival flow sq => Sys2Proof.Machine.execAckArrival flow sq s
  | .timeExchange die slew path => Sys2Proof.Machine.execTimeExchange die slew path s
  | .windowOpSend die => Sys2Proof.Machine.execWindowOpSend die s
  | .ringNeighbourConfirm ring prev next => Sys2Proof.Machine.execRingNeighbourConfirm ring prev next s
  | .ringGrant ring k mine => Sys2Proof.Machine.execRingGrant ring k mine s
  | .ringTransmit ring => Sys2Proof.Machine.execRingTransmit ring s
  | .ringArrival ring e => Sys2Proof.Machine.execRingArrival ring e s
  | .ringBreakNotice ring cause => Sys2Proof.Machine.execRingBreakNotice ring cause s
  | .powerOn boot => Sys2Proof.Machine.execPowerOn boot s
  | .warmReset boot => Sys2Proof.Machine.execWarmReset boot s
  | .rstctl value boot => Sys2Proof.Machine.execRstctl value boot s
  | .blockThrottle block => Sys2Proof.Machine.execBlockThrottle block s
  | .thermalStop block => Sys2Proof.Machine.execThermalStop block s
  | .powerRefresh blocks => Sys2Proof.Machine.execPowerRefresh blocks s
  | .pldmUpdate digest => Sys2Proof.Machine.execPldmUpdate digest s
  | .attestationRequest nonce => Sys2Proof.Machine.execAttestationRequest nonce s
  | .managementReset boot => Sys2Proof.Machine.execManagementReset boot s
  | .managementReading => Sys2Proof.Machine.execManagementReading s
  | .bar0NarrowWrite offset size => Sys2Proof.Machine.execBar0NarrowWrite offset size s
  | .bar2Access write offset data => Sys2Proof.Machine.execBar2Access write offset data s
  | .registerWrite offset value => Sys2Proof.Machine.execRegisterWrite offset value s
  | .undefInstruction tval => Sys2Proof.Machine.execUndefInstruction tval s
  | .instructionFetchFault cause addr => Sys2Proof.Machine.execInstructionFetchFault cause addr s
  | .debuggerResume core pc => Sys2Proof.Machine.execDebuggerResume core pc s
  | .firmwareTimer die => Sys2Proof.Machine.execFirmwareTimer die s
  | .atsTranslationCompletion asid addr dst => Sys2Proof.Machine.execAtsTranslationCompletion asid addr dst s
  | .inputPowerLoss => Sys2Proof.Machine.execInputPowerLoss s
  | .throttleRecovery block => Sys2Proof.Machine.execThrottleRecovery block s

end Sys2Proof.Machine
end

