-- ==== Sys2Proof/Machine/Fetch.lean ====
section
/-! DEFINITION. The fetch of an instruction (R72, R76, R92, R107): its words are read through the strand's view of
global memory, and lift no clock. -/

namespace Sys2Proof.Machine

/-- What a fetch finds: the bytes of an instruction, a fault at an address, or a wait for a translation. -/
inductive Fetched where
  | word (bs : List Byte)
  | fault (cause : Cause) (addr : Word)
  | wait (addr : Word)
  deriving DecidableEq, Repr

/-- The line of a word that was fetched before its issue (R107): home states from the latest control transfer on may
be taken, and of the strand's own records those before an index. -/
def State.earlyView (s : State) (core line limit : Nat) : Seen :=
  let t := s.strand core
  let tick := min s.now (max (min (t.floor line) t.ctlTick) (mget s.choice.view line s.now))
  let rs := sortRecs (s.covering line fun c r =>
    if c = core then decide (r.idx < limit) && t.requires core c r
    else decide (r.idx < (s.log c).pub) && t.requires core c r)
  rs.foldl (fun v x => v.apply line x.1 x.2) (s.homeAt line tick)

/-- Reads the four bytes of a word. -/
def State.readWord (s : State) (core pa : Nat) : Read :=
  match s.choice.stale with
  | none => s.readPlace core pa 4
  | some n =>
    if isGlobal pa then
      let v := s.earlyView core (pa / 64) ((s.strand core).ctlApp + n)
      ⟨v.bad.foldl (fun s t => s.reportTaint (pa / 64) t) s, lineBytes v.data (pa % 64) 4, [],
        s.lineError (pa / 64) (v.bad != [])⟩
    else s.readPlace core pa 4

/-- Fetches one word of a core at an address (R107, R470). -/
def State.fetchWord (s : State) (core : Nat) (pc : Word) : State × Fetched :=
  if 2 ^ 56 ≤ pc.toNat then (s, .fault cPROTECT pc)
  else
    match s.place core pc 4 .fetch with
    | .bad c => (s.touch core pc, .fault c pc)
    | .wait => (s.touch core pc, .wait pc)
    | .at pa =>
      let r := (s.touch core pc).readWord core pa
      match r.err with
      | some c => (r.s, .fault c pc)
      | none => (r.s, .word r.bytes)

/-- The major of a word as its bytes stand in memory is that of a PQ prefix (R75, R76). -/
def isPrefix (bs : List Byte) : Bool := (bs.getD 3 0).extractLsb' 2 6 == 0x27

/-- Fetches an instruction: one word, or both words of a PQ pair (R76, R92). -/
def State.fetch (s : State) (core : Nat) (pc : Word) : State × Fetched :=
  match s.fetchWord core pc with
  | (s, .word bs) =>
    if isPrefix bs then
      match s.fetchWord core (pc + 4) with
      | (s, .word cs) => (s, .word (bs ++ cs))
      | r => r
    else (s, .word bs)
  | r => r

/-- c.TVAL of an UNDEF (R116): the word, or both words of a PQ pair. -/
def undefTval (bs : List Byte) : Word := BitVec.ofNat 64 (bytesNat bs)

end Sys2Proof.Machine
end

