-- ==== Sys2Proof/Machine/Turn.lean ====
section
/-! DEFINITION. What moves in a step: a strand that issues its next word, a table that runs its next micro-order, or
an event of the rest of the package; the passing of ticks; and the placing of an instruction where the next step
fetches it. -/

namespace Sys2Proof.Machine

/-- A die whose strands and tables move: it is present, and its clocks run (R519, R523). -/
def State.dieMoves (s : State) (d : Nat) : Bool := s.present d && !s.stopped.contains (.die d)

/-- A strand of an Exiting group, other than the one that ends it, issues no further word; a HALT in progress goes on
(R393, R394). -/
def State.exitHolds (s : State) (core : Nat) : Bool :=
  match (s.strand core).group.bind (mfind s.groups) with
  | some x => x.st == .exiting && x.exiter != core && (s.strand core).st != .halting
  | none => false

/-- A strand issues a word: an instruction completes that did not wait, or begins to wait, to sleep or to halt; the
completion of one that waited is no further issue (R103, R443). -/
def issued (old new : Strand) : Bool :=
  old.wait.isNone && (new.wait.isSome || new.retired != old.retired || new.st == .sleeping || new.ended)

/-- What follows a word of the strand in focus: the progress of its group, and single step (R121, R443). -/
def State.afterWord (s : State) (old : Strand) : State :=
  let s := if issued old s.me then s.progressed s.cur else s
  s.singleStep s.cur old

/-- The same on the outcome of a meaning. -/
def afterExec (old : Strand) : Result State → Result State
  | .next s => .next (s.afterWord old)
  | r => r

/-- The strand in focus fetches, decodes and runs its next instruction (R92, R107). -/
noncomputable def State.issueWord (s : State) : Result State :=
  match s.fetch s.cur s.me.pc with
  | (s', .wait a) => .next (s'.stall (.translation a))
  | (s', .fault c a) => exec (.instructionFetchFault c a) s'
  | (s', .word bs) =>
    match decode bs with
    | .ok (i, _) => afterExec s.me (exec i s')
    | .error _ => exec (.undefInstruction (undefTval bs)) s'

/-- A trap that the strand in focus owes comes before its next word, once everything earlier is done (R67, R117). -/
def Strand.owes (t : Strand) : Bool := t.due.isSome || (!t.deferred.isEmpty && t.wait.isNone)

/-- One attempt of the strand in focus. -/
noncomputable def State.attempt (s : State) : Result State :=
  if s.me.owes then
    if s.me.drained then .next (s.takeDue s.cur) else .next (s.stall .drain)
  else s.issueWord

/-- The commands that a restore enqueued again do not all fit in a channel's queue and its weir yet (R115, R336,
R351). -/
def Strand.requeues (t : Strand) : Bool := t.chan.any (fun c => decide (9 < c.2.queue.length))

/-- The strand of a core moves (R104): a Placed strand starts; a Sleeping one only takes a deferred trap, past its
SLEEP (R117); and a restored one issues once its saved commands are back in their queues (R351). -/
noncomputable def State.moveStrand (s : State) (core : Nat) : Result State :=
  if Config.cores ≤ core then .fault .noSuchObject
  else
    let s : State := { s with cur := core }
    let t := s.me
    if !s.dieMoves (dieOf core) || s.exitHolds core || t.requeues then .next s
    else
      match t.st with
      | .running | .stalled | .halting => s.attempt
      | .placed => (s.setMe { t with st := .running }).attempt
      | .sleeping =>
        if !t.deferred.isEmpty && t.drained then
          .next ((s.setMe { t with st := .running, pc := t.pc + 4, deadline := none }).takeDue core)
        else .next s
      | .absent | .trapped | .saved | .done | .killed => .next s

/-- A table started a step, or ended one (R443). -/
def tblStarted (old new : Option Tbl) : Bool :=
  match old, new with
  | some a, some b => !a.inStep && (b.inStep || a.steps != b.steps)
  | _, _ => false

/-- A table moves: it runs the micro-order at its micro-PC, and halts past its last word (R219, R225). -/
noncomputable def State.moveTable (s : State) (core h : Nat) : Result State :=
  if Config.cores ≤ core || !isHandle h then .fault .noSuchObject
  else
    let s : State := { s with cur := core, curTable := h }
    match s.tbl core h with
    | none => .next s
    | some t =>
      if !s.dieMoves (dieOf core) then .next s
      else
        let r :=
          if t.words.length ≤ t.upc then exec .haltt s
          else
            match decodeOrder (decide (8 ≤ h)) (t.words.getD t.upc 0) (t.words.getD (t.upc + 1) 0) with
            | .ok i => exec i s
            | .error _ => .next s
        match r with
        | .next s' => .next (if tblStarted (some t) (s'.tbl core h) then s'.progressed core else s')
        | r => r

/-- A part of the step of a fragment's table goes ahead of the rest of it (R270, R271). -/
noncomputable def State.movePart (s : State) (core h n : Nat) : Result State :=
  if Config.cores ≤ core || 4 ≤ h then .fault .noSuchObject
  else
    let s : State := { s with cur := core, curTable := h }
    match s.tbl core h with
    | none => .next s
    | some t =>
      if !s.dieMoves (dieOf core) || t.words.length ≤ t.upc then .next s
      else
        let r :=
          match decodeOrder false (t.words.getD t.upc 0) (t.words.getD (t.upc + 1) 0) with
          | .ok (.wld shape ty _ gen col) => wldPart shape ty gen col n s
          | .ok (.mma shape ty _ gen src brow bcol) => mmaPart shape ty gen src brow bcol n s
          | .ok (.drain gen link ty base rows) => drainPart gen link ty base rows n s
          | _ => .next s
        match r with
        | .next s' => .next (if tblStarted (some t) (s'.tbl core h) then s'.progressed core else s')
        | r => r

/-- Host accesses to the BARs, which answer once boot has passed stage 7 (R517). -/
noncomputable def hostAccess : Instr → Bool
  | .doorbell _ _ | .queueEnable _ _ | .queueDisable _ _ | .tinvGo _ _ | .trootWrite _ _ | .rstctl _ _
  | .bar0NarrowWrite _ _ | .bar2Access _ _ _ | .registerWrite _ _ => true
  | .create _ sec | .kill _ sec | .destroy _ sec | .killg _ sec | .quantum _ sec | .wdog _ sec | .readimg _ sec
  | .treset _ sec | .query _ sec => !sec
  | _ => false

/-- Work of the queues, which a Dead host link stops (R476). -/
noncomputable def queueWork : Instr → Bool
  | .packetFetch | .launch _ | .feed _ | .feedRecordAppend _ | .retire _ | .copy _ | .signal _ | .waitAll _
  | .waitAny _ | .waitEvaluation _ | .graph _ | .graphNodeIssue _ _ | .timestamp _ | .nopPacket _ | .packetComplete _ => true
  | _ => false

/-- Commands at the management endpoint (R440, R525). -/
noncomputable def managed : Instr → Bool
  | .pldmUpdate _ | .managementReset _ | .attestationRequest _ | .managementReading => true
  | .create _ sec | .kill _ sec | .destroy _ sec | .killg _ sec | .quantum _ sec | .wdog _ sec | .readimg _ sec
  | .treset _ sec | .query _ sec => sec
  | _ => false

/-- A management command that arrives before stage 7 has ended is held until then (R525); a package that a failed basin
stopped answers a reading (R519). -/
noncomputable def State.holds (s : State) (i : Instr) : Bool :=
  s.powered && managed i && !(s.ready && !s.resetDue) && !(s.basinFailed && i == .managementReading)

/-- Events that may happen now: none without power but power-on, none but a reset while a warm reset is due, no host access
before the BARs answer or over a Dead host link, which stops the queues too (R124, R476, R517, R518). -/
noncomputable def State.mayHappen (s : State) (i : Instr) : Bool :=
  let hostDead := (s.link 48).st == .dead
  match i with
  | .powerOn _ => true
  | .inputPowerLoss => true
  | .warmReset _ => s.powered
  | .undefInstruction _ => false
  | .instructionFetchFault _ _ => false
  | _ => s.powered && !s.resetDue && (encode i).isEmpty && ((s.ready && !hostDead) || !hostAccess i) &&
      !(hostDead && queueWork i)

/-- The turn of the command at the head of a channel's share of the time-sorted buffer (R338): its T, with 0 counted as
its ready tick, then the tick of its entry, the core and the channel. -/
def State.beginTurn (s : State) (core ch : Nat) : List Nat :=
  match (s.chan core ch).bind (fun x => x.buf.head?) with
  | some c =>
    let ready := (s.ptime core).toNat - (s.now - c.ready)
    [2, if c.t = 0 then ready else c.t.toNat, c.ready, core, ch]
  | none => [2]

/-- The turn of an outstanding producer: FPOPs probe in ascending core number, behind the appends of the tick (R394);
BQ reads behind its completions (R380); and any other delivers before the strands issue, so that an FETEST of its tick counts
it as delivered (R133). -/
def State.producerTurn (s : State) (core n : Nat) : List Nat :=
  match ((s.strand core).pend[n]?).map Prod.src with
  | some (.fpop _ _ _ _ _) => [5, core]
  | some (.cell _ _) => [11]
  | _ => [6, 1]

/-- The turn of a host write (R435, R473): the clearing of EN, then doorbells and commands, then invalidations. -/
def registerTurn (offset : Nat) : Option (List Nat) :=
  match hostReg offset with
  | .control _ _ => some [0]
  | .bell _ _ | .command _ => some [17]
  | .translation _ _ => some [18]
  | _ => none

/-- A graph node that is a FEED: its appends come before the closes of their tick (R409). -/
def State.feedNode (s : State) (replay node : Nat) : Bool :=
  ((mfind s.replays replay).bind (fun r => r.nodes[node]?)).elim false (fun x => nodeField x 0 1 == 0x02)

/-- Where the rules say who goes first of what happens in one tick, a turn stands for it: of two movers of one tick,
none follows one with a greater turn (R133, R198, R218, R257, R312, R337, R338, R371, R380, R394, R409, R435, R455, R473,
R497, R516, R525). What has no turn may happen at any point of the tick. -/
def State.turn? (s : State) : Mover → Option (List Nat)
  | .strand core => some [7, core, 1]
  | .table _ _ | .part _ _ _ => some [8]
  | .grant _ _ => none
  | .event i =>
    match i with
    | .queueEnable _ _ | .queueDisable _ _ => some [0]
    | .publicationPointArrival _ _ | .ackArrival _ _ | .ringArrival _ _ => some [1]
    | .ringBreakNotice _ _ | .ringTransmit _ | .ringNeighbourConfirm _ _ _ | .retryTimeout _ _ | .laneFailure _
    | .linkTrainingResult _ _ => some [1, 1]
    | .commandBegin core ch => some (s.beginTurn core ch)
    | .queueHeadEntry core ch => some [3, core, ch]
    | .feed _ | .feedRecordAppend _ => some [4]
    | .producerDelivery core n => some (s.producerTurn core n)
    | .vectorCommandStart _ => some [6, 1]
    | .atomHomeExecute _ | .lineRecall _ => some [6]
    | .copyLineTransfer core _ _ => some [7, core, 0]
    | .tableCommandApply _ _ | .channelQueueApply _ _ => some [9]
    | .arrivalCounted _ | .childArrival _ _ | .tagComplete _ | .rootCompletionDelivery _ _ => some [10]
    | .reshapeComplete _ | .scrubComplete _ => some [12]
    | .allocatorArbitration _ => some [13]
    | .fleaseDeadline _ => some [14]
    | .groupPlacement _ | .preemptSave _ => some [15]
    | .watchdogExpiry _ => some [16]
    | .graphNodeIssue replay node => some (if s.feedNode replay node then [4] else [17])
    | .doorbell _ _ | .retire _ | .kill _ _ | .killg _ _ | .destroy _ _ | .treset _ _ | .readimg _ _ | .packetFetch
    | .packetComplete _ | .launch _ | .copy _ | .signal _ | .waitAll _ | .waitAny _ | .waitEvaluation _ | .graph _
    | .timestamp _ | .nopPacket _ | .queueResetComplete _ => some [17]
    | .strandRestore _ | .tinvGo _ _ | .invalidationComplete _ | .priResponse _ _ | .operationArrival _ _ _ _
    | .warmReset _ | .rstctl _ _ | .managementReset _ => some [18]
    | .pldmUpdate _ => some [19]
    | .registerWrite offset _ => registerTurn offset
    | _ => none

/-- One turn comes before another. -/
def turnLt : List Nat → List Nat → Bool
  | [], [] => false
  | [], _ :: _ => true
  | _ :: _, [] => false
  | a :: l, b :: m => decide (a < b) || (a == b && turnLt l m)

/-- What follows a strand's move: no second one in its tick (R103). -/
def turnAfter : List Nat → List Nat
  | [7, core, 1] => [7, core, 2]
  | t => t

/-- Management commands that were held run in their order once stage 7 has ended; a reset among them has merged with the one
that ran (R518, R525). -/
noncomputable def State.runHeld (s : State) : List Instr → Result State
  | [] => .next s
  | .managementReset _ :: l => s.runHeld l
  | i :: l =>
    match exec i s with
    | .next s => s.runHeld l
    | r => r

/-- What follows an event: the commands that it lets through (R525). -/
noncomputable def afterEvent : Result State → Result State
  | .next s => if s.ready && !s.resetDue then ({ s with pending := [] } : State).runHeld s.pending else .next s
  | r => r

/-- What moves does so. -/
noncomputable def State.moves (s : State) : Mover → Result State
  | .strand core => if s.powered && !s.resetDue then s.moveStrand core else .next s
  | .table core h => if s.powered && !s.resetDue then s.moveTable core h else .next s
  | .part core h n => if s.powered && !s.resetDue then s.movePart core h n else .next s
  | .event i =>
    if s.holds i then .next { s with pending := s.pending ++ [i] }
    else if s.mayHappen i then afterEvent (exec i s)
    else .next s
  | .grant core n =>
    if Config.cores ≤ core then .fault .noSuchObject
    else if s.powered && !s.resetDue then .next (s.grantWrite core n)
    else .next s

/-- Firmware kills what a move left to kill (R303). -/
def afterMove : Result State → Result State
  | .next s => .next s.killHeaders
  | r => r

/-- What moves does so in its turn of the tick, and does nothing once the tick is past it. The cells that the tick
changed settle before its arrivals and completions (R371). -/
noncomputable def State.move (s : State) (m : Mover) : Result State :=
  match s.turn? m with
  | none => afterMove (s.moves m)
  | some t =>
    if turnLt t s.phase then .next s
    else
      let s : State := { (if turnLt t [10] then s else s.settleCells) with phase := turnAfter t }
      afterMove (s.moves m)

/-- The ticks that c.PTIME of a die advances by, after what a slew holds back (R481). -/
def Die.advance (x : Die) (n : Nat) : Die :=
  { x with ptime := x.ptime + BitVec.ofNat 64 (n - x.lag), lag := x.lag - n }

/-- A kernel's next group has waited for room: it counts only while its queue is mapped (R385). -/
def State.waitTicks (s : State) (n : Nat) (k : Kernel) : Kernel :=
  let q := s.queue k.qid
  if k.waits && (q.st == .mapped || q.st == .held) then { k with waited := k.waited + n } else k

/-- What a tick does before it ends: changed cells settle (R371), the allocators arbitrate (R198), and the format
registers take their values (R278). -/
def State.endTick (s : State) : State :=
  ((List.range Config.dies).foldl State.arbitrated s.settleCells).applyFormats

/-- Ticks pass. With a new tick the turns start again, and a request may receive a reservation (R199). -/
def State.advance (s : State) (n : Nat) : State :=
  if n = 0 then s
  else
    let s := (s.endTick.spinCells n).passChans n
    let s : State := (List.range Config.dies).foldl (fun s d => s.setDie d ((s.die d).advance n)) s
    let ks := s.kernels.map (fun k => (k.1, s.waitTicks n k.2))
    let s : State := { s.holdTimers n with now := s.now + n, phase := [], kernels := ks }
    let s := (List.range Config.dies).foldl State.expireLeases s
    (List.range Config.dies).foldl State.reserve s

/-- The movers that a package without a schedule tries in turn, while the strand in focus does not run, for that strand
and what serves it. -/
noncomputable def State.helpers (s : State) : List Mover :=
  let c := s.cur
  let d := dieOf c
  let t := s.me
  let hs := [0, 1, 2, 3, 8, 9, 10, 11, 12, 13, 14, 15]
  let points := s.cores.flatMap fun k =>
    if k.2.log.points.isEmpty then [] else s.dieList.map (fun e => Instr.publicationPointArrival k.1 e)
  let press := s.cores.map (fun k => Instr.pressRecord k.1)
  let chans := t.chan.flatMap fun x =>
    [Instr.queueHeadEntry c x.1, .channelQueueApply c x.1, .commandBegin c x.1] ++
      x.2.runs.map (fun r => Instr.copyLineTransfer c x.1 r.cmd.seq) ++
      x.2.runs.map (fun r => Instr.commandComplete c x.1 r.cmd.seq) ++
      x.2.credits.map (fun r => Instr.multicastCredit c x.1 r)
  let own := (List.range t.pend.length).map (fun n => Instr.producerDelivery c n) ++
    [Instr.atomHomeExecute c, .vectorCommandStart c, .qldRead c, .reductionAccept (c / 4)] ++ points ++ press ++
    hs.map (fun h => Instr.tableCommandApply c h) ++ hs.map (fun h => Instr.tableRewind c h) ++ chans ++
    [Instr.allocatorArbitration d, .leaseGrant c, .fleaseDeadline c, .scrubComplete d, .reshapeComplete c,
      .windowOpSend d] ++
    (List.range s.arrivals.length).map (fun n => Instr.arrivalCounted n) ++
    s.compl.map (fun x => Instr.rootCompletionDelivery (x.1 / 512) (x.1 % 512)) ++
    [Instr.sleepDeadline c, .sleepWake c, .info c, .bankgrant c, .bankfree c, .cellgrant c, .cellfree c, .taggrant c,
      .tagfree c, .yield c, .trapDisposition c]
  (List.range t.writes.length).map (fun n => Mover.grant c n) ++ own.map Mover.event ++
    hs.map (fun h => Mover.table c h)

/-- The first mover that changes anything does so. -/
noncomputable def State.help (s : State) : List Mover → Result State
  | [] => .next s
  | m :: ms =>
    match s.move m with
    | .next s' => if s' = s then s.help ms else .next s'
    | r => r

/-- A step of a package without a schedule, once its tick has passed: the strand in focus moves; while it does not
run, one of the movers that serve it does, in every other tick (log 1). -/
noncomputable def State.unscheduled (s : State) : Result State :=
  if s.me.st == .running || s.me.st == .placed || s.now % 2 == 0 then s.move (.strand s.cur) else s.help s.helpers

/-- The place at which the strand in focus fetches its next word. -/
def State.fetchPlace (s : State) : Option Nat :=
  match s.place s.cur s.me.pc 4 .fetch with
  | .at pa => some pa
  | _ => none

/-- The table whose only micro-order is a given one, with the word that follows it. -/
def orderTable (w literal : IWord) : Tbl := { Tbl.start with st := .running, words := [w, literal] }
/-- A fragment of one cell with a table. -/
def orderFrag (t : Tbl) : Frag :=
  { row0 := 0, col0 := 0, lh := 0, lw := 0, seq := 0, die := 0, secure := false, suspect := false,
    reshaping := false, qid := 65536, tbl := t, bank := [], plane0 := [], plane1 := [], active1 := false, link := none,
    nv := false, ovf := false, iov := false, bad := [], proof := 0 }

/-- The state with an instruction where the next step fetches it: at the pc of the strand in focus, or, for a
micro-order, in a table of that strand, which then moves next. -/
noncomputable def State.placeWord (s : State) (nbits w : Nat) : State :=
  let v := w % 2 ^ nbits
  let first : IWord := BitVec.ofNat 32 v
  let second : IWord := BitVec.ofNat 32 (v / 2 ^ 32)
  let bs := wordBytes first ++ wordBytes second
  let t := orderTable first second
  match decode bs, decodeOrder false first second, decodeOrder true first second with
  | .error _, .ok _, _ =>
    { s.setMe { s.me with frag := mset s.me.frag 0 (orderFrag t) } with
      sched := [⟨1, .table s.cur 0, Choice.start⟩] }
  | .error _, .error _, .ok _ =>
    { s.setMe { s.me with chan := mset s.me.chan 0 { Chan.opened 0 0 none with tbl := t } } with
      sched := [⟨1, .table s.cur 8, Choice.start⟩] }
  | _, _, _ =>
    match s.fetchPlace with
    | some pa => { s with sched := [], mem := memPutList s.mem pa bs }
    | none => s

end Sys2Proof.Machine
end

