-- ==== Sys2Proof/Machine/Step.lean ====
section
/-! DEFINITION. One step of the package: the next entry of the schedule, or one tick of a package without one
(log 1). -/

namespace Sys2Proof.Machine

/-- One step. -/
noncomputable def step (s : State) : Host.Outcome State Fault Refusal :=
  match s.sched with
  | slot :: rest => ({ s.advance slot.ticks with sched := rest, choice := slot.choice } : State).move slot.mover
  | [] => ({ s.advance 1 with choice := Choice.start } : State).unscheduled

/-- The state with an instruction where the next step fetches it. -/
noncomputable def State.withFetchWord (s : State) (nbits w : Nat) : State := s.placeWord nbits w

end Sys2Proof.Machine
end

