-- ==== Sys2Proof/Safety.lean ====
section
/-! DEFINITION. The terms that the statements use: the results of the register operations in the spec's own words,
the next state of an instruction that only writes a register, what a frame keeps, and the invariants. -/

namespace Sys2Proof.Machine

/-- Every byte of memory reads as before. -/
def SameMemory (s t : State) : Prop := ∀ a, memByte t.mem a = memByte s.mem a

/-- Everything outside the strand in focus is as before: every other core, the log, clock, TLB and formats of its own
core, memory, and every other part of the package. -/
def OnlyStrand (s t : State) : Prop := t = s.setMe t.me

/-- Everything of a strand but its general registers and their full/empty states, its state, pc and counts is as
before: the vector and predicate registers, queues, flags, modes, trap registers, handles and accesses. -/
def KeepsRest (s t : Strand) : Prop :=
  t = { s with
    g := t.g, gfe := t.gfe, st := t.st, why := t.why, wait := t.wait, pc := t.pc, seq := t.seq, retired := t.retired,
    blocked := t.blocked, ctlTick := t.ctlTick, ctlApp := t.ctlApp, pend := t.pend }

/-- Every general register but those of a list reads as before, and is as full as before. -/
def KeepsRegs (l : List Nat) (s t : Strand) : Prop := ∀ n, n ∉ l → t.gval n = s.gval n ∧ t.gst n = s.gst n

/-- A source register whose value is there under both policies (R63, R65). -/
abbrev Strand.Ready (t : Strand) (r : Reg) : Prop := t.gst r.toNat = .full
/-- A destination register that no producer owes a value (R66). -/
abbrev Strand.Free (t : Strand) (r : Reg) : Prop := t.gst r.toNat ≠ .pending

/-- A source register whose read raises EMPTY_READ (R63, R65): Idle, or Pending under the trap policy. -/
def Strand.emptyAt (t : Strand) (x : Reg × Bool) : Bool :=
  t.gst x.1.toNat == .idle || (t.gst x.1.toNat == .pending && x.2)
/-- An instruction reads sources, each under its policy, and has a destination: the first source in this order whose
read traps raises EMPTY_READ with its number; with none, the first Pending source stalls the strand; with every source Full,
a Pending destination does (R63, R65, R66, R108). -/
def State.ReadsFirst (s : State) (i : Instr) (srcs : List (Reg × Bool)) (d : Option Reg) : Prop :=
  (∀ x, srcs.find? s.me.emptyAt = some x → exec i s = s.trap 0x02 (BitVec.ofNat 64 x.1.toNat)) ∧
  (srcs.find? s.me.emptyAt = none →
    (∀ x, srcs.find? (fun x => s.me.gst x.1.toNat == .pending) = some x →
      exec i s = .next (s.stall (.reg false x.1.toNat))) ∧
    ((∀ x ∈ srcs, s.me.Ready x.1) → ∀ r, d = some r → s.me.gst r.toNat = .pending →
      exec i s = .next (s.stall (.reg false r.toNat))))

/-- The invariant of memory: addresses strictly rising, and no entry that reads as an unlisted address does. -/
def State.Canonical (s : State) : Prop := Memory.wf s.mem = true

/-- The state after an instruction of the strand in focus that leaves it as `t` and goes on at the next word. -/
def State.doneWith (s : State) (t : Strand) : State := s.setMe (t.finish (s.me.pc + 4))
/-- The state after an instruction that only writes a register (R145). -/
def State.doneReg (s : State) (d : Reg) (x : Word) : State := s.doneWith (s.me.setG d.toNat x)
/-- The state after an instruction that marks a register Pending and starts its producer (R64). -/
def State.donePend (s : State) (d : Reg) (src : Src) : State :=
  s.doneWith { s.me.markG d.toNat .pending with pend := s.me.pend ++ [⟨.g d.toNat, src, s.me.seq, [], none⟩] }
/-- The state after a control transfer of the strand in focus, left as `t`, to an address (R107). -/
def State.doneJump (s : State) (t : Strand) (pc : Word) : State := s.setMe (s.fetchFrom s.cur (t.finish pc))

/-- An access of n bytes at an address passes its checks and reaches a place (R118, R259, R342). -/
abbrev State.Reaches (s : State) (a : Word) (n : Nat) (acc : Access) (pa : Nat) : Prop :=
  a.toNat % n = 0 ∧ s.place s.cur a n acc = .at pa ∧ pa % n = 0 ∧ s.me.guard a.toNat n = none

/-- No load of the strand that is outstanding meets some bytes (R283). -/
def Strand.NoLoadAt (t : Strand) (a n : Nat) : Prop :=
  ∀ p ∈ t.pend, ∀ pa addr sz, p.src = .load pa addr sz → overlap a n pa (sizeOf sz) = false

/-- Every byte outside a range reads as before. -/
def SameOutside (a n : Nat) (s t : State) : Prop :=
  ∀ b, b < a ∨ a + n ≤ b → memByte t.mem b = memByte s.mem b

/-- The checks of a vector word at send pass: its sources, its pair, and its destination (R64 to R66, R164). -/
abbrev Strand.MaySend (t : Strand) (op : VOp) (o : OpV) (p : Pre) : Prop :=
  (∀ c ∈ t.checkArgs [] (vargs op o p), c = .ok) ∧
    (usesPair op = true → t.Ready (pairRegs o).1 ∧ t.Ready (pairRegs o).2) ∧ t.destPending op o = none

/-- The state after a vector word of some words has been sent as a command (R111, R112, R160). -/
def State.sent (s : State) (op : VOp) (o : OpV) (p : Pre) (pieces : List (Nat × Nat)) (len : Nat) : State :=
  s.setMe ({ s.me.markDest op o with
    vcq := s.me.vcq ++ [(⟨s.me.seq, op, o, p, s.me.vrb, s.me.gval (pairRegs o).1.toNat, s.me.gval (pairRegs o).2.toNat,
      pieces⟩ : VCmd)] }.finish (s.me.pc + BitVec.ofNat 64 (4 * len)))

/-- A vector word of one word as the strand in focus sends it (R112). -/
def State.vcmd (s : State) (op : VOp) (o : OpV) : VCmd :=
  ⟨s.me.seq, op, o, Pre.none, s.me.vrb, s.me.gval (pairRegs o).1.toNat, s.me.gval (pairRegs o).2.toNat, []⟩
/-- What the vector sources of a word hold, and the strand after its pops (R58, R165). -/
def Strand.taken (t : Strand) (op : VOp) (o : OpV) : Taken :=
  (t.takeAll t.vrb (vargs op o Pre.none)).getD ⟨t, [], false⟩
/-- No vector register is owed a value or in error, and every entry of the operand queues is filled (R160). -/
abbrev Strand.AllRead (t : Strand) : Prop :=
  (∀ p ∈ t.pend, ∃ n, p.dst = .g n) ∧ t.lanesDue = false ∧ t.vbad = [] ∧ ∀ q ∈ t.vq, ∀ e ∈ q.2, e.fe = .full

/-- A vector source of a command: a register through its rotation base, or the k-th entry of an operand queue (R58,
R60). -/
def Strand.operand (t : Strand) (base : BitVec 4) (r : Reg) (k : Nat) : VReg :=
  if r.toNat < 28 then t.vval (physV base r.toNat) else (((mget t.vq (r.toNat - 28) [])[k]?).map QEntry.data).getD 0
/-- That source is there: a queue holds its entry. -/
abbrev Strand.Holds (t : Strand) (r : Reg) (k : Nat) : Prop :=
  r.toNat < 28 ∨ k < (mget t.vq (r.toNat - 28) []).length
/-- The place in its queue of the entry that vb pops: the second where va pops the same queue (R58). -/
def secondPop (o : OpV) : Nat := if o.va = o.vb then 1 else 0
/-- The lanes that are active under a predicate (R57, R165). -/
def activeAt (k : PReg) (w : Nat) : List Nat := (List.range (4096 / w)).filter (activeLane k w)
/-- The head of a core's vector command queue can start, and its sources can be read (R160). -/
abbrev State.HeadReady (s : State) (core : Nat) (c : VCmd) (rest : List VCmd) : Prop :=
  core < 384 ∧ (s.strand core).vcq = c :: rest ∧ (s.strand core).AllRead ∧ (s.strand core).Holds c.o.va 0 ∧
    (s.strand core).Holds c.o.vb (secondPop c.o)
/-- Starting the head leaves the rest of the queue, memory and the general registers (R160), and sets flags (R40, R43). -/
abbrev State.Starts (s : State) (core : Nat) (rest : List VCmd) (f : Flags) (t : State) : Prop :=
  exec (.vectorCommandStart core) s = .next t ∧ (t.strand core).vcq = rest ∧
    (t.strand core).fflags = (s.strand core).fflags ||| f ∧ SameMemory s t ∧ KeepsRegs [] (s.strand core) (t.strand core)
/-- A command's destination at its start: a register that it writes at once, or the producer that owes it (R64). -/
def Strand.writesV (u t : Strand) (c : VCmd) (pend : Bool) (v : VReg) : Prop :=
  let d := physV c.base c.o.vd.toNat
  if pend then t.pend = u.pend ++ [⟨.v [d], .vec [v], c.seq, [], some c.op⟩] ∧ ∀ n, t.vval n = u.vval n
  else t.pend = u.pend ∧ t.vval d = v ∧ ∀ n, n ≠ d → t.vval n = u.vval n

/-- No load of the strand is outstanding. -/
def Strand.NoLoads (t : Strand) : Prop := ∀ p ∈ t.pend, ∀ pa addr sz, p.src ≠ .load pa addr sz

/-- Places outside global and barrier memory, each within one line. -/
abbrev InScratch (ps : List (Nat × Nat)) : Prop := ∀ p ∈ ps, 2 ^ 61 ≤ p.1 ∧ p.1 < 2 ^ 64 ∧ p.1 % 64 + p.2 ≤ 64

/-- The state with a command at the end of the queue of a table of the strand in focus (R249). -/
def State.withCommand (s : State) (h : Nat) (c : TCmd) : State :=
  if h < 4 then
    match s.tbl s.cur h with
    | some t => s.setTbl s.cur h { t with cmdq := t.cmdq ++ [c] }
    | none => s
  else s.pushQ s.cur (h - 8) (.tbl c)
/-- The state after an instruction that queues a command for a table. -/
def State.doneCommand (s : State) (h : Nat) (c : TCmd) : State := (s.withCommand h c).doneWith (s.withCommand h c).me

/-- The matrix table in focus starts a step of its fragment (R220, R225). -/
abbrev State.StepsFrag (s : State) (f : Frag) : Prop :=
  s.curTable < 4 ∧ mfind s.me.frag s.curTable = some f ∧ s.steps f.tbl = true
/-- A table in focus, of either kind, starts a step. -/
abbrev State.StepsTbl (s : State) (t : Tbl) : Prop := s.tbl s.cur s.curTable = some t ∧ s.steps t = true
/-- Runs of bytes that a step may use (R193, R223, R273, R342): in its window, in banks whose format lets its type pass,
and under no channel's guard. -/
def State.SpansPass (s : State) (f : Frag) (l : List Span) : Prop :=
  ∀ x ∈ l, f.inWindow x.a x.n = true ∧ (∀ b ∈ banksOf x.a x.n, formatPasses (s.format (.inr b)) x.ty = true) ∧
    s.me.guard x.a x.n = none
/-- Rows of n bytes of a type that a step may use (R118, R223). -/
def State.RowsPass (s : State) (f : Frag) (ty n : Nat) (starts : List Nat) : Prop :=
  (∀ a ∈ starts, a % rowAlign ty = 0) ∧ s.SpansPass f (starts.map (fun a => ⟨a, n, ty⟩))
/-- Rows of n bytes of window memory that hold no failed sector and, for FP4, segments that are well formed (R28,
R470). -/
def State.RowsRead (s : State) (ty k : Nat) (starts : List Nat) : Prop :=
  ∀ a ∈ starts, (∀ l ∈ linesOf (sharedPa a) (rowBytes ty k), mfind s.failed l = none) ∧
    (elements ty k (s.winBytes a (rowBytes ty k))).isSome = true
/-- The state in which a step of the table in focus reads its window: the writes of its earlier steps are performed
(R225). -/
def State.windowed (s : State) : State := s.performTable s.cur s.curTable
/-- The state after a step that leaves its fragment as `f` and goes on at the next word. -/
def State.stepsTo (s : State) (f : Frag) : State :=
  s.setFrag s.cur s.curTable { f with tbl := f.tbl.stepped (f.tbl.upc + 1) }

/-- The moment from which the strand in focus may fetch words starts again (R107). -/
def State.refetched (s : State) : State := s.doneWith (s.fetchFrom s.cur s.me)

/-- An address names the barrier cell or route tag of a line, and the strand in focus may name it (R364, R373). -/
def State.NamesCell (s : State) (a : Word) (line : Nat) : Prop :=
  a.toNat = 0xFF30000000000000 + 64 * line ∧ line < 3080 ∧ (line < 3072 → s.present (line / 512) = true) ∧
    (s.me.mode = true ∨ ∃ i, s.me.asid = some i ∧ s.ownsLine i line = true)

/-- The next generation of a cell takes the mask that it has, and some arrival (R366, R367, R380). -/
def State.KeepsMask (s : State) (line : Nat) : Prop :=
  (s.cell line).nmv = false ∧ (s.cell line).setAt ≠ s.now + 1 ∧ (s.cell line).exp ≠ 0

/-! The results of R147, R148, R151, R152 and R156 at a width, on numbers. -/

namespace Said

/-- An operation at any width. -/
abbrev Op := (n : Nat) → BitVec n → BitVec n → BitVec n

def add : Op := fun n x y => BitVec.ofNat n (x.toNat + y.toNat)
def sub : Op := fun n x y => BitVec.ofInt n ((x.toNat : Int) - y.toNat)
def and : Op := fun _ x y => x &&& y
def or : Op := fun _ x y => x ||| y
def xor : Op := fun _ x y => x ^^^ y
def andn : Op := fun _ x y => x &&& ~~~y
def shl : Op := fun n x y => BitVec.ofNat n (x.toNat * 2 ^ (y.toNat % n))
def shr : Op := fun n x y => BitVec.ofNat n (x.toNat / 2 ^ (y.toNat % n))
def sar : Op := fun n x y => BitVec.ofInt n (x.toInt / (2 ^ (y.toNat % n) : Nat))
def rol : Op := fun n x y => BitVec.ofNat n (x.toNat * 2 ^ (y.toNat % n) ||| x.toNat / 2 ^ (n - y.toNat % n))
def ror : Op := fun n x y => BitVec.ofNat n (x.toNat / 2 ^ (y.toNat % n) ||| x.toNat * 2 ^ (n - y.toNat % n))
def min : Op := fun _ x y => if x.toInt ≤ y.toInt then x else y
def max : Op := fun _ x y => if x.toInt ≤ y.toInt then y else x
def minn : Op := fun _ x y => if x.toNat ≤ y.toNat then x else y
def maxn : Op := fun _ x y => if x.toNat ≤ y.toNat then y else x
def mul : Op := fun n x y => BitVec.ofNat n (x.toNat * y.toNat)
/-- Bits [2n−1:n] of the product of the sign-extended operands (R151). -/
def mulh : Op := fun n x y => ((x.signExtend (2 * n)) * (y.signExtend (2 * n))).extractLsb' n n
/-- Bits [2n−1:n] of the product of the operands read as unsigned (R151). -/
def mulhn : Op := fun n x y => ((x.setWidth (2 * n)) * (y.setWidth (2 * n))).extractLsb' n n
/-- The cases of R152. -/
def div : Op := fun n x y =>
  if y.toNat = 0 then BitVec.ofInt n (-1) else BitVec.ofInt n (x.toInt.tdiv y.toInt)
def divn : Op := fun n x y => if y.toNat = 0 then BitVec.ofInt n (-1) else BitVec.ofNat n (x.toNat / y.toNat)
def rem : Op := fun n x y =>
  if y.toNat = 0 then x else BitVec.ofInt n (x.toInt - x.toInt.tdiv y.toInt * y.toInt)
def remn : Op := fun n x y => if y.toNat = 0 then x else BitVec.ofNat n (x.toNat % y.toNat)
def slt (n : Nat) (x y : BitVec n) : Bool := decide (x.toInt < y.toInt)
def sltn (n : Nat) (x y : BitVec n) : Bool := decide (x.toNat < y.toNat)
def seq (n : Nat) (x y : BitVec n) : Bool := decide (x.toNat = y.toNat)
def sne (n : Nat) (x y : BitVec n) : Bool := decide (x.toNat ≠ y.toNat)

/-- A .w form: on bits [31:0] of each source, the 32-bit result sign-extended (R146). -/
def low (f : Op) (x y : Word) : Word := (f 32 (x.setWidth 32) (y.setWidth 32)).signExtend 64

/-- The operations of R147 and mul (R151): the 64-bit form, the .w form, and the result. -/
def twoSource : List ((OpA → Instr) × (OpA → Instr) × Op) :=
  [(.add, .addW, add), (.sub, .subW, sub), (.and, .andW, and), (.or, .orW, or), (.xor, .xorW, xor),
    (.andn, .andnW, andn), (.shl, .shlW, shl), (.shr, .shrW, shr), (.sar, .sarW, sar), (.rol, .rolW, rol),
    (.ror, .rorW, ror), (.min, .minW, min), (.max, .maxW, max), (.minn, .minnW, minn), (.maxn, .maxnW, maxn),
    (.mul, .mulW, mul)]
/-- The high multiplies of R151. -/
def highProduct : List ((OpA → Instr) × (OpA → Instr) × Op) := [(.mulh, .mulhW, mulh), (.mulhn, .mulhnW, mulhn)]
/-- The divisions of R152. -/
def divisions : List ((OpA → Instr) × (OpA → Instr) × Op) :=
  [(.div, .divW, div), (.divn, .divnW, divn), (.rem, .remW, rem), (.remn, .remnW, remn)]
/-- The compares of R156. -/
def compares : List ((OpA → Instr) × (OpA → Instr) × ((n : Nat) → BitVec n → BitVec n → Bool)) :=
  [(.slt, .sltW, slt), (.sltn, .sltnW, sltn), (.seq, .seqW, seq), (.sne, .sneW, sne)]
/-- The forms with a 13-bit immediate (R149): each computes as its register counterpart does. -/
def immediates : List ((OpI13 → Instr) × (Word → Word → Word)) :=
  [(.andi, and 64), (.ori, or 64), (.xori, xor 64), (.andni, andn 64), (.mini, min 64), (.maxi, max 64),
    (.minni, minn 64), (.maxni, maxn 64), (.slti, fun x y => if slt 64 x y then 1 else 0),
    (.sltni, fun x y => if sltn 64 x y then 1 else 0), (.seqi, fun x y => if seq 64 x y then 1 else 0),
    (.snei, fun x y => if sne 64 x y then 1 else 0)]
/-- The shift immediates (R149). -/
def shiftImmediates : List ((OpSh → Instr) × (OpSh → Instr) × Op) :=
  [(.shli, .shliW, shl), (.shri, .shriW, shr), (.sari, .sariW, sar), (.roli, .roliW, rol), (.rori, .roriW, ror)]
/-- The conditional branches (R127). -/
def branches : List ((OpB → Instr) × (Word → Word → Bool)) :=
  [(.beq, seq 64), (.bne, sne 64), (.blt, slt 64), (.bge, fun x y => !slt 64 x y), (.bltn, sltn 64),
    (.bgen, fun x y => !sltn 64 x y)]

/-- r is the number of 0 bits above the highest 1 bit of x (R148). -/
def IsClz (n : Nat) (x r : BitVec n) : Prop :=
  ∃ k, r = BitVec.ofNat n k ∧ k ≤ n ∧ (∀ i, n - k ≤ i → x.getLsbD i = false) ∧
    (k < n → x.getLsbD (n - 1 - k) = true)
/-- r is the number of 0 bits below the lowest 1 bit of x, or the width (R148). -/
def IsCtz (n : Nat) (x r : BitVec n) : Prop :=
  ∃ k, r = BitVec.ofNat n k ∧ k ≤ n ∧ (∀ i, i < k → x.getLsbD i = false) ∧ (k < n → x.getLsbD k = true)
/-- r is the number of 1 bits of x (R148). -/
def IsPopc (n : Nat) (x r : BitVec n) : Prop :=
  r = BitVec.ofNat n ((List.range n).filter (fun i => x.getLsbD i)).length
/-- r has the bytes of x in reverse order (R148). -/
def IsBswap (n : Nat) (x r : BitVec n) : Prop :=
  ∀ i, i < n / 8 → r.extractLsb' (8 * (n / 8 - 1 - i)) 8 = x.extractLsb' (8 * i) 8
/-- The unary operations of R148: the 64-bit form, the .w form, and what the result is. -/
def unary : List ((OpA → Instr) × (OpA → Instr) × ((n : Nat) → BitVec n → BitVec n → Prop)) :=
  [(.clz, .clzW, IsClz), (.ctz, .ctzW, IsCtz), (.popc, .popcW, IsPopc), (.bswap, .bswapW, IsBswap)]

/-- r is the field of x at an offset with a raw width (R155): bits past bit 63 read as zero, and above the field
stands its top bit, or zero. -/
def Extracts (signed : Bool) (x : Word) (o raw : Nat) (r : Word) : Prop :=
  let w := Nat.min raw 64
  ∀ i, i < 64 → r.getLsbD i = if i < w then x.getLsbD (o + i) else signed && decide (0 < w) && x.getLsbD (o + w - 1)
/-- r is dst with the low bits of src at an offset with a raw width (R155): bits past bit 63 are dropped. -/
def Inserts (dst src : Word) (o raw : Nat) (r : Word) : Prop :=
  ∀ i, i < 64 → r.getLsbD i = if o ≤ i ∧ i < o + Nat.min raw 64 then src.getLsbD (i - o) else dst.getLsbD i

/-- The value that an LD extends by its size code (R280). -/
def loaded (sz : BitVec 3) (x : Nat) : Word :=
  if 4 ≤ sz.toNat then (BitVec.ofNat (8 * sizeOf sz) x).signExtend 64 else BitVec.ofNat 64 x
/-- The values of R328 for the integer types, by operation code: the signed and the unsigned row. -/
def atomics : List (Nat × Op × Op) :=
  [(0, add, add), (1, min, minn), (2, max, maxn), (3, and, and), (4, or, or), (5, xor, xor)]

/-- The field of a word from bit lo, of w bits. -/
def field (x : Word) (lo w : Nat) : Nat := x.toNat / 2 ^ lo % 2 ^ w

/-- The fields of LOCQ for an address (R135), by its region; a global address of a strand in user mode is named by the
leaf that its translation finds, and one of a strand in F mode is device-physical (log 7). -/
def Located (s : State) (core : Nat) (a : Word) (tier home : Nat) (barr : Bool) : Prop :=
  let x := a.toNat
  let o := x % 2 ^ 52
  let t := s.strand core
  let p := core / 4 * 4 + o / 2 ^ 19
  (x / 2 ^ 52 = 0xFF0 → o < 2 ^ 21 → tier = 0 ∧ home = core / 64 ∧ barr = false) ∧
  (x / 2 ^ 52 = 0xFF1 → o < 2 ^ 21 →
    t.mode = true ∨ core = p ∨ ((s.strand p).here = true ∧ t.asid = (s.strand p).asid) →
    tier = 1 ∧ home = core / 64 ∧ barr = false) ∧
  (x / 2 ^ 52 = 0xFF2 → o < Config.sharedBytes → t.mode = true ∨ mfind s.banks (o / 2 ^ 20) = t.asid →
    tier = (if s.present (o / 2 ^ 20 % 6) then 2 else 6) ∧ home = o / 2 ^ 20 % 6 ∧ barr = false) ∧
  (x / 2 ^ 52 = 0xFF3 → o < Config.barrierBytes →
    tier = 7 ∧ home = (if o / 64 < 3072 then o / 64 / 512 else 7) ∧ barr = true) ∧
  (∀ i l, x < 2 ^ 56 → t.mode = false → t.asid = some i → s.look core i x = .leaf l → l.va ≤ x → x < l.va + l.size →
    tierRange l.tier l.pa l.size = true → l.sec = false ∨ s.secureCore core = true →
    let pa := l.pa + (x - l.va)
    (l.tier < 2 → l.tier = 1 ∨ s.reservedPage l.pa l.size = false →
      tier = (if s.present (homeDie pa) then 3 + l.tier else 6) ∧ home = homeDie pa ∧ barr = false) ∧
    (l.tier = 2 → tier = 5 ∧ home = 7 ∧ barr = false) ∧
    (l.tier = 3 → tier = 7 ∧ home = (if pa / 64 < 3072 then pa / 64 / 512 else 7) ∧ barr = true)) ∧
  (x < 2 ^ 56 → t.mode = true → tierRange 0 x 1 = true ∨ tierRange 1 x 1 = true →
    tier = (if s.present (homeDie x) then if x < 2 ^ 40 then 3 else 4 else 6) ∧ home = homeDie x ∧ barr = false) ∧
  ((2 ^ 56 ≤ x ∧ x / 2 ^ 52 < 0xFF0) ∨ 0xFF4 ≤ x / 2 ^ 52 ∨
    (x / 2 ^ 52 = 0xFF0 ∧ 2 ^ 21 ≤ o) ∨
    (x / 2 ^ 52 = 0xFF1 ∧ (2 ^ 21 ≤ o ∨
      (t.mode = false ∧ core ≠ p ∧ ¬ ((s.strand p).here = true ∧ t.asid = (s.strand p).asid)))) ∨
    (x / 2 ^ 52 = 0xFF2 ∧ (Config.sharedBytes ≤ o ∨ (t.mode = false ∧ mfind s.banks (o / 2 ^ 20) ≠ t.asid))) ∨
    (x / 2 ^ 52 = 0xFF3 ∧ Config.barrierBytes ≤ o) ∨
    (x < 2 ^ 56 ∧ t.mode = true ∧ tierRange 0 x 1 = false ∧ tierRange 1 x 1 = false) ∨
    (x < 2 ^ 56 ∧ t.mode = false ∧ ∃ i, t.asid = some i ∧ ((∀ l, s.look core i x ≠ .leaf l) ∨ ∃ l, s.look core i x = .leaf l ∧
      ((l.sec = true ∧ s.secureCore core = false) ∨ (l.tier = 0 ∧ s.reservedPage l.pa l.size = true)))) →
    tier = 7 ∧ home = 7 ∧ barr = false)

/-- The word of FQUERY for the handle of a fragment (R191, R217). -/
def FragWord (t : Strand) (h : Nat) (f : Frag) (r : Word) : Prop :=
  field r 0 4 = f.row0 ∧ field r 4 4 = f.col0 ∧ field r 8 4 = f.lh ∧ field r 12 4 = f.lw ∧ field r 16 4 = f.seq ∧
  field r 20 3 = f.die ∧ field r 23 1 = f.secure.toNat ∧ field r 24 8 = 0 ∧
  field r 32 4 = (if f.reshaping then 3 else if f.tbl.st = .running then 2 else 1) ∧
  field r 36 1 = f.suspect.toNat ∧ field r 37 3 = 0 ∧ field r 46 2 = 0 ∧ field r 54 10 = 0 ∧
  (f.link = none → field r 40 1 = 0 ∧ field r 42 2 = 0 ∧ field r 48 6 = 0) ∧
  (∀ l, f.link = some l → field r 40 1 = 1 ∧ field r 42 2 = l.dst ∧ field r 48 6 = Nat.min 32 l.entries.length) ∧
  ((∀ g ∈ t.frag, ∀ l, g.2.link = some l → l.dst ≠ h) → field r 41 1 = 0 ∧ field r 44 2 = 0) ∧
  ∀ g ∈ t.frag, (∀ l, g.2.link = some l → l.dst = h) → g.2.link.isSome = true →
    (∀ k ∈ t.frag, ∀ l, k.2.link = some l → l.dst = h → k = g) → field r 41 1 = 1 ∧ field r 44 2 = g.1

/-- The words of TSTAT for a table (R256): the selector, and the word. FLAGS hold NV, OF and IOV from bit 43 down (log
21). -/
def TableWord (s : State) (core h : Nat) (t : Tbl) (q : Nat) (r : Word) : Prop :=
  (q = 0 ∨ q = 8 →
    field r 0 8 = t.words.length - 1 ∧ field r 8 8 = t.upc ∧
    (∀ e ∈ [(TblSt.unloaded, 0), (.loaded, 1), (.running, 2), (.stopped, 3), (.halted, 4), (.faulted, 5)],
      t.st = e.1 → field r 16 4 = e.2) ∧
    field r 20 4 = 0 ∧ field r 24 8 = t.ck.upc ∧ field r 32 8 = t.cause.toNat ∧
    field r 40 1 = (if h < 4 then 0 else 1) ∧
    (4 ≤ h → field r 41 3 = 0) ∧
    (h < 4 → ∀ f, mfind (s.strand core).frag h = some f →
      field r 43 1 = f.nv.toNat ∧ field r 42 1 = f.ovf.toNat ∧ field r 41 1 = f.iov.toNat) ∧
    field r 44 3 = 0 ∧ field r 47 1 = t.rv.toNat ∧ field r 48 8 = t.restart ∧ field r 56 8 = 0) ∧
  (q = 1 → ∀ i, i < 4 → field r (16 * i) 16 = t.idx.getD i 0) ∧
  (q = 2 → field r 0 16 = t.idx.getD 4 0 ∧ field r 16 16 = t.idx.getD 5 0 ∧ field r 32 32 = 0) ∧
  (q = 3 → field r 0 48 = t.eseq ∧ field r 48 16 = 0) ∧
  (q = 4 → field r 0 48 = t.ehw ∧ field r 48 16 = 0)

/-- The integer that an element stands for (R171): signed but for n8. -/
def signed (w a : Nat) : Int := if a < 2 ^ (w - 1) then (a : Int) else (a : Int) - 2 ^ w
def intOf (ty : BitVec 3) (a : Nat) : Int := if ty = 1 then (a : Int) else signed (tyWidth ty) a
/-- An exact integer at a width: wrapped, or clamped to the range of its type with SAT (R171). -/
def wrapTo (w : Nat) (v : Int) : Nat := (v % (2 ^ w : Nat)).toNat
def fit (ty : BitVec 3) (sat : Bool) (v : Int) : Nat × Flags :=
  let w := tyWidth ty
  let lo : Int := if ty = 1 then 0 else -2 ^ (w - 1)
  let hi : Int := if ty = 1 then 2 ^ w - 1 else 2 ^ (w - 1) - 1
  if sat = true ∧ v < lo then (wrapTo w lo, fSAT) else if sat = true ∧ hi < v then (wrapTo w hi, fSAT) else (wrapTo w v, 0)

/-- The result and flags of a lane: from the type, the rounding in force, the pair, the elements of va, vb and vd, and the
number of the lane. -/
abbrev Lane := BitVec 3 → Rnd → Word → Word → (Nat → Nat) → (Nat → Nat) → (Nat → Nat) → Nat → Nat × Flags

/-- The integer functions (R171). -/
def intLanes : List (VOp × Lane) :=
  [(.vadd, fun ty r _ _ a b _ i => fit ty r.sat (intOf ty (a i) + intOf ty (b i))),
    (.vsub, fun ty r _ _ a b _ i => fit ty r.sat (intOf ty (a i) - intOf ty (b i))),
    (.vmul, fun ty r _ _ a b _ i => fit ty r.sat (intOf ty (a i) * intOf ty (b i))),
    (.vmulh, fun ty _ _ _ a b _ i => (wrapTo (tyWidth ty) (intOf ty (a i) * intOf ty (b i) / (2 ^ tyWidth ty : Nat)), 0)),
    (.vimin, fun ty _ _ _ a b _ i =>
      (wrapTo (tyWidth ty) (if intOf ty (a i) ≤ intOf ty (b i) then intOf ty (a i) else intOf ty (b i)), 0)),
    (.vimax, fun ty _ _ _ a b _ i =>
      (wrapTo (tyWidth ty) (if intOf ty (a i) ≤ intOf ty (b i) then intOf ty (b i) else intOf ty (a i)), 0)),
    (.vand, fun _ _ _ _ a b _ i => (a i &&& b i, 0)), (.vor, fun _ _ _ _ a b _ i => (a i ||| b i, 0)),
    (.vxor, fun _ _ _ _ a b _ i => (a i ^^^ b i, 0)),
    (.vshl, fun ty _ _ _ a b _ i => (a i * 2 ^ (b i % tyWidth ty) % 2 ^ tyWidth ty, 0)),
    (.vshr, fun ty _ _ _ a b _ i => (a i / 2 ^ (b i % tyWidth ty), 0)),
    (.vsar, fun ty _ _ _ a b _ i =>
      (wrapTo (tyWidth ty) (signed (tyWidth ty) (a i) / (2 ^ (b i % tyWidth ty) : Nat)), 0)),
    (.vabs, fun ty r _ _ a _ _ i => fit ty r.sat (if intOf ty (a i) < 0 then -intOf ty (a i) else intOf ty (a i)))]
/-- A value rounded into the type of a lane (R34, R35). -/
def rounded (ty : BitVec 3) (r : Rnd) (i : Nat) (x : Val × Flags) : Nat × Flags :=
  let q := roundVal (fmtOf ty.toNat) r.rm r.sat (srBits r.sr i) x.1
  (q.1, x.2 ||| q.2)
/-- An exact minimum or maximum of R51 as a code. -/
def exactly (ty : BitVec 3) (x : Val × Flags) : Nat × Flags := ((roundVal (fmtOf ty.toNat) 0 false 0 x.1).1, x.2)
/-- The floating-point functions (R172). -/
def floatLanes : List (VOp × Lane) :=
  [(.vfadd, fun ty r _ _ a b _ i => rounded ty r i (addVal r.rm (valOf (fmtOf ty.toNat) (a i)) (valOf (fmtOf ty.toNat) (b i)))),
    (.vfsub, fun ty r _ _ a b _ i =>
      rounded ty r i (addVal r.rm (valOf (fmtOf ty.toNat) (a i)) (valOf (fmtOf ty.toNat) (b i)).flip)),
    (.vfmul, fun ty r _ _ a b _ i => rounded ty r i (mulVal (valOf (fmtOf ty.toNat) (a i)) (valOf (fmtOf ty.toNat) (b i)))),
    (.vfma, fun ty r _ _ a b d i => rounded ty r i
      (fmaVal r.rm false (valOf (fmtOf ty.toNat) (d i)) (valOf (fmtOf ty.toNat) (a i)) (valOf (fmtOf ty.toNat) (b i)))),
    (.vfms, fun ty r _ _ a b d i => rounded ty r i
      (fmaVal r.rm true (valOf (fmtOf ty.toNat) (d i)) (valOf (fmtOf ty.toNat) (a i)) (valOf (fmtOf ty.toNat) (b i)))),
    (.vdiv, fun ty r _ _ a b _ i => rounded ty r i (divVal (valOf (fmtOf ty.toNat) (a i)) (valOf (fmtOf ty.toNat) (b i)))),
    (.vsqrt, fun ty r _ _ a _ _ i => rounded ty r i (sqrtVal (valOf (fmtOf ty.toNat) (a i)))),
    (.vmin, fun ty _ _ _ a b _ i => exactly ty (fminmax false false (valOf (fmtOf ty.toNat) (a i)) (valOf (fmtOf ty.toNat) (b i)))),
    (.vmax, fun ty _ _ _ a b _ i => exactly ty (fminmax true false (valOf (fmtOf ty.toNat) (a i)) (valOf (fmtOf ty.toNat) (b i)))),
    (.vminn, fun ty _ _ _ a b _ i => exactly ty (fminmax false true (valOf (fmtOf ty.toNat) (a i)) (valOf (fmtOf ty.toNat) (b i)))),
    (.vmaxn, fun ty _ _ _ a b _ i => exactly ty (fminmax true true (valOf (fmtOf ty.toNat) (a i)) (valOf (fmtOf ty.toNat) (b i)))),
    (.vfabs, fun ty _ _ _ a _ _ i =>
      let x := valOf (fmtOf ty.toNat) (a i)
      if x.isNan then ((fmtOf ty.toNat).qnan, if x.isSnan then fNV else 0) else (a i % 2 ^ (tyWidth ty - 1), 0)),
    (.vfneg, fun ty _ _ _ a _ _ i =>
      let x := valOf (fmtOf ty.toNat) (a i)
      if x.isNan then ((fmtOf ty.toNat).qnan, if x.isSnan then fNV else 0)
      else ((a i + 2 ^ (tyWidth ty - 1)) % 2 ^ tyWidth ty, 0))]
/-- The special functions (R180). -/
def specialLanes : List (VOp × Lane) :=
  [(.vexp2, fun ty r _ _ a _ _ i => rounded ty r i (exp2Val (valOf (fmtOf ty.toNat) (a i)))),
    (.vlog2, fun ty r _ _ a _ _ i => rounded ty r i (log2Val (valOf (fmtOf ty.toNat) (a i)))),
    (.vrcp, fun ty r _ _ a _ _ i => rounded ty r i (rcpVal (valOf (fmtOf ty.toNat) (a i)))),
    (.vrsqrt, fun ty r _ _ a _ _ i => rounded ty r i (rsqrtVal (valOf (fmtOf ty.toNat) (a i)))),
    (.vtanh, fun ty r _ _ a _ _ i => rounded ty r i (tanhVal (valOf (fmtOf ty.toNat) (a i)))),
    (.vsigm, fun ty r _ _ a _ _ i => rounded ty r i (sigmVal (valOf (fmtOf ty.toNat) (a i))))]
/-- The moves and permutes of one result for each lane (R175, R176). -/
def moveLanes : List (VOp × Lane) :=
  [(.vmov, fun _ _ _ _ a _ _ i => (a i, 0)),
    (.vsplat, fun ty _ p q _ _ _ i => ((if i % 2 = 0 then p else q).toNat % 2 ^ tyWidth ty, 0)),
    (.vperm, fun ty _ _ _ a b _ i =>
      (a (if 16 ≤ tyWidth ty then b i % (4096 / tyWidth ty)
        else if ty = 7 then i &&& 0x3F0 ||| b i else i &&& 0x100 ||| b i), 0)),
    (.vzip, fun _ _ _ _ a b _ i => (if i % 2 = 0 then a (i / 2) else b ((i - 1) / 2), 0)),
    (.vunzip, fun ty _ _ _ a b _ i =>
      let n := 4096 / tyWidth ty
      (if i < n / 2 then a (2 * i) else b (2 * (i - n / 2)), 0)),
    (.vrot, fun ty _ p _ a _ _ i =>
      let n := 4096 / tyWidth ty
      (a ((i + p.toNat % n) % n), 0)),
    (.vslideup, fun ty _ p _ a b _ i =>
      let n := 4096 / tyWidth ty
      let k := Nat.min p.toNat n
      (if k ≤ i then a (i - k) else b (n - k + i), 0)),
    (.vslidedn, fun ty _ p _ a b _ i =>
      let n := 4096 / tyWidth ty
      let k := Nat.min p.toNat n
      (if i + k < n then a (i + k) else b (i + k - n), 0)),
    (.vrev, fun ty _ _ _ a _ _ i => (a (4096 / tyWidth ty - 1 - i), 0))]
/-- The lane numbers of viota (R175). -/
def numberLane : Lane := fun ty _ _ _ _ _ _ i =>
  if ty.toNat < 4 then (i % 2 ^ tyWidth ty, 0) else ((roundVal (fmtOf ty.toNat) 0 false 0 (.fin false i 1)).1, 0)
/-- The lane-wise functions with the types that they take, and whether the destination is Pending until a delivery (R64). -/
def lanes : List (VOp × (BitVec 3 → Bool) × Bool × Lane) :=
  intLanes.map (fun e => (e.1, (fun ty => decide (ty.toNat < 4)), false, e.2)) ++
    floatLanes.map (fun e => (e.1, (fun ty => decide (4 ≤ ty.toNat) && decide (ty.toNat < 7)), false, e.2)) ++
    specialLanes.map (fun e => (e.1, (fun ty => decide (4 ≤ ty.toNat) && decide (ty.toNat < 7)), true, e.2)) ++
    moveLanes.map (fun e => (e.1, (fun _ => true), false, e.2)) ++ [(.viota, (fun ty => decide (ty ≠ 7)), false, numberLane)]

/-- The outcomes of VICMP (R85, R177), by cc. -/
def icmps : List (Nat × (Nat → Nat → Nat → Bool)) :=
  [(0, fun _ a b => decide (a = b)), (1, fun _ a b => decide (a ≠ b)), (2, fun w a b => decide (signed w a < signed w b)),
    (3, fun w a b => decide (signed w a ≤ signed w b)), (4, fun _ a b => decide (a < b)), (5, fun _ a b => decide (a ≤ b))]
/-- The predicate operations (R178). -/
def predicates : List (VOp × (PReg → PReg → PReg)) :=
  [(.kand, fun a b => a &&& b), (.kor, fun a b => a ||| b), (.kxor, fun a b => a ^^^ b), (.kandn, fun a b => a &&& ~~~b),
    (.knot, fun a _ => ~~~a)]

/-- An element of a product (R45 to R48): partial sums down the cell rows from a seed, of kc products each, with two roundings
at a row, or as integers that wrap; then, for FP4, the true product of each pair with an escaped element, in ascending k, with
one rounding. -/
def Product (ty rows : Nat) (neg : Bool) (seed : Nat) (a b : Nat → El) (r : Nat) : Prop :=
  ∃ ps qs : Nat → Nat, ps 0 = seed ∧ qs 0 = ps rows ∧ r = (if ty = 0 then qs (rows * etKc ty) else ps rows) ∧
    (∀ c, c < rows →
      let ks := (List.range (etKc ty)).map (fun k => c * etKc ty + k)
      ps (c + 1) = if etInt ty then
          wrapTo 32 (signed 32 (ps c) + (if neg then -1 else 1) * (ks.map (fun k => (a k).i * (b k).i)).sum)
        else (rne32 (addVal 0 (v32 (ps c)) (v32 (rne32 (exactSum (ks.map (fun k => prodEl neg (a k).v (b k).v))).1).1)).1).1) ∧
    ∀ k, k < rows * etKc ty → qs (k + 1) =
      if (a k).out.isSome = true ∨ (b k).out.isSome = true then
        (rne32 (addVal 0 (v32 (qs k)) (prodEl neg (a k).true_ (b k).true_).1).1).1
      else qs k

/-- The element of a bank row and column after the stages of an epilogue (R237), before its conversion. -/
def Epilogue (s : State) (f : Frag) (ty m n : Nat) (y : CVal) : Prop :=
  let t := f.tbl
  let e := t.epi
  let x := (f.row m).vals.getD n 0
  let whole := (f.row m).integer
  if whole = true ∧ e.bs = false ∧ e.sc = false ∧ e.bi = false ∧ e.act = 0 ∧ etInt ty = true then
    y = ⟨ofInt x.toInt, some x.toInt⟩
  else ∃ x0 x1 x2 x3 : Nat,
    x0 = (if whole then (rne32 (ofInt x.toInt)).1 else x.toNat) ∧
    x1 = (if e.bs then (rne32 (mulVal
        (mulVal (v32 x0) (valOf .bf16 (codeOf (s.winBytes ((t.num 0x35 + 2 * (m / 64)) % 2 ^ 64) 2)))).1
        (valOf .bf16 (codeOf (s.winBytes ((t.num 0x36 + 2 * (n / 64)) % 2 ^ 64) 2)))).1).1 else x0) ∧
    x2 = (if e.sc then (rne32 (mulVal (v32 x1) (v32 (t.num 0x33 % 2 ^ 32))).1).1 else x1) ∧
    x3 = (if e.bi then
        (rne32 (addVal 0 (v32 x2) (v32 (codeOf (s.winBytes ((t.num 0x34 + 4 * n) % 2 ^ 64) 4)))).1).1 else x2) ∧
    (e.act = 0 → y = ⟨v32 x3, none⟩) ∧
    (e.act = 1 → y.i = none ∧ y.v = if (v32 x3).isNan then .nan
      else if (v32 x3).neg || (v32 x3).isZero then .fin false 0 1 else v32 x3) ∧
    (e.act = 2 → y = ⟨v32 (rne32 (tanhVal (v32 x3)).1).1, none⟩) ∧
    (e.act = 3 → y = ⟨v32 (rne32 (sigmVal (v32 x3)).1).1, none⟩)

end Said

end Sys2Proof.Machine
end

