-- ==== Sys2Proof/Certificates/Slice0/Obligations.lean ====
section
/-! DEFINITION. The statements for the provers. -/

open Sys2Proof Sys2Proof.Machine

/-- Each two-source operation of R147, and mul, mulh and mulhn of R151, whose sources are Full and whose destination is
not Pending, completes: it writes the result the table gives for its 64-bit form, and the sign-extended 32-bit
result for its .w form, counts, and goes on at the next word; nothing else changes (a write to g0 is discarded).
(R145, R146, R147, R151) -/
def Obligations.RegisterOperationsWriteTheirResult : Prop :=
  ∀ e ∈ Said.twoSource ++ Said.highProduct, ∀ (o : OpA) (s : State), s.me.Ready o.a → s.me.Ready o.b → s.me.Free o.d →
    exec (e.1 o) s = .next (s.doneReg o.d (e.2.2 64 (s.me.gval o.a.toNat) (s.me.gval o.b.toNat))) ∧
    exec (e.2.1 o) s = .next (s.doneReg o.d (Said.low e.2.2 (s.me.gval o.a.toNat) (s.me.gval o.b.toNat)))

/-- Each immediate form of R149 with a Full source and a destination that is not Pending writes what its register
counterpart computes with the sign-extended immediate (or the shift amount) in place of gb; lui writes its immediate
shifted left by 43; nothing else changes. (R149, R150, R145) -/
def Obligations.ImmediateFormsComputeAsTheirRegisterForms : Prop :=
  ∀ (s : State),
    (∀ o : OpI, s.me.Ready o.a → s.me.Free o.d →
      exec (.addi o) s = .next (s.doneReg o.d (Said.add 64 (s.me.gval o.a.toNat) (o.imm.signExtend 64))) ∧
      exec (.addiW o) s = .next (s.doneReg o.d (Said.low Said.add (s.me.gval o.a.toNat) (o.imm.signExtend 64)))) ∧
    (∀ e ∈ Said.immediates, ∀ o : OpI13, s.me.Ready o.a → s.me.Free o.d →
      exec (e.1 o) s = .next (s.doneReg o.d (e.2 (s.me.gval o.a.toNat) (o.imm.signExtend 64)))) ∧
    (∀ e ∈ Said.shiftImmediates, ∀ o : OpSh, s.me.Ready o.a → s.me.Free o.d →
      exec (e.1 o) s = .next (s.doneReg o.d (e.2.2 64 (s.me.gval o.a.toNat) (o.amt.setWidth 64))) ∧
      exec (e.2.1 o) s = .next (s.doneReg o.d (Said.low e.2.2 (s.me.gval o.a.toNat) (o.amt.setWidth 64)))) ∧
    (∀ (d : Reg) (imm : BitVec 21), s.me.Free d →
      exec (.lui d imm) s = .next (s.doneReg d (imm.setWidth 64 <<< 43)))

/-- With Full sources and a destination that is not Pending: clz, ctz, popc and bswap write, at width 64 and (sign-
extended) at width 32, the number of 0 bits above the highest 1 bit, the number below the lowest (the width for 0),
the number of 1 bits, and the bytes in reverse order. bfx and bfxn write a word whose bit i is bit o + i of ga below
the width (0 past bit 63) and above it the field's top bit (bfx) or 0 (bfxn); bfi writes gd with bits o to o + w - 1
replaced by the low bits of ga. The offset is taken modulo 64 and the width is the raw width or 64; nothing else
changes. (R146, R148, R154, R155) -/
def Obligations.BitsAreCountedReversedAndMoved : Prop :=
  ∀ (s : State),
    (∀ o : OpA, s.me.Ready o.a → s.me.Free o.d →
      (∀ e ∈ Said.unary, ∃ r : BitVec 64, e.2.2 64 (s.me.gval o.a.toNat) r ∧
        exec (e.1 o) s = .next (s.doneReg o.d r)) ∧
      (∀ e ∈ Said.unary, ∃ r : BitVec 32, e.2.2 32 ((s.me.gval o.a.toNat).setWidth 32) r ∧
        exec (e.2.1 o) s = .next (s.doneReg o.d (r.signExtend 64)))) ∧
    (∀ o : OpF, s.me.Ready o.a → s.me.Free o.d →
      (∃ r, Said.Extracts true (s.me.gval o.a.toNat) o.off.toNat o.wid.toNat r ∧
        exec (.bfx o) s = .next (s.doneReg o.d r)) ∧
      (∃ r, Said.Extracts false (s.me.gval o.a.toNat) o.off.toNat o.wid.toNat r ∧
        exec (.bfxn o) s = .next (s.doneReg o.d r)) ∧
      (s.me.Ready o.d → ∃ r, Said.Inserts (s.me.gval o.d.toNat) (s.me.gval o.a.toNat) o.off.toNat o.wid.toNat r ∧
        exec (.bfi o) s = .next (s.doneReg o.d r))) ∧
    (∀ o : OpFR, s.me.Ready o.a → s.me.Ready o.b → s.me.Free o.d →
      let y := (s.me.gval o.b.toNat).toNat
      (∃ r, Said.Extracts true (s.me.gval o.a.toNat) (y % 64) (y / 64 % 128) r ∧
        exec (.bfxReg o) s = .next (s.doneReg o.d r)) ∧
      (∃ r, Said.Extracts false (s.me.gval o.a.toNat) (y % 64) (y / 64 % 128) r ∧
        exec (.bfxnReg o) s = .next (s.doneReg o.d r)) ∧
      (s.me.Ready o.d → ∃ r, Said.Inserts (s.me.gval o.d.toNat) (s.me.gval o.a.toNat) (y % 64) (y / 64 % 128) r ∧
        exec (.bfiReg o) s = .next (s.doneReg o.d r)))

/-- With Full sources and a destination that is not Pending: a compare writes 1 when its relation holds and 0 otherwise,
on bits [31:0] for .w; sel writes ga where gd (also a Full source) is not zero and gb otherwise; lea writes wrap(ga
+ (gb << s), 64) with no check of the address; a division marks gd Pending with a producer that owes the quotient or
remainder of R152, for zero divisors and for the overflow case as for all others, with no flag and no trap; nothing
else changes. (R64, R146, R152, R153, R156, R157, R158) -/
def Obligations.ComparesSelectionsAndDivisions : Prop :=
  ∀ (o : OpA) (s : State), s.me.Ready o.a → s.me.Ready o.b → s.me.Free o.d →
    let x := s.me.gval o.a.toNat
    let y := s.me.gval o.b.toNat
    (∀ e ∈ Said.compares,
      exec (e.1 o) s = .next (s.doneReg o.d (if e.2.2 64 x y then 1 else 0)) ∧
      exec (e.2.1 o) s = .next (s.doneReg o.d (if e.2.2 32 (x.setWidth 32) (y.setWidth 32) then 1 else 0))) ∧
    (s.me.Ready o.d → exec (.sel o) s = .next (s.doneReg o.d (if s.me.gval o.d.toNat = 0 then y else x))) ∧
    (∀ sh : BitVec 3, exec (.lea o sh) s =
      .next (s.doneReg o.d (BitVec.ofNat 64 (x.toNat + y.toNat * 2 ^ sh.toNat)))) ∧
    (∀ e ∈ Said.divisions,
      exec (e.1 o) s = .next (s.donePend o.d (.word (e.2.2 64 x y))) ∧
      exec (e.2.1 o) s = .next (s.donePend o.d (.word (Said.low e.2.2 x y))))

/-- With Full sources, a conditional branch sets the pc to its target (its own address plus four times the signed
offset) where its condition holds and to the next word otherwise, and changes no register. j goes to its target;
jal, where g31 is not Pending, also writes the next address to g31; jr and jalr go to the word address in ga (read
before gd is written), jalr with the next address in gd; where ga has a nonzero low bit pair, jr and jalr raise
MISALIGN at the jump with the target in c.TVAL, and write no link. (R82, R107, R127, R128) -/
def Obligations.BranchesAndJumpsTransferControl : Prop :=
  ∀ (s : State),
    (∀ e ∈ Said.branches, ∀ o : OpB, s.me.Ready o.a → s.me.Ready o.b →
      exec (e.1 o) s = .next (if e.2 (s.me.gval o.a.toNat) (s.me.gval o.b.toNat)
        then s.doneJump s.me (s.me.pc + 4 * o.off.signExtend 64) else s.doneWith s.me)) ∧
    (∀ off, exec (.j off) s = .next (s.doneJump s.me (s.me.pc + 4 * off.signExtend 64))) ∧
    (∀ off, s.me.Free 31 →
      exec (.jal off) s = .next (s.doneJump (s.me.setG 31 (s.me.pc + 4)) (s.me.pc + 4 * off.signExtend 64))) ∧
    (∀ o : OpA, s.me.Ready o.a →
      let x := s.me.gval o.a.toNat
      (x.toNat % 4 = 0 → exec (.jr o) s = .next (s.doneJump s.me x)) ∧
      (x.toNat % 4 ≠ 0 → exec (.jr o) s = s.trap cMISALIGN x) ∧
      (s.me.Free o.d →
        (x.toNat % 4 = 0 → exec (.jalr o) s = .next (s.doneJump (s.me.setG o.d.toNat (s.me.pc + 4)) x)) ∧
        (x.toNat % 4 ≠ 0 → exec (.jalr o) s = s.trap cMISALIGN x)))

/-- With a Full counter, loop writes ga minus 1 back (discarded for g0), takes c.VRB.BASE one down modulo 16, and
branches to its target unless the new counter is 0; loop g0 always branches. (R129) -/
def Obligations.LoopCountsAndRotates : Prop :=
  ∀ (o : OpB) (s : State), s.me.Ready o.a →
    let n : Word := BitVec.ofInt 64 ((s.me.gval o.a.toNat).toInt - 1)
    let t : Strand := { s.me.setG o.a.toNat n with vrb := BitVec.ofInt 4 ((s.me.vrb.toNat : Int) - 1) }
    exec (.loop o) s =
      .next (if n = 0 then s.doneWith t else s.doneJump t (s.me.pc + 4 * o.off.signExtend 64))

/-- femark of a register that is not Pending leaves it Idle and changes nothing else; of a Pending one it stalls.
fetest, where gd is not Pending, writes 2, 1 or 0 for a Full, Pending or Idle register. fewait completes with no
effect when the register is Full, stalls while it is Pending, and raises EMPTY_READ when it is Idle. Vector
registers are named through the rotation of R60. (R133, R60, R63) -/
def Obligations.FullEmptyOperationsMarkTestAndWait : Prop :=
  ∀ (file : Bool) (o : OpA) (s : State),
    (s.me.feOf file o.d ≠ .pending → exec (.femark file o) s = .next (s.doneWith
      (if file then s.me.markV (physV s.me.vrb o.d.toNat) .idle else s.me.markG o.d.toNat .idle))) ∧
    (s.me.feOf file o.d = .pending → exec (.femark file o) s = .next (s.stall (s.me.feWait file o.d))) ∧
    (s.me.Free o.d →
      (s.me.feOf file o.a = .full → exec (.fetest file o) s = .next (s.doneReg o.d 2)) ∧
      (s.me.feOf file o.a = .pending → exec (.fetest file o) s = .next (s.doneReg o.d 1)) ∧
      (s.me.feOf file o.a = .idle → exec (.fetest file o) s = .next (s.doneReg o.d 0))) ∧
    (s.me.feOf file o.a = .full → exec (.fewait file o) s = .next (s.doneWith s.me)) ∧
    (s.me.feOf file o.a = .pending → exec (.fewait file o) s = .next (s.stall (.until (s.me.feCond file o.a)))) ∧
    (s.me.feOf file o.a = .idle → exec (.fewait file o) s =
      s.trap cEMPTY_READ (BitVec.ofNat 64 ((if file then 64 else 0) + o.a.toNat)))

/-- For the two-source operations, multiplies, divisions and compares at both widths, lea, sel, the unary operations,
the immediate, shift and bit-field forms, the conditional branches and loop, and of the words with an h source fork,
rdv, binit and bmask: the first source, in the order a, b, d (h before them), that is Idle, or Pending under the
trap policy of its bit (ea for a and d, eb for b, block for h), raises EMPTY_READ with its number in c.TVAL; with
none, the first Pending source stalls the strand at the instruction; with every source Full, a Pending destination
stalls it. A stall changes no register and leaves the pc. That a source that traps is decided ahead of an earlier
source that waits is the model's reading of R92 (log 11). (R63, R65, R66, R92, R108) -/
def Obligations.SourcesAndDestinationsWaitOrTrap : Prop :=
  ∀ s : State,
    (∀ o : OpA,
      (∀ e ∈ Said.twoSource ++ Said.highProduct ++ Said.divisions, ∀ i ∈ [e.1 o, e.2.1 o],
        s.ReadsFirst i [(o.a, o.ea), (o.b, o.eb)] (some o.d)) ∧
      (∀ e ∈ Said.compares, ∀ i ∈ [e.1 o, e.2.1 o], s.ReadsFirst i [(o.a, o.ea), (o.b, o.eb)] (some o.d)) ∧
      (∀ e ∈ Said.unary, ∀ i ∈ [e.1 o, e.2.1 o], s.ReadsFirst i [(o.a, o.ea)] (some o.d)) ∧
      (∀ sh, s.ReadsFirst (.lea o sh) [(o.a, o.ea), (o.b, o.eb)] (some o.d)) ∧
      s.ReadsFirst (.sel o) [(o.a, o.ea), (o.b, o.eb), (o.d, o.ea)] (some o.d)) ∧
    (∀ o : OpI, ∀ i ∈ [Instr.addi o, .addiW o], s.ReadsFirst i [(o.a, o.ea)] (some o.d)) ∧
    (∀ o : OpI13, ∀ e ∈ Said.immediates, s.ReadsFirst (e.1 o) [(o.a, o.ea)] (some o.d)) ∧
    (∀ o : OpSh, ∀ e ∈ Said.shiftImmediates, ∀ i ∈ [e.1 o, e.2.1 o], s.ReadsFirst i [(o.a, o.ea)] (some o.d)) ∧
    (∀ o : OpF, (∀ i ∈ [Instr.bfx o, .bfxn o], s.ReadsFirst i [(o.a, o.ea)] (some o.d)) ∧
      s.ReadsFirst (.bfi o) [(o.a, o.ea), (o.d, o.ea)] (some o.d)) ∧
    (∀ o : OpFR, (∀ i ∈ [Instr.bfxReg o, .bfxnReg o], s.ReadsFirst i [(o.a, o.ea), (o.b, o.eb)] (some o.d)) ∧
      s.ReadsFirst (.bfiReg o) [(o.a, o.ea), (o.b, o.eb), (o.d, o.ea)] (some o.d)) ∧
    (∀ o : OpB, (∀ e ∈ Said.branches, s.ReadsFirst (e.1 o) [(o.a, o.ea), (o.b, o.eb)] none) ∧
      s.ReadsFirst (.loop o) [(o.a, o.ea)] none) ∧
    (∀ o : OpE, (∀ i ∈ [Instr.fork o, .rdv o], s.ReadsFirst i [(o.h, false)] none) ∧
      s.ReadsFirst (.binit o) [(o.h, false), (o.a, o.ea), (o.b, o.eb)] none ∧
      s.ReadsFirst (.bmask o) [(o.h, false), (o.a, o.ea)] none) ∧
    (∀ w, (s.stall w).me.pc = s.me.pc ∧ KeepsRegs [] s.me (s.stall w).me)

/-- time, where gd is not Pending, writes the package time of its die. feat marks gd Pending with a producer that owes
the feature word: 0x0610000101 for word 0, 0x0003FFFF3FFF1FFE for word 1, 0x04060100080410FF for word 9,
0x0008020001000800 for word 11 and 0 for words 2 to 7 and 12 to 31. locq with a Full source marks gd Pending with a
word whose OWNDIE is the strand's die and whose BARR, TIER and HOME are those of the table of R135 for the address,
with its reserved bits zero, and may fill the core TLB; it never traps. That a strand in F mode names device-
physical memory and passes the checks for foreign objects is the model's reading (log 7). (R134, R135, R136, R64) -/
def Obligations.QueriesReadTheTimeTheFeaturesAndThePlace : Prop :=
  ∀ (o : OpA) (s : State), s.me.Free o.d →
    exec (.time o) s = .next (s.doneReg o.d (s.die (dieOf s.cur)).ptime) ∧
    exec (.feat o) s = .next (s.donePend o.d (.word (BitVec.ofNat 64 (s.feat o.b.toNat)))) ∧
    (s.feat 0 = 0x0610000101 ∧ s.feat 1 = 0x0003FFFF3FFF1FFE ∧ s.feat 9 = 0x04060100080410FF ∧
      s.feat 11 = 0x0008020001000800 ∧ ∀ n, (2 ≤ n ∧ n ≤ 7) ∨ 12 ≤ n → s.feat n = 0) ∧
    (s.me.Ready o.a → ∃ (u : State) (tier home : Nat) (barr : Bool),
      (u = s ∨ ∃ l, u = s.cacheLeaf s.cur l) ∧ Said.Located s s.cur (s.me.gval o.a.toNat) tier home barr ∧
      exec (.locq o) s = .next (u.donePend o.d
        (.word (BitVec.ofNat 64 (512 * (s.cur / 64) + 64 * barr.toNat + 8 * tier + home)))))

/-- For an assigned number that may be named in the strand's mode, where for c.FFLAGS, c.FRM and c.SRSTATE the vector
unit is idle: cget with a destination that is not Pending completes and writes the control register to gd, and cset
with a Full source completes and writes it as R40 to R42, R61 and R120 say, before the next word. In user mode every
number from 0x100 to 0x1FF raises PRIV with the word in c.TVAL; in F mode one of them that no chapter names is
UNDEF. A cset in user mode of another assigned number leaves the mode, the trap registers, the clock, the log and
the event queue registers of its core, and every other core, as they were: only c.FFLAGS, c.FRM, c.SRSTATE and c.VRB
can change. That a cget of the first three writes gd in the step in which the unit is idle, and marks it Pending in
none, is the model's (log 44). (R14, R43, R64, R70, R71, R125, R137) -/
def Obligations.ControlRegistersReadAndWrite : Prop :=
  ∀ (o : OpA) (s : State),
    let n := 32 * o.a.toNat + o.b.toNat
    let u := s.setControl s.cur n (s.me.gval o.d.toNat)
    ((Instr.cget o).wf = true →
      (n < 0x100 ∨ (s.me.mode = true ∧ n ≤ 0x102) → (n ≤ 2 → s.me.vectorIdle = true) → s.me.Free o.d →
        exec (.cget o) s = .next (s.doneReg o.d (s.control s.cur n))) ∧
      (0x100 ≤ n → n < 0x200 →
        (s.me.mode = false → exec (.cget o) s = s.trap 0x0F ((encA 0x30 o 0x006).setWidth 64)) ∧
        (s.me.mode = true → 0x102 < n → exec (.cget o) s = s.trap 0x01 ((encA 0x30 o 0x006).setWidth 64)))) ∧
    ((Instr.cset o).wf = true →
      (n < 0x100 ∨ (s.me.mode = true ∧ n ≤ 0x102) → (n ≤ 2 → s.me.vectorIdle = true) → s.me.Ready o.d →
        exec (.cset o) s = .next (u.doneWith u.me)) ∧
      (0x100 ≤ n → n < 0x200 →
        (s.me.mode = false → exec (.cset o) s = s.trap 0x0F ((encA 0x30 o 0x007).setWidth 64)) ∧
        (s.me.mode = true → 0x102 < n → exec (.cset o) s = s.trap 0x01 ((encA 0x30 o 0x007).setWidth 64))) ∧
      (s.me.mode = false → s.me.Ready o.d → n < 0x100 → (n ≤ 2 → s.me.vectorIdle = true) →
        ∃ t, exec (.cset o) s = .next t ∧ OnlyStrand s t ∧ KeepsRegs [] s.me t.me ∧
          KeepsRest { s.me with fflags := t.me.fflags, frm := t.me.frm, srstate := t.me.srstate, vrb := t.me.vrb } t.me))

/-- In F mode a write of a trap register or mode field is read back: c.EPC and c.TVAL whole, c.CAUSE without its
reserved bits, c.TVEC without its two low bits, c.STATUS with SS, TH and PMODE from the write and WORLD and MODE as
they were. In either mode c.SRSTATE reads back whole, c.VRB its low four bits, c.FRM its low three bits unless they
are 7, and a 1 written to c.FFLAGS clears that flag. (R40, R41, R42, R61, R120) -/
def Obligations.ControlRegisterFieldsHoldWhatTheyAreGiven : Prop :=
  ∀ (s : State) (x : Word),
    (s.me.mode = true →
      (s.setControl s.cur 0x030 x).control s.cur 0x030 = x ∧
      (s.setControl s.cur 0x032 x).control s.cur 0x032 = x ∧
      (s.setControl s.cur 0x031 x).control s.cur 0x031 = x &&& 0x000000000F3FFFFF ∧
      (s.setControl s.cur 0x033 x).control s.cur 0x033 = x &&& 0xFFFFFFFFFFFFFFFC ∧
      (s.setControl s.cur 0x034 x).control s.cur 0x034 =
        (x &&& 0xC8) ||| (s.control s.cur 0x034 &&& 0x03)) ∧
    (s.setControl s.cur 0x002 x).control s.cur 0x002 = x ∧
    (s.setControl s.cur 0x003 x).control s.cur 0x003 = x &&& 0xF ∧
    (s.setControl s.cur 0x001 x).control s.cur 0x001 =
      (if x &&& 7 = 7 then s.control s.cur 0x001 else x &&& 7) ∧
    (s.setControl s.cur 0x000 x).control s.cur 0x000 = s.control s.cur 0x000 &&& ~~~x

/-- The word 0xC0000000 decodes to nop, and the all-zero word is refused by the decoder as undefined; nop changes
nothing but the pc and the counts of the strand. (R140) -/
def Obligations.NopIsItsOwnWordAndHasNoEffect : Prop :=
  decode [0x00, 0x00, 0x00, 0xC0] = .ok (.nop, []) ∧
    (∃ e, decode [0x00, 0x00, 0x00, 0x00] = .error e) ∧
    ∀ s : State, exec .nop s = .next (s.doneWith s.me)

/-- In F mode, where c.EPC is a multiple of 4, eret sets the pc to c.EPC, the mode to PMODE and TH to 0 at once, and
changes nothing else; where it is none, the transfer raises MISALIGN with the target in c.TVAL (R107); in user mode
eret raises PRIV with its word in c.TVAL. (R142) -/
def Obligations.EretReturnsInOneStep : Prop :=
  ∀ s : State,
    (s.me.mode = true → s.me.epc.toNat % 4 = 0 → exec .eret s =
      .next (s.doneJump { s.me with mode := s.me.pmode, th := false } s.me.epc)) ∧
    (s.me.mode = true → s.me.epc.toNat % 4 ≠ 0 → exec .eret s = s.trap 0x03 s.me.epc) ∧
    (s.me.mode = false → exec .eret s = s.trap 0x0F 0xC0000009)

/-- With nothing outstanding, trap, sysc and brk save their own pc in c.EPC, their cause and code in c.CAUSE and 0 in
c.TVAL, and change no general register. In user mode the strand is Trapped and undecided, in user mode still. In F
mode outside a handler it runs on at c.TVEC with MODE 1, TH 1 and PMODE 1; inside a handler the core stops and a
warm reset is due. (R141, R120, R122, R124) -/
def Obligations.TrapInstructionsEnterTheirTraps : Prop :=
  ∀ e ∈ [(Instr.trap, (0x19 : Cause)), (Instr.sysc, (0x13 : Cause)), (Instr.brk, (0x14 : Cause))],
    ∀ (code : BitVec 12) (s : State), s.me.drained = true → s.me.deferred = [] →
    ∃ t, exec (e.1 code) s = .next t ∧ t.me.epc = s.me.pc ∧ t.me.tval = 0 ∧
      t.me.cause = (code.setWidth 64 <<< 8) ||| e.2.setWidth 64 ∧ KeepsRegs [] s.me t.me ∧
      (s.me.mode = false → t.me.st = .trapped ∧ t.me.decided = false ∧ t.me.mode = false ∧ t.me.pc = s.me.pc) ∧
      (s.me.mode = true → s.me.th = false → t.me.st = .running ∧ t.me.mode = true ∧ t.me.th = true ∧
        t.me.pmode = true ∧ t.me.pc = s.me.tvec ++ (0 : BitVec 2)) ∧
      (s.me.mode = true → s.me.th = true → t.me.st = .done ∧ t.resetDue = true)

/-- A precise trap with nothing outstanding keeps every general register and writes c.EPC, c.CAUSE and c.TVAL. In F mode
memory is unchanged. In user mode memory changes only where the trap record goes: the 32 bytes at the tail of the
event ring of the die's firmware core, when the ring has room, with kind 2, the core and the cause; then the tail
moves on by one. The layout of the 32 bytes, the kind number 2 and the place of the ring at physical c.EVBASE are
the model's choice (log 10). (R117, R120, R122, R124, R453) -/
def Obligations.ATrapSavesAndReports : Prop :=
  ∀ (s : State) (cause : Cause) (x : Word), s.me.drained = true → s.me.deferred = [] →
    ∃ t, s.trap cause x = .next t ∧ t.me.epc = s.me.pc ∧ t.me.cause = cause.setWidth 64 ∧ t.me.tval = x ∧
      KeepsRegs [] s.me t.me ∧
      (s.me.mode = true → SameMemory s t) ∧
      (s.me.mode = false →
        let k := s.core (64 * (s.cur / 64))
        let base := k.evbase.toNat % 2 ^ 56 + 32 * (k.evtail % 1024)
        (∀ a, a < base ∨ base + 32 ≤ a → memByte t.mem a = memByte s.mem a) ∧
        (k.evtail < k.evhead + 1024 → k.evwait = [] →
          (t.core (64 * (s.cur / 64))).evtail = k.evtail + 1 ∧
          memNat t.mem base 32 = 2 + s.cur % 2 ^ 64 * 2 ^ 64 + cause.toNat * 2 ^ 128))

/-- sleep with a Full source completes at once, clearing the latch, when the latch is set or the time is nonzero and not
after c.PTIME; otherwise the strand sleeps with that deadline (none for 0). The passing of the deadline of a
Sleeping strand sets the latch, and a Sleeping strand with the latch set, which no GEXIT of its group has reached,
clears it and goes on at the next word (with no single step set). A Stalled strand whose cause has ended, or whose
append now has its units, becomes Running with its registers, pc and memory as they were. (R138, R104, R108, R301) -/
def Obligations.SleepsAndStallsEnd : Prop :=
  ∀ (o : OpA) (s : State) (core : Nat), core < 384 →
    (s.me.Ready o.a →
      let x := s.me.gval o.a.toNat
      (s.me.wake = true ∨ (x ≠ 0 ∧ x.toNat ≤ (s.ptime s.cur).toNat) →
        exec (.sleep o) s = .next (s.doneWith { s.me with wake := false, deadline := none })) ∧
      (s.me.wake = false → x = 0 ∨ (s.ptime s.cur).toNat < x.toNat →
        exec (.sleep o) s = .next (s.setMe { s.me with
          st := .sleeping, why := .none, deadline := if x = 0 then none else some x }))) ∧
    ((s.strand core).st = .sleeping →
      (∀ x, (s.strand core).deadline = some x → x.toNat ≤ (s.ptime core).toNat →
        exec (.sleepDeadline core) s =
          .next (s.setStrand core { s.strand core with wake := true, deadline := none })) ∧
      ((s.strand core).wake = true → (s.strand core).ss = false → (s.strand core).reached = false →
        exec (.sleepWake core) s = .next (s.setStrand core
          ({ s.strand core with wake := false, deadline := none }.finish ((s.strand core).pc + 4))))) ∧
    ((s.strand core).st = .stalled →
      (s.whyMet core (s.strand core) (s.strand core).why = true →
        exec (.stallRelease core) s = .next (s.setStrand core { s.strand core with st := .running })) ∧
      (∀ n, (s.strand core).why = .log n → (s.log core).fits n = true →
        exec (.appendRelease core) s = .next (s.setStrand core { s.strand core with st := .running })))

/-- For every strand: an address from 2^56 up to the scratchpad regions, or above the barrier window, is refused with
PROTECT; an access within the own core scratchpad lies at that byte of the core's scratchpad and one past its extent
is refused; an access within cluster memory lies in the last 512 KiB of the core that the offset names, when the
strand is in F mode, or that core is its own or holds a strand of its context, and is refused with PROTECT
otherwise; one in the shared scratchpad reaches its byte when the bank's die is present and the bank belongs to the
context. That a strand in F mode passes the check for foreign objects is the model's reading (log 7). (R259, R260,
R261, R262, R441) -/
def Obligations.RegionsLieWhereTheMapSays : Prop :=
  ∀ (s : State) (core n : Nat) (acc : Access) (a : Word),
    ((2 ^ 56 ≤ a.toNat ∧ a.toNat < 0xFF00000000000000) ∨ 0xFF40000000000000 ≤ a.toNat →
      s.place core a n acc = .bad 0x05) ∧
    (∀ o, o < 2 ^ 52 → a.toNat = 0xFF00000000000000 + o →
      s.place core a n acc = if o + n ≤ 2 ^ 21 then .at (spAddr core o) else .bad 0x05) ∧
    (∀ o, o < 2 ^ 52 → a.toNat = 0xFF10000000000000 + o →
      let peer := core / 4 * 4 + o / 2 ^ 19
      s.place core a n acc =
        if o + n ≤ 2 ^ 21 ∧ ((s.strand core).mode = true ∨ core = peer ∨
          ((s.strand peer).here = true ∧ (s.strand core).asid = (s.strand peer).asid))
        then .at (spAddr peer (0x180000 + o % 2 ^ 19)) else .bad 0x05) ∧
    (∀ o, o < 2 ^ 52 → a.toNat = 0xFF20000000000000 + o → o + n ≤ Config.sharedBytes →
      s.place core a n acc =
        if s.present (o / 2 ^ 20 % 6) = false then .bad 0x17
        else if (s.strand core).mode = true ∨ mfind s.banks (o / 2 ^ 20) = (s.strand core).asid then .at (sharedAddr o)
        else .bad 0x05)

/-- For ld with a Full address and a free destination, and st with Full sources: an address that is not a multiple of
the size raises MISALIGN with the address in c.TVAL; an aligned one that its region or translation refuses raises
that cause with the address; one that reaches memory above the watermark of a broken channel raises CHANNEL_BROKEN,
and above that of another channel it stalls. An st that passes its checks and reaches the barrier window, or a live
barrier word on a barrier page, raises BARRIER_CLOBBER with its address; one to a barrier page where no live word
lies completes and writes nothing. (R118, R279, R280, R281, R342, R364, R467) -/
def Obligations.LoadsAndStoresCheckInOrder : Prop :=
  ∀ (o : OpM) (s : State), s.me.Ready o.a →
    let a := s.me.gval o.a.toNat + BitVec.ofNat 64 (Machine.sizeOf o.sz) * o.off.signExtend 64
    let n := Machine.sizeOf o.sz
    ∀ e ∈ [(Instr.ld o, Access.read, s.me.Free o.d), (Instr.st o, Access.write, s.me.Ready o.d)], e.2.2 →
      (a.toNat % n ≠ 0 → exec e.1 s = s.trap 0x03 a) ∧
      (a.toNat % n = 0 → ∀ c, s.place s.cur a n e.2.1 = .bad c → exec e.1 s = (s.touch s.cur a).trap c a) ∧
      (a.toNat % n = 0 → ∀ pa, s.place s.cur a n e.2.1 = .at pa → ∀ ch st, s.me.guard a.toNat n = some (ch, st) →
        exec e.1 s = if st = .broken then (s.touch s.cur a).trap 0x08 a
          else .next ((s.touch s.cur a).stall (.guard ch a))) ∧
      (s.me.Ready o.d → ∀ pa, s.Reaches a n .write pa → isBarrier pa = true →
        (isBarrierPage pa = false ∨ s.barrierLive pa = true → exec (.st o) s = (s.touch s.cur a).trap 0x0A a) ∧
        (isBarrierPage pa = true → s.barrierLive pa = false →
          exec (.st o) s = .next ((s.touch s.cur a).doneWith s.me)))

/-- An ld that passes its checks, with its register Full, gd not Pending and no earlier vector store outstanding: at an
address of the own core scratchpad it writes the little-endian bytes that the place holds once the core's own
waiting writes of them are performed, zero- or sign-extended by the size code (a write to g0 is discarded); at any
other address, the own quarter's in cluster memory included, it marks gd Pending with a producer that owes the load.
(R279, R280, R64) -/
def Obligations.LoadsReadTheBytesOfTheirPlace : Prop :=
  ∀ (o : OpM) (s : State) (pa : Nat), s.me.Ready o.a → s.me.Free o.d → s.cur < 384 →
    let a := s.me.gval o.a.toNat + BitVec.ofNat 64 (Machine.sizeOf o.sz) * o.off.signExtend 64
    let n := Machine.sizeOf o.sz
    s.Reaches a n .read pa → s.me.storesDone = true →
      let u := (s.touch s.cur a).settleWrites s.cur pa n
      (a.toNat / 2 ^ 52 = 0xFF0 → mfind u.failed (pa / 64) = none →
        exec (.ld o) s = .next (u.doneReg o.d (Said.loaded o.sz (memNat u.mem pa n)))) ∧
      (a.toNat / 2 ^ 52 ≠ 0xFF0 →
        exec (.ld o) s = .next (((s.touch s.cur a).enterFlow s.cur 0 pa [] (.strand s.me.seq)).donePend o.d (.load pa a o.sz)))

/-- The delivery of a producer that owes a word to a general register other than g0 leaves the register Full with the
word, and no other register changes. A load from a shared or cluster scratchpad with no error delivers the bytes
that the place then holds, the core's own waiting writes of them performed. One that owes a vector register leaves
it Full with its value. A strided or indexed load reads its next group of lanes, no two of whose lines lie in one
sub-bank, and after its last group owes its register the values it has read, each in its lane, the others as they
were or zero. A producer that ends in error leaves its register Idle and adds a deferred trap of its cause. (R66,
R67, R117, R183, R185, R266, R280, R290) -/
def Obligations.ProducersDeliverOrLeaveIdle : Prop :=
  (∀ (core n r : Nat) (s : State) (p : Prod), core < 384 → r ≠ 0 → (s.strand core).pend[n]? = some p → p.dst = .g r →
    (∀ x, p.src = .word x → ∃ t, exec (.producerDelivery core n) s = .next t ∧
      (t.strand core).gval r = x ∧ (t.strand core).gst r = .full ∧ KeepsRegs [r] (s.strand core) (t.strand core) ∧
      (p.lift = [] → SameMemory s t)) ∧
    (∀ pa addr sz, p.src = .load pa addr sz → 2 ^ 61 ≤ pa → pa < 2 ^ 64 → pa % Machine.sizeOf sz = 0 →
      let u := s.settleWrites core pa (Machine.sizeOf sz)
      s.linkDead core pa = false → mfind u.failed (pa / 64) = none →
      ∃ t, exec (.producerDelivery core n) s = .next t ∧
        (t.strand core).gval r = Said.loaded sz (memNat u.mem pa (Machine.sizeOf sz)) ∧ (t.strand core).gst r = .full ∧
        KeepsRegs [r] (s.strand core) (t.strand core) ∧ SameMemory u t) ∧
    (∀ c tv, p.src = .error c tv → ∃ t, exec (.producerDelivery core n) s = .next t ∧
      (t.strand core).gst r = .idle ∧ (t.strand core).deferred = (s.strand core).deferred ++ [⟨p.seq, c, tv, s.ptime core⟩] ∧
      KeepsRegs [r] (s.strand core) (t.strand core) ∧ SameMemory s t)) ∧
    (∀ (core n : Nat) (s : State) (p : Prod), core < 384 → (s.strand core).pend[n]? = some p →
      (∀ d x, p.dst = .v [d] → p.src = .vec [x] → ∃ t, exec (.producerDelivery core n) s = .next t ∧
        (t.strand core).vval d = x ∧ (t.strand core).vst d = .full ∧ KeepsRegs [] (s.strand core) (t.strand core) ∧
        (p.lift = [] → SameMemory s t)) ∧
      (∀ r, p.src = .lanes r → (s.strand core).writes = [] →
        let g := takeGroup [] r.todo
        let q : LaneReq := { r with todo := g.2, got := r.got ++ g.1.map (fun x => (x.1, memNat s.mem x.2.2 r.n)) }
        (∀ x ∈ g.1, 2 ^ 61 ≤ x.2.2 ∧ x.2.2 < 2 ^ 64 ∧ x.2.2 % 64 + r.n ≤ 64 ∧ s.linkDead core x.2.2 = false ∧
          mfind s.failed (x.2.2 / 64) = none) →
        ∃ t src, exec (.producerDelivery core n) s = .next t ∧ SameMemory s t ∧ KeepsRegs [] (s.strand core) (t.strand core) ∧
          (t.strand core).pend[n]? = some { p with src := src } ∧ (g.2 ≠ [] → src = .lanes q) ∧
          (g.2 = [] → r.err = none → r.n ∈ [1, 2, 4, 8] → ∃ v, src = .vec [v] ∧ ∀ i, i < 4096 / (8 * r.n) →
            elem v (8 * r.n) i = match q.got.find? (fun y => y.1 == i) with
              | some y => y.2 % 2 ^ (8 * r.n)
              | none => if r.zm then 0 else elem r.old (8 * r.n) i)))

/-- An st that passes its checks, with Full sources, no earlier vector memory command outstanding and no outstanding
load of the bytes, completes. At an address of the own core scratchpad it writes the low bytes of gd at its place,
little-endian, and every byte outside them reads as before (the core's own waiting writes of the bytes performed
first). At another scratchpad address it leaves memory as it is and one write waits at its place with those bytes;
once its sub-bank grants it, with no other write waiting, they lie there and every other byte reads as before. To
global memory, when the log has a free unit, it appends one record of one unit with the key (c.LCLK, core), whose
one line, mask and bytes are those of the store; memory is unchanged (below the log's pressure level). No register
changes. Without a free unit it stalls. (R266, R281, R283, R286, R287, R288, R301, R313) -/
def Obligations.StoresWriteTheirBytesOrALogRecord : Prop :=
  ∀ (o : OpM) (s : State) (pa : Nat), s.me.Ready o.a → s.me.Ready o.d →
    let a := s.me.gval o.a.toNat + BitVec.ofNat 64 (Machine.sizeOf o.sz) * o.off.signExtend 64
    let n := Machine.sizeOf o.sz
    let x := s.me.gval o.d.toNat
    s.Reaches a n .write pa → isBarrier pa = false → s.me.vectorMemoryDone = true → s.me.NoLoadAt pa n →
      (isGlobal pa = false → a.toNat / 2 ^ 52 = 0xFF0 → ∃ t, exec (.st o) s = .next t ∧
        (∀ i, i < n → memByte t.mem (pa + i) = x.extractLsb' (8 * i) 8) ∧
        SameOutside pa n (s.settleWrites s.cur pa n) t ∧ KeepsRegs [] s.me t.me ∧ t.me.pc = s.me.pc + 4) ∧
      (isGlobal pa = false → a.toNat / 2 ^ 52 ≠ 0xFF0 → ∃ t, exec (.st o) s = .next t ∧ SameMemory s t ∧
        t.me.writes = s.me.writes ++
          [⟨0, s.nextId, s.me.seq, [(pa, (List.range n).map (fun i => (x.extractLsb' (8 * i) 8, true)))]⟩] ∧
        KeepsRegs [] s.me t.me ∧ t.me.pc = s.me.pc + 4 ∧
        (s.me.writes = [] → let v := t.grantWrite s.cur 0
          (∀ i, i < n → memByte v.mem (pa + i) = x.extractLsb' (8 * i) 8) ∧ SameOutside pa n s v ∧ v.me.writes = [])) ∧
      (isGlobal pa = true → (s.log s.cur).occ + 1 ≤ 262144 →
        ∃ t p, exec (.st o) s = .next t ∧
          (t.log s.cur).recs = (s.log s.cur).recs ++
            [⟨(s.log s.cur).app, 1, [p], ⟨(s.core s.cur).lclk, s.cur⟩, s.me.asid, s.me.group, none, false⟩] ∧
          p.line = pa / 64 ∧
          (∀ i, i < 64 → p.mask.getLsbD i = decide (pa % 64 ≤ i ∧ i < pa % 64 + n)) ∧
          (∀ i, i < n → p.data.extractLsb' (8 * (pa % 64 + i)) 8 = x.extractLsb' (8 * i) 8) ∧
          KeepsRegs [] s.me t.me ∧ t.me.pc = s.me.pc + 4 ∧
          ((s.log s.cur).occ + 1 < 196608 → SameMemory s t)) ∧
      (isGlobal pa = true → 262144 < (s.log s.cur).occ + 1 → ∃ u, exec (.st o) s = .next (u.stall (.log 1)) ∧
        SameMemory s u ∧ u.me.pc = s.me.pc)

/-- An atom that passes its checks, with Full sources, gd not Pending and no earlier vector memory command outstanding,
completes: gd is Pending and its producer owes the atomic. In global memory, with no earlier ST or ATOM of the
strand unperformed, it publishes the log and has left its core; otherwise it waits there, and memory is unchanged.
For the integer types the values are those of R328: add wraps, min and max are signed for i32 and i64 and unsigned
for n32 and n64, and, or and xor bitwise, swap the operand, cas the operand where the old value equals the compare
value; the result is the old value, sign-extended for i32 and zero-extended otherwise. (R321, R326, R327, R328, R64) -/
def Obligations.AtomsReadAndWriteAtTheirPlace : Prop :=
  ∀ (o : OpX) (s : State) (pa : Nat), s.me.Ready o.a → s.me.Ready o.b → (o.op = 7 → s.me.Ready o.d) → s.me.Free o.d →
    let a := s.me.gval o.a.toNat
    let n := if o.ty = 1 ∨ o.ty = 3 then 8 else 4
    let r : AtomReq := ⟨pa, a, o.op, o.ty, o.scope, s.me.gval o.b.toNat, if o.op = 7 then s.me.gval o.d.toNat else 0⟩
    s.Reaches a n .atom pa → isBarrier pa = false → s.me.vectorMemoryDone = true →
    s.me.NoLoadAt pa n → (isHost pa = true → o.ty ≠ 4 ∧ (o.op = 0 ∨ o.op = 6 ∨ o.op = 7)) →
      (isGlobal pa = false ∨ s.me.atomLeaves s.me.seq = false → ∃ t, exec (.atom o) s = .next t ∧ SameMemory s t ∧
        t.me.gst o.d.toNat = (if o.d = 0 then .full else .pending) ∧ t.me.pc = s.me.pc + 4 ∧
        t.me.pend = s.me.pend ++ [⟨.g o.d.toNat, .atom r, s.me.seq, [], none⟩] ∧ KeepsRegs [o.d.toNat] s.me t.me) ∧
      (isGlobal pa = true → s.me.atomLeaves s.me.seq = true → ∃ t, exec (.atom o) s = .next t ∧
        (t.log s.cur).pub = (s.log s.cur).app ∧
        t.me.gst o.d.toNat = (if o.d = 0 then .full else .pending) ∧ t.me.pc = s.me.pc + 4 ∧
        t.me.pend = s.me.pend ++ [⟨.g o.d.toNat, .sent r, s.me.seq, [], none⟩] ∧ KeepsRegs [o.d.toNat] s.me t.me) ∧
      (o.ty.toNat < 4 → ∀ old x c : Nat, old < 2 ^ (8 * n) → x < 2 ^ (8 * n) → c < 2 ^ (8 * n) →
        (∀ e ∈ Said.atomics, opval e.1 o.ty.toNat old x c =
          ((if o.ty.toNat < 2 then e.2.1 else e.2.2) (8 * n) (BitVec.ofNat (8 * n) old) (BitVec.ofNat (8 * n) x)).toNat) ∧
        opval 6 o.ty.toNat old x c = x ∧ opval 7 o.ty.toNat old x c = (if old = c then x else old) ∧
        atomResult o.ty old = if o.ty = 0 then (BitVec.ofNat 32 old).signExtend 64 else BitVec.ofNat 64 old)

/-- The first outstanding atomic of a strand, still at its core and with no earlier ST or ATOM unperformed: in a
scratchpad with no failed sector it is executed there, the bytes become the value of R328, every other byte reads as
before, and its producer owes the old value by R327; in global memory it publishes the log and leaves. One to device
memory that has left, whose links are alive and whose line, after the pressing of R295, holds no error, is executed
at its home: the bytes become the value of R328, every byte outside them reads as after the pressing, the line's key
becomes its old TIME plus 1 (saturating) with the core, and the atomic's producer owes the old value. (R295, R320,
R321, R327) -/
def Obligations.AtomsExecuteAtTheHome : Prop :=
  ∀ (core seq : Nat) (r : AtomReq) (s : State), core < 384 →
    let n := if r.ty = 1 ∨ r.ty = 3 then 8 else 4
    ((s.strand core).firstAtom = some (seq, r, false) → (s.strand core).atomLeaves seq = true →
      (isGlobal r.pa = false → mfind s.failed (r.pa / 64) = none → ∃ t, exec (.atomHomeExecute core) s = .next t ∧
        memNat t.mem r.pa n = r.value (memNat s.mem r.pa n) % 2 ^ (8 * n) ∧ SameOutside r.pa n s t ∧
        ∃ p ∈ (t.strand core).pend, p.seq = seq ∧ p.src = .word (atomResult r.ty (memNat s.mem r.pa n))) ∧
      (isGlobal r.pa = true → ∃ t, exec (.atomHomeExecute core) s = .next t ∧
        (t.log core).pub = (s.log core).app ∧ ∃ p ∈ (t.strand core).pend, p.seq = seq ∧ p.src = .sent r)) ∧
    ((s.strand core).firstAtom = some (seq, r, true) →
      let u := s.pressLine (r.pa / 64) (s.pressDies core r) core
      r.pa % n = 0 → isHost r.pa = false → s.linkDead core r.pa = false →
      mfind u.failed (r.pa / 64) = none → mfind u.poison (r.pa / 64) = none →
      ∃ t, exec (.atomHomeExecute core) s = .next t ∧
        memNat t.mem r.pa n = r.value (memNat u.mem r.pa n) % 2 ^ (8 * n) ∧
        SameOutside r.pa n u t ∧
        mget t.keys (r.pa / 64) ⟨0, 0⟩ = ⟨min ((u.lineKey (r.pa / 64)).time + 1) (2 ^ 48 - 1), core⟩ ∧
        ∃ p ∈ (t.strand core).pend, p.seq = seq ∧ p.src = .word (atomResult r.ty (memNat u.mem r.pa n)))

/-- PRESS_RECORD on a log whose first record is published, readable, of one line, and of a key not below the line's: the
bytes that its mask selects take its data and every other byte of memory is unchanged; the record leaves the log and
counts as pressed. PUBLICATION_POINT_ARRIVAL of the only point on its way lets the die count that publication.
LINE_RECALL of a line returns it to its home and changes nothing else. (R292, R293, R294, R320) -/
def Obligations.RecordsReachTheirHomes : Prop :=
  (∀ (core : Nat) (s : State) (r : Rec) (p : Part) (rest : List Rec), core < 384 →
      (s.log core).recs = r :: rest → r.idx < (s.log core).pub → r.badHeader = false → r.poison = none →
      r.parts = [p] → keyLe (s.lineKey p.line) r.key = true →
      ∃ t, exec (.pressRecord core) s = .next t ∧
        (∀ i, i < 64 → memByte t.mem (64 * p.line + i) =
          if p.mask.getLsbD i then p.data.extractLsb' (8 * i) 8 else memByte s.mem (64 * p.line + i)) ∧
        SameOutside (64 * p.line) 64 s t ∧ (t.log core).prs = (s.log core).prs + 1 ∧
        (t.log core).recs = (s.log core).recs.filter (fun x => x.idx != r.idx)) ∧
    (∀ (core die : Nat) (s : State) (p : Point), core < 384 → die < 6 → (s.log core).points = [p] →
      die ∉ p.reached → ∃ t, exec (.publicationPointArrival core die) s = .next t ∧
        (t.log core).pubAt die = (p.pub, p.stamp) ∧ SameMemory s t) ∧
    (∀ (line : Nat) (s : State), exec (.lineRecall line) s = .next { s with owned := mdel s.owned line })

/-- spfmt of a scratchpad address that passes the checks of a byte store, with Full sources, a listed format, nothing of
the core path outstanding on the bank: the write of gb[31:0] to the format register of the bank that holds the byte
waits for the end of the tick and memory is unchanged; with no other write waiting, at the end of the tick that
register, and no other, has the value; an unlisted format raises FORMAT and an address outside the scratchpad
regions raises PROTECT, each with the address in c.TVAL. spfmtq marks gd Pending with a producer that owes the
register's value. (R275, R276, R272, R278) -/
def Obligations.SpfmtSetsTheFormatOfItsBank : Prop :=
  ∀ (o : OpA) (s : State), s.cur < 384 → s.me.Ready o.a →
    let a := s.me.gval o.a.toNat
    let x : BitVec 32 := (s.me.gval o.b.toNat).setWidth 32
    (s.me.Ready o.b →
      (inScratch a = false → exec (.spfmt o) s = s.trap 0x05 a) ∧
      (∀ pa, inScratch a = true → s.Reaches a 1 .write pa →
        let bad := x.toNat / 2 ^ 16 ≠ 0 ∨ (8 ≤ x.toNat % 16 ∧ x.toNat % 16 ≤ 14)
        (bad → exec (.spfmt o) s = (s.touch s.cur a).trap 0x0E a) ∧
        (¬ bad → s.me.vectorMemoryDone = true → s.me.bankDue (bankOf pa) = false →
          ∃ t, exec (.spfmt o) s = .next t ∧ t.fmtDue = s.fmtDue ++ [(s.cur, bankCode (bankOf pa), x)] ∧
            SameMemory s t ∧ KeepsRegs [] s.me t.me ∧ t.me.pc = s.me.pc + 4 ∧
            (s.fmtDue = [] → t.applyFormats.format (bankOf pa) = x ∧
              (∀ b, b ≠ bankOf pa → t.applyFormats.format b = s.format b) ∧ SameMemory s t.applyFormats)))) ∧
    (s.me.Free o.d → ∀ pa, inScratch a = true → s.place s.cur a 1 .read = .at pa →
      exec (.spfmtq o) s = .next (s.donePend o.d (.word ((s.format (bankOf pa)).setWidth 64))))

/-- Every vector word that is neither a memory function nor serialising, whose checks at send pass and whose queue has
room, completes: it adds one command with its function, operands, prefix, rotation base and pair values, marks its
destination by R64, and goes on after its one or two words; nothing else changes. (R75, R76, R111, R112, R160, R64) -/
def Obligations.VectorWordsAreSentAsCommands : Prop :=
  ∀ (op : VOp) (o : OpV) (s : State), serialising op = false → isVMemory op = false → op ≠ .vlsld → op ≠ .vlsst →
    s.me.vocc < 16 + s.me.vweir.toNat →
    (s.me.MaySend op o Pre.none → exec (op.instr o) s = .next (s.sent op o Pre.none [] 1)) ∧
    (∀ (p : Pre) (w : IWord), vectorOf w = some (op, o) → s.me.MaySend op o p →
      exec (.pq p w) s = .next (s.sent op o p [] 2))

/-- vld and vst whose checks at send pass: a sum of the pair that is not a multiple of the element size raises MISALIGN
with it; one whose 512 bytes all reach memory, above no channel's watermark, is sent with the places of its runs.
vlsld and vlsst are sent when the sum is a multiple of 4 below 1,024, and raise MISALIGN or PROTECT otherwise. qld,
when its operand queue has room, adds a Pending entry with its address, and changes no register. Started by
VECTOR_COMMAND_START on scratchpad places without error, with the strand's own writes performed and no earlier
atomic outstanding: a VLD leaves its register owed the bytes of its active elements, the others as they were or zero
under zero-masking, and changes no memory; a VST leaves memory as it is and one group of writes that waits for its
sub-banks, which selects the active bytes of its data and no other. (R164, R165, R169, R183, R184, R186, R266, R118) -/
def Obligations.VectorMemoryWordsAreChecked : Prop :=
  ∀ (o : OpV) (s : State),
    let a := s.me.gval (pairRegs o).1.toNat + s.me.gval (pairRegs o).2.toNat
    let l := linePieces 9 a.toNat 512
    (∀ op ∈ [VOp.vld, VOp.vst], s.me.MaySend op o Pre.none → s.me.vocc < 16 + s.me.vweir.toNat →
      (a.toNat % memBytesOf o ≠ 0 → exec (op.instr o) s = s.trap 0x03 a) ∧
      (∀ ps, a.toNat % memBytesOf o = 0 → s.places s.cur (op == .vst) l = .ok ps → s.me.guards l = none →
        exec (op.instr o) s = .next ((s.touchAll s.cur l).sent op o Pre.none ps 1))) ∧
    (∀ op ∈ [VOp.vlsld, VOp.vlsst], s.me.MaySend op o Pre.none → s.me.vocc < 16 + s.me.vweir.toNat →
      exec (op.instr o) s = if a.toNat % 4 ≠ 0 then s.trap 0x03 a else if 1024 ≤ a.toNat then s.trap 0x05 a
        else .next (s.sent op o Pre.none [] 1)) ∧
    (∀ ps, s.me.MaySend .qld o Pre.none → a.toNat % memBytesOf o = 0 → s.places s.cur false l = .ok ps →
      s.me.guards l = none →
      let q := o.vd.toNat - 28
      (mget s.me.vq q []).length < 4 + (s.me.vqweir.contains q).toNat →
      exec (.qld o) s = .next ((s.touchAll s.cur l).doneWith { s.me with
        vq := mset s.me.vq q (mget s.me.vq q [] ++ [⟨.pending, a, s.me.seq, 0, ps, 0⟩]) })) ∧
    (∀ (core : Nat) (c : VCmd) (rest : List VCmd), s.HeadReady core c rest → (s.strand core).atomDue c.seq = false →
      (s.strand core).writes = [] → InScratch c.pieces → (entryAddrs c.pieces).length = 512 →
      let u := s.strand core
      let w := 8 * memBytesOf c.o
      let act := fun j : Nat => activeLane (u.kval (physK c.base c.pre.k.toNat)) w (8 * j / w)
      let at_ := fun j : Nat => (entryAddrs c.pieces).getD j 0
      (c.op = .vld → c.o.vd.toNat < 28 → (∀ p ∈ c.pieces, s.linkDead core p.1 = false ∧ mfind s.failed (p.1 / 64) = none) →
        ∃ t v, s.Starts core rest 0 t ∧ u.writesV (t.strand core) c true v ∧ ∀ j, j < 512 → elem v 8 j =
          if act j then (memByte s.mem (at_ j)).toNat else if c.pre.zm then 0 else elem (u.vval (physV c.base c.o.vd.toNat)) 8 j) ∧
      (c.op = .vst → u.Holds c.o.vd 0 → u.NoLoads → (s.log core).fits 0 = true → (entryAddrs c.pieces).Nodup →
        ∃ t, s.Starts core rest 0 t ∧
          ((∀ j, j < 512 → act j = false) → (t.strand core).writes = []) ∧
          ((∃ j, j < 512 ∧ act j = true) → ∃ w, (t.strand core).writes = [w] ∧ w.path = 1 ∧ w.tag = c.seq ∧
            (∀ x ∈ w.parts, ∀ i b, x.2[i]? = some (b, true) → ∃ j, j < 512 ∧ act j = true ∧ at_ j = x.1 + i) ∧
            ∀ j, j < 512 → act j = true → ∃ x ∈ w.parts, x.1 ≤ at_ j ∧
              x.2[at_ j - x.1]? = some (BitVec.ofNat 8 (elem (u.operand c.base c.o.vd 0) 8 j), true))))

/-- A serialising word whose checks at send pass, with an empty command queue, no register owed a value and every queue
entry filled (so that each source can be read), completes. venc4 and vdec4 write what R174 computes, or raise
FORMAT: venc4 with more than 16 outliers, vdec4 of a segment that is not well formed. With the earlier vector stores
performed and no earlier atomic outstanding, vlds and vldx whose active lanes are aligned and lie in scratchpad
memory mark vd Pending with a producer that has every active lane, with its place, still to read, and vsts and vstx
there leave memory as it is and leave groups of writes that wait for their sub-banks: each selects bytes of active
lanes alone, and the last lane that names a byte has its byte among them. (R163, R164, R174, R183, R184, R186, R266) -/
def Obligations.SerialisingWordsRunWhole : Prop :=
  ∀ (op : VOp) (o : OpV) (s : State), s.me.MaySend op o Pre.none → s.me.vcq = [] →
    s.me.vocc < 16 + s.me.vweir.toNat → s.me.AllRead →
    let c := s.vcmd op o
    let r := s.me.taken op o
    let x := r.input c
    (op = .venc4 ∨ op = .vdec4 → (x.compute op o).1 ≠ .format → exec (op.instr o) s = .next (s.doneWith
      (((r.t.markDest op o).result c (x.compute op o)).srAfter op o x))) ∧
    (op = .venc4 ∨ op = .vdec4 → (x.compute op o).1 = .format → exec (op.instr o) s = s.trap 0x0E 0) ∧
    (let n := memBytesOf o
     let ls := activeLanes c x.act x.b
     let u := s.inCommandOrder s.cur
     ∀ ps, s.me.atomDue s.me.seq = false → (∀ l ∈ ls, l.2 % n = 0) →
      u.places s.cur (isVStore op) (ls.map (fun l => (l.2, n))) = .ok ps →
      s.me.guards (ls.map (fun l => (l.2, n))) = none → InScratch ps →
      let lanes := (ls.zip ps).map (fun e => (e.1.1, e.1.2, e.2.1))
      (op = .vlds ∨ op = .vldx →
        ∃ t src, exec (op.instr o) s = .next t ∧ t.me.pc = s.me.pc + 4 ∧ KeepsRegs [] s.me t.me ∧ SameMemory u t ∧
          t.me.pend = s.me.pend ++ [⟨.v (destV op o s.me.vrb), src, s.me.seq, [], some op⟩] ∧
          (lanes ≠ [] → src = .lanes ⟨n, false, x.d.getD 0 0, lanes, [], none⟩)) ∧
      (op = .vsts ∨ op = .vstx → s.me.qldBefore s.me.seq ps = false → s.me.NoLoads → (s.log s.cur).fits 0 = true →
        ∃ t, exec (op.instr o) s = .next t ∧ t.me.pc = s.me.pc + 4 ∧ KeepsRegs [] s.me t.me ∧ SameMemory u t ∧
          (∀ w ∈ t.me.writes, w ∈ s.me.writes ∨ (w.path = 1 ∧ w.tag = s.me.seq ∧
            ∀ y ∈ w.parts, ∀ i b, y.2[i]? = some (b, true) → ∃ p ∈ ps, p.1 ≤ y.1 + i ∧ y.1 + i < p.1 + n)) ∧
          ∀ (k : Nat) (e : (Nat × Nat) × (Nat × Nat)), (ls.zip ps)[k]? = some e →
            (∀ (m : Nat) (f : (Nat × Nat) × (Nat × Nat)), k < m → (ls.zip ps)[m]? = some f →
              overlap e.2.1 n f.2.1 n = false) →
            ∀ i, i < n → ∃ w ∈ t.me.writes, w.path = 1 ∧ w.tag = s.me.seq ∧ ∃ y ∈ w.parts, y.1 ≤ e.2.1 + i ∧
              y.2[e.2.1 + i - y.1]? =
                some (BitVec.ofNat 8 (elem ((r.role .d).headD 0) (8 * n) e.1.1 / 256 ^ i), true)))

/-- When the head of a core's vector command queue has its sources, registers or queue heads, and no register is owed a
value, VECTOR_COMMAND_START runs it, the command leaves the queue, and no byte of memory, no general register and no
other vector register changes. The lane-wise functions of R171, R172, R175, R176 and R180: each active lane takes
the function of its lane, each other one keeps its value or becomes zero under zero-masking, and c.FFLAGS takes the
OR of the flags of the active lanes; those of R180 leave a producer that owes the register. The conversions do so
over groups; vexpand gives the active lanes the first elements in order, vcompress the active elements and then vb,
vset one element. Compares write w/4 predicate bits for each active lane, and predicate operations whole predicates
(nothing to k0). vget, kpopc and kfirst owe a general register its word; vrmax and vrmin owe element 0 and zeros.
(R40, R57, R60, R160, R165, R166, R171, R172, R173, R176, R177, R180) -/
def Obligations.LanesComputeByThemselves : Prop :=
  ∀ (core : Nat) (s : State) (c : VCmd) (rest : List VCmd), s.HeadReady core c rest →
    let u := s.strand core
    let ty := c.o.ty
    let w := tyWidth ty
    let n := 4096 / w
    let d := physV c.base c.o.vd.toNat
    let k := u.kval (physK c.base c.pre.k.toNat)
    let a := elem (u.operand c.base c.o.va 0) w
    let b := elem (u.operand c.base c.o.vb (secondPop c.o)) w
    let old := elem (u.vval d) w
    let r : Rnd := ⟨u.rmode c.pre.rm, c.pre.sat, u.srstate⟩
    (∀ e ∈ Said.lanes, c.op = e.1 → e.2.1 ty = true → c.o.vd.toNat < 28 →
      let f := e.2.2.2 ty r c.p0 c.p1 a b old
      ∃ t v, s.Starts core rest ((activeAt k w).foldl (fun x i => x ||| (f i).2) 0) t ∧ u.writesV (t.strand core) c e.2.2.1 v ∧
        ∀ i, i < n → elem v w i = if activeLane k w i then (f i).1 % 2 ^ w else if c.pre.zm then 0 else old i) ∧
    (c.op = .vexpand → c.o.vd.toNat < 28 → ∃ t v, s.Starts core rest 0 t ∧ u.writesV (t.strand core) c false v ∧
      ∀ i, i < n → elem v w i = if activeLane k w i then a ((activeAt k w).filter (· < i)).length
        else if c.pre.zm then 0 else old i) ∧
    (c.op = .vcompress → c.o.vd.toNat < 28 → ∃ t v, s.Starts core rest 0 t ∧ u.writesV (t.strand core) c false v ∧
      ∀ i, i < n → elem v w i = (((activeAt k w)[i]?).map a).getD (b i)) ∧
    (c.op = .vset → c.o.vd.toNat < 28 → ∃ t v, s.Starts core rest 0 t ∧ u.writesV (t.strand core) c false v ∧
      ∀ i, i < n → elem v w i = if i = c.p0.toNat % n then c.p1.toNat % 2 ^ w else old i) ∧
    (let wd := tyWidth (cvtTy c.o)
     let m := Nat.min w wd
     (c.op = .vcvt ∧ w = wd) ∨ (c.op = .vcvtw ∧ (wd = 2 * w ∨ wd = 4 * w)) ∨ (c.op = .vcvtn ∧ (w = 2 * wd ∨ w = 4 * wd)) →
      (m < w → c.o.va.toNat + w / m ≤ 28) → c.o.vd.toNat + wd / m ≤ 28 →
      let x := fun i : Nat => if m = w then a i else elem (u.vval (physV c.base (c.o.va.toNat + i % (w / m)))) w (i / (w / m))
      let f := fun i : Nat => cvtLane ty.toNat (cvtTy c.o).toNat r i (x i)
      ∃ t, s.Starts core rest ((activeAt k m).foldl (fun y i => y ||| (f i).2) 0) t ∧ (t.strand core).pend = u.pend ∧
        (∀ i, i < 4096 / m → elem ((t.strand core).vval (physV c.base (c.o.vd.toNat + i % (wd / m)))) wd (i / (wd / m)) =
          if activeLane k m i then (f i).1 % 2 ^ wd else if c.pre.zm then 0
          else elem (u.vval (physV c.base (c.o.vd.toNat + i % (wd / m)))) wd (i / (wd / m))) ∧
        ∀ z, (∀ j, j < wd / m → z ≠ physV c.base (c.o.vd.toNat + j)) → (t.strand core).vval z = u.vval z) ∧
    (let q := physK c.base (c.o.vd.toNat % 8)
     (∀ (g : Nat → Bool) (fl : Nat → Flags),
      (∃ e ∈ Said.icmps, c.op = .vicmp ∧ ty.toNat < 4 ∧ c.o.gp.toNat = e.1 ∧ g = (fun i => e.2 w (a i) (b i)) ∧ fl = fun _ => 0) ∨
        (c.op = .vfcmp ∧ 4 ≤ ty.toNat ∧ ty.toNat < 7 ∧ c.o.gp.toNat < 8 ∧
          (let z := fun i : Nat => fcmp c.o.gp.toNat (valOf (fmtOf ty.toNat) (a i)) (valOf (fmtOf ty.toNat) (b i))
           g = (fun i => (z i).1) ∧ fl = fun i => (z i).2)) →
      ∃ t, s.Starts core rest ((activeAt k w).foldl (fun x i => x ||| fl i) 0) t ∧
        (∀ i j, q ≠ 0 → i < n → j < w / 4 → ((t.strand core).kval q).getLsbD (i * (w / 4) + j) =
          if activeLane k w i then g i else if c.pre.zm then false else (u.kval q).getLsbD (i * (w / 4) + j)) ∧
        (∀ z, z ≠ q ∨ z = 0 → (t.strand core).kval z = u.kval z) ∧ ∀ z, (t.strand core).vval z = u.vval z) ∧
     ∀ e ∈ Said.predicates, c.op = e.1 → ∃ t, s.Starts core rest 0 t ∧
      (q ≠ 0 → (t.strand core).kval q =
        e.2 (u.kval (physK c.base (c.o.va.toNat % 8))) (u.kval (physK c.base (c.o.vb.toNat % 8)))) ∧
      (∀ z, z ≠ q ∨ z = 0 → (t.strand core).kval z = u.kval z) ∧ ∀ z, (t.strand core).vval z = u.vval z) ∧
    (let hits := (activeAt k w).filter (activeLane (u.kval (physK c.base (c.o.va.toNat % 8))) w)
     let y := a (c.p0.toNat % n)
     ∀ x : Word,
      (c.op = .vget ∧ x = (if ty ∈ [(0 : BitVec 3), 2, 3] then BitVec.ofInt 64 (Said.signed w y) else BitVec.ofNat 64 y)) ∨
        (c.op = .kpopc ∧ x = BitVec.ofNat 64 hits.length) ∨ (c.op = .kfirst ∧ x = BitVec.ofNat 64 (hits.headD n)) →
      ∃ t, s.Starts core rest 0 t ∧ (∀ z, (t.strand core).vval z = u.vval z) ∧
        (t.strand core).pend = u.pend ++ [⟨.g c.o.vd.toNat, .word x, c.seq, [], some c.op⟩]) ∧
    (∀ great : Bool, c.op = (if great then .vrmax else .vrmin) → c.o.vd.toNat < 28 →
      let l := (activeAt k w).map a
      ∃ t v fl, s.Starts core rest fl t ∧ u.writesV (t.strand core) c true v ∧ (∀ i, 0 < i → i < n → elem v w i = 0) ∧
        (ty.toNat < 4 → fl = 0 ∧
          (l = [] → elem v w 0 = if great then (if ty = 1 then 0 else 2 ^ (w - 1)) else if ty = 1 then 2 ^ w - 1 else 2 ^ (w - 1) - 1) ∧
          (l ≠ [] → elem v w 0 ∈ l ∧ ∀ y ∈ l,
            if great then Said.intOf ty y ≤ Said.intOf ty (elem v w 0) else Said.intOf ty (elem v w 0) ≤ Said.intOf ty y)) ∧
        (4 ≤ ty.toNat → ty.toNat < 7 → (elem v w 0, fl) =
          let q := l.foldl (fun (m : Val × Flags) y =>
            let z := fminmax great false m.1 (valOf (fmtOf ty.toNat) y)
            (z.1, m.2 ||| z.2)) (.inf great, 0)
          ((roundVal (fmtOf ty.toNat) 0 false 0 q.1).1 % 2 ^ w, q.2)))

/-- QLD_READ, with no earlier atomic outstanding, fills the first Pending entry in program order; in scratchpad memory
without error and with the strand's own writes performed, it holds the bytes of its places, but for those that
earlier vector stores of the strand patched. A VSUM or VSCAN that starts joins the queue of its cluster's tile with
its active lanes and leaves its registers owed. REDUCTION_ACCEPT gives the next command of a tile in turn its
result, and its flags to its strand. A producer blocked for 4,096 ticks on a full bounded queue, with no float of
its own, launches one to the queue's consumers; a copy that reaches its origin still blocked there grants the weir
and ends the float. That a tile which has accepted nothing starts at core 0, and which consumers and grants a float
has, are the model's choice (logs 70, 89). (R113, R114, R115, R170, R181) -/
def Obligations.QueuesReductionsAndFloats : Prop :=
  (∀ (core q i : Nat) (s : State) (e : QEntry), core < 384 → (s.strand core).firstQld = some (q, i) →
      (mget (s.strand core).vq q [])[i]? = some e → (s.strand core).atomDue e.seq = false →
      InScratch e.pieces → (entryAddrs e.pieces).length = 512 →
      (∀ p ∈ e.pieces, s.linkDead core p.1 = false ∧ mfind s.failed (p.1 / 64) = none) →
      ∃ t d, exec (.qldRead core) s = .next t ∧
        (mget (t.strand core).vq q [])[i]? = some { e with fe := .full, data := d } ∧
        ((s.strand core).coreWritesDone = true → SameMemory s t ∧
          ∀ j, j < 512 → elem d 8 j = if e.patched.getLsbD j then elem e.data 8 j
            else (memByte s.mem ((entryAddrs e.pieces).getD j 0)).toNat)) ∧
    (∀ (core : Nat) (s : State) (c : VCmd) (rest : List VCmd), s.HeadReady core c rest → c.o.vd.toNat < 28 →
      let u := s.strand core
      let w := tyWidth c.o.ty
      let k := u.kval (physK c.base c.pre.k.toNat)
      let ds := (List.range (if c.op = .vscan then 32 / w else 1)).map (fun j => physV c.base (c.o.vd.toNat + j))
      c.op = .vsum ∨ c.op = .vscan → ∃ t, s.Starts core rest 0 t ∧ (∀ z, (t.strand core).vval z = u.vval z) ∧
        (t.strand core).pend = u.pend ++ [⟨.v ds, .reduce c.seq, c.seq, [], some c.op⟩] ∧
        mget t.red (core / 4) [] = mget s.red (core / 4) [] ++ [⟨core, c.seq, c.op == .vscan, c.o.ty,
          u.operand c.base c.o.va 0, (List.range (4096 / w)).map (activeLane k w), c.pre.zm, ds.map u.vval, ds⟩]) ∧
    (∀ (cluster : Nat) (s : State) (c : RedCmd), cluster < 96 →
      nextRed (mget s.redTurn cluster 3) (mget s.red cluster []) = some c →
      let r := tileResult c.scan c.ty.toNat (fun i => c.act.getD i false) c.zm c.src c.old
      ∃ t, exec (.reductionAccept cluster) s = .next t ∧ SameMemory s t ∧
        (t.strand c.core).fflags = (s.strand c.core).fflags ||| r.2 ∧
        (t.strand c.core).pend = (s.strand c.core).pend.map
          (fun p => if p.seq = c.seq then { p with src := .vec r.1, lift := [] } else p) ∧
        mget t.redTurn cluster 3 = c.core % 4) ∧
    (∀ (a : Agent) (s : State) (q : QRef) (b : Nat), agentThere a = true → s.blockedOn a = some q →
      s.blockedSince a = some b → b + 4096 ≤ s.now → (∀ f ∈ s.floats, f.holds a s.now = false) →
      exec (.floatLaunch a) s = .next { s with floats := s.floats.filter (fun f => f.origin != a) ++
        [⟨a, q, s.now, (s.consumersOf q).map (fun x => (x, 0))⟩] }) ∧
    (∀ (n : Nat) (s : State) (f : FloatTok) (c : Agent × Nat), s.floats[n]? = some f →
      f.copies.find? (fun c => c.1 == f.origin) = some c → s.blockedOn f.origin = some f.queue →
      exec (.floatHop n f.origin) s =
        .next { s.grantWeir (agentIsTable f.origin) f.queue with
          floats := (s.grantWeir (agentIsTable f.origin) f.queue).floats.set n { f with copies := [] } })

/-- flease and flease.fix of an unleased handle with Full sources and a shape that could be granted enqueue one request
with the strand, context, queue, shape, place, world, deadline and tick, and wait, and the allocator arbitrates; a
leased handle or a shape above 16 tiles a side raises FRAG_STATE. LEASE_GRANT of a granted request ends the waiting
instruction: the handle is bound to a new fragment of the rectangle, the request has left, and the strand goes on at
the next word (with no single step set). Without a pending request the wait is over, and the instruction ends at the
next word. The context of a request made in F mode, which the check of bank grants does not bind, and the queue of a
strand of no group are the model's choice (logs 7, 15). (R196, R197, R200, R212) -/
def Obligations.LeasesAreRequestedAndEnd : Prop :=
  ∀ (o : OpE) (s : State), ∀ e ∈ [(Instr.flease o, false), (Instr.fleaseFix o, true)],
    let n := (s.me.gval o.a.toNat).toNat
    let d := s.cur / 64
    let r : LeaseReq :=
      { core := s.cur, asid := if s.me.mode then none else s.me.asid, h := o.h.toNat, qid := s.queueOf s.cur,
        lh := n / 256 % 8, lw := n / 4096 % 8, fix := if e.2 then some (n % 16, n / 16 % 16) else none,
        secure := s.worldOf s.cur, deadline := s.me.gval o.b.toNat, tick := s.now, regrant := none, grant := none }
    (s.me.wait = none → s.me.Ready o.a → s.me.Ready o.b →
      (mfind s.me.frag o.h.toNat = none → r.lh ≤ 4 → r.lw ≤ 4 → s.neverFits d r = false →
        exec e.1 s = .next ((s.setDie d { s.die d with
          reqs := (s.die d).reqs ++ [r], arb := true }).waitOn ⟨1, 0, 0, s.now⟩ .lease)) ∧
      ((mfind s.me.frag o.h.toNat).isSome = true ∨ 4 < r.lh ∨ 4 < r.lw → exec e.1 s = s.trap 0x07 0)) ∧
    (s.me.wait.isSome = true → (∀ q ∈ (s.die d).reqs, q.core = s.cur → q.regrant.isSome = true) →
      exec e.1 s = .next (s.doneWith s.me)) ∧
    (∀ (q : LeaseReq) (a b seq : Nat), s.cur < 384 → s.me.ss = false →
      (s.die d).reqs.find? (fun q => q.core == s.cur && q.grant.isSome) = some q → q.grant = some (a, b, seq) →
      q.regrant = none → ∃ t, exec (.leaseGrant s.cur) s = .next t ∧ (t.die d).reqs = (s.die d).reqs.erase q ∧
        mfind t.me.frag q.h = some (newFrag ⟨a, b, q.lh, q.lw⟩ seq d q.secure q.qid) ∧
        t.me.st = .running ∧ t.me.wait = none ∧ t.me.pc = s.me.pc + 4 ∧ KeepsRegs [] s.me t.me ∧ SameMemory s t)

/-- The arbitration of a die where something has changed, with one request that can be placed, grants it the first legal
free rectangle and the lowest free sequencer, and its tiles are Leased. A grant to a Saved strand binds the saved
fragment to that rectangle in its image, with zero planes. A request that has waited 65,536 ticks receives the
reservation of a die that has none. A tile whose scrub is due becomes Free, or Suspect. A request past its deadline
that cannot be placed is withdrawn, and its strand goes on at the next word with the handle unleased. (R197, R198,
R199, R200, R209, R212) -/
def Obligations.TheAllocatorGrantsReservesAndScrubs : Prop :=
  (∀ (die : Nat) (s : State) (r : LeaseReq) (q : Rect) (seq : Nat), die < 6 → (s.die die).reqs = [r] →
      (s.die die).arb = true → r.grant = none → s.canPlace die r = some q → (s.die die).freeSeq = some seq →
      ∃ t, exec (.allocatorArbitration die) s = .next t ∧ seq ∈ (t.die die).seqs ∧
        (t.die die).reqs = [{ r with grant := some (q.row0, q.col0, seq) }] ∧
        (∀ i ∈ q.tiles, mget (t.die die).tiles i 0 = 1) ∧
        ∀ i, i ∉ q.tiles → mget (t.die die).tiles i 0 = mget (s.die die).tiles i 0) ∧
    (∀ (core : Nat) (s : State) (r : LeaseReq) (a b seq : Nat), core < 384 →
      (s.die (core / 64)).reqs.find? (fun r => r.core == core && r.grant.isSome) = some r →
      r.grant = some (a, b, seq) → ∀ (g : Nat) (i : Image) (x : Nat × Frag), r.regrant = some g →
      mfind s.images (512 * g + core) = some i → i.reclaimed.find? (fun x => x.1 == r.h) = some x →
      ∃ t j, exec (.leaseGrant core) s = .next t ∧ (t.die (core / 64)).reqs = (s.die (core / 64)).reqs.erase r ∧
        mfind t.images (512 * g + core) = some j ∧ r.h ∈ j.regranted ∧
        mfind j.strand.frag r.h = some { x.2 with
          row0 := a, col0 := b, seq := seq, plane0 := [], plane1 := [], suspect := false, bad := [], proof := 0 } ∧
        t.strand core = s.strand core ∧ SameMemory s t) ∧
    (∀ (die : Nat) (s : State) (r : LeaseReq) (q : Rect), die < 6 → (s.die die).reqs = [r] → r.grant = none →
      (s.die die).resv = none → r.tick + 65536 ≤ s.now → s.reserveRect die r = some q →
      exec (.reservation die) s =
        .next (s.setDie die { s.die die with
          resv := some ⟨r.core, r.h, r.regrant, q.row0, q.col0, q.lh, q.lw⟩, arb := true })) ∧
    (∀ (die i tick : Nat) (s : State) (suspect : Bool), die < 6 → (s.die die).scrub = [(i, tick, suspect)] →
      tick ≤ s.now → ∃ t, exec (.scrubComplete die) s = .next t ∧ (t.die die).scrub = [] ∧
        mget (t.die die).tiles i 0 = if suspect then 3 else 0) ∧
    (∀ (core : Nat) (s : State) (r : LeaseReq), core < 384 → (s.die (core / 64)).reqs = [r] → r.core = core →
      r.grant = none → r.regrant = none → r.deadline ≠ 0 → r.deadline.toNat ≤ (s.ptime core).toNat →
      s.canPlace (core / 64) r = none → (s.strand core).ss = false →
      ∃ t, exec (.fleaseDeadline core) s = .next t ∧ (t.die (core / 64)).reqs = [] ∧
        (t.strand core).pc = (s.strand core).pc + 4 ∧ (t.strand core).wait = none ∧
        (t.strand core).frag = (s.strand core).frag ∧ SameMemory s t)

/-- ffree of a leased fragment that neither runs nor reshapes unleases the handle, puts its tiles into Scrubbing and
frees its sequencer. fsplit and ffuse, with or without discard, of fragments whose tables do not run (a table that
had faulted before holds nothing up), whose banks are empty and which no link joins, complete at once: the halves or
the union lie where R214 and R215 say, and gd takes the deckles. fquery leaves gb owed the word of R217: zero of an
unleased handle; else the deckle, the state, the links and their partners, each in its bits. (R191, R200, R201,
R202, R213, R214, R215, R217) -/
def Obligations.FragmentsAreFreedSplitAndFused : Prop :=
  ∀ (o : OpE) (s : State), s.me.wait = none → o.h.toNat < 4 →
    let h := o.h.toNat
    let x := s.me.gval o.a.toNat
    (∀ f, mfind s.me.frag h = some f → f.tbl.busy = false → f.reshaping = false →
      ∃ t, exec (.ffree o) s = .next t ∧ mfind t.me.frag h = none ∧ f.seq ∉ (t.die f.die).seqs ∧
        (∀ i ∈ f.rect.tiles, mget (t.die f.die).tiles i 0 = 2) ∧ KeepsRegs [] s.me t.me ∧ t.me.pc = s.me.pc + 4) ∧
    (∀ f seq, s.me.Ready o.a → s.me.Free o.b → mfind s.me.frag h = some f → f.suspect = false →
      s.me.linked h = false → mfind s.me.frag (x.toNat % 4) = none → f.tbl.busy = false → f.bankEmpty = true →
      (s.die f.die).freeSeq = some seq →
      (if x.getLsbD 8 then f.lw else f.lh) ≠ 0 → ∀ i ∈ [Instr.fsplit o, .fsplitDiscard o],
      ∃ t a b, exec i s = .next t ∧ mfind t.me.frag h = some a ∧ mfind t.me.frag (x.toNat % 4) = some b ∧
        a.row0 = f.row0 ∧ a.col0 = f.col0 ∧ a.seq = f.seq ∧ b.seq = seq ∧ b.tbl = Tbl.start ∧
        (if x.getLsbD 8 then
          a.lh = f.lh ∧ b.lh = f.lh ∧ a.lw = f.lw - 1 ∧ b.lw = f.lw - 1 ∧ b.row0 = f.row0 ∧
            b.col0 = f.col0 + 2 ^ (f.lw - 1)
         else a.lw = f.lw ∧ b.lw = f.lw ∧ a.lh = f.lh - 1 ∧ b.lh = f.lh - 1 ∧ b.col0 = f.col0 ∧
            b.row0 = f.row0 + 2 ^ (f.lh - 1)) ∧
        (o.b ≠ 0 → t.me.gval o.b.toNat = BitVec.ofNat 64 (a.deckle + b.deckle * 2 ^ 32)) ∧
        KeepsRegs [o.b.toNat] s.me t.me) ∧
    (∀ f g u, s.me.Ready o.a → s.me.Free o.b → mfind s.me.frag h = some f → mfind s.me.frag (x.toNat % 4) = some g →
      h ≠ x.toNat % 4 → f.suspect = false → g.suspect = false → s.me.linked h = false →
      s.me.linked (x.toNat % 4) = false → f.rect.union g.rect = some u → f.tbl.busy = false → g.tbl.busy = false →
      f.bankEmpty = true → g.bankEmpty = true → ∀ i ∈ [Instr.ffuse o, .ffuseDiscard o],
      ∃ t a, exec i s = .next t ∧ mfind t.me.frag h = some a ∧ mfind t.me.frag (x.toNat % 4) = none ∧ a.rect = u ∧
        a.seq = f.seq ∧ a.tbl = f.tbl ∧ g.seq ∉ (t.die f.die).seqs ∧
        (o.b ≠ 0 → t.me.gval o.b.toNat = BitVec.ofNat 64 a.deckle) ∧ KeepsRegs [o.b.toNat] s.me t.me) ∧
    (s.me.Free o.b → ∃ r, exec (.fquery o) s = .next (s.donePend o.b (.word r)) ∧
      (mfind s.me.frag h = none → r = 0) ∧
      ∀ f, mfind s.me.frag h = some f → f.row0 < 16 → f.col0 < 16 → f.lh < 8 → f.lw < 8 → f.seq < 16 → f.die < 8 →
        (∀ l, f.link = some l → l.dst < 4) → (∀ g ∈ s.me.frag, g.1 < 4) → Said.FragWord s.me h f r)

/-- fchain of two leased, adjacent fragments that are not suspect, where neither the first has an outgoing link nor the
second an incoming one and no circle closes, makes an empty link with its counts at zero. funchain of an empty link
into which no DRAIN is in progress takes it away. RESHAPE_COMPLETE of a waiting split, fuse or unchain whose
condition holds ends the instruction at the next word. (R201, R203, R204, R216) -/
def Obligations.LinksAreMadeAndTakenAway : Prop :=
  (∀ (o : OpE) (s : State) (f g : Frag), s.me.Ready o.a →
      let h := o.h.toNat
      let k := (s.me.gval o.a.toNat).toNat % 4
      mfind s.me.frag h = some f → mfind s.me.frag k = some g → h ≠ k → f.suspect = false → g.suspect = false →
      f.rect.adjacent g.rect = true → f.link = none →
      (∀ y ∈ s.me.frag, ∀ l, y.2.link = some l → l.dst ≠ k) → s.me.reaches h 4 k = false →
      ∃ t a, exec (.fchain o) s = .next t ∧ mfind t.me.frag h = some a ∧ a.link = some ⟨k, [], false, 0, 0, 0⟩ ∧
        KeepsRegs [] s.me t.me ∧ SameMemory s t) ∧
    (∀ (o : OpE) (s : State) (f : Frag) (l : Link), s.me.wait = none → o.h.toNat < 4 →
      mfind s.me.frag o.h.toNat = some f → f.link = some l → l.entries = [] → f.tbl.cascading = false →
      ∃ t a, exec (.funchain o) s = .next t ∧ mfind t.me.frag o.h.toNat = some a ∧ a.link = none ∧
        KeepsRegs [] s.me t.me ∧ SameMemory s t) ∧
    (∀ (core : Nat) (s : State) (w : Wait), core < 384 → (s.strand core).why = .until .reshape →
      (s.strand core).wait = some w → (s.strand core).reshapeNext w = .done → (s.strand core).ss = false →
      ∃ t, exec (.reshapeComplete core) s = .next t ∧ (t.strand core).st = .running ∧ (t.strand core).wait = none ∧
        (t.strand core).pc = (s.strand core).pc + 4)

/-- On a handle that binds a table whose queue has room, with Full sources: tnest of a register that the kind of table
has, with a value it takes, tbase and tbase.now, trestart of a TSTART of a loaded matrix table, tgo of a table that
may start, tstop and tstop.mark each add their one command and go on; a handle that binds no table raises
FRAG_STATE. (R249, R251, R252, R253, R254, R255) -/
def Obligations.TableCommandsQueueForTheirTable : Prop :=
  ∀ (o : OpE) (s : State) (t : Tbl), s.me.Ready o.a → s.me.Ready o.b →
    let h := o.h.toNat
    let a := (s.me.gval o.a.toNat).toNat
    let v := s.me.gval o.b.toNat
    (s.tbl s.cur h = some t → s.tblRoom h = true →
      (configBad (decide (4 ≤ h)) (a % 256) v = false →
        exec (.tnest o) s = .next (s.doneCommand h (.nest (a % 256) (BitVec.ofNat 64 (v.toNat % 2 ^ configBits (a % 256)))))) ∧
      exec (.tbase o) s = .next (s.doneCommand h (.base (a % 4) v false)) ∧
      exec (.tbaseNow o) s = .next (s.doneCommand h (.base (a % 4) v true)) ∧
      (h < 4 → t.st ≠ .unloaded → tstartAt t.words (a % 256) = true →
        exec (.trestart o) s = .next (s.doneCommand h (.restart (a % 256)))) ∧
      (s.startCheck s.cur h = none →
        exec (.tgo o) s = .next (s.doneCommand h (.go s.me.frm s.me.srstate s.nextId))) ∧
      exec (.tstop o) s = .next (s.doneCommand h (.stop false)) ∧
      exec (.tstopMark o) s = .next (s.doneCommand h (.stop true))) ∧
    (s.tbl s.cur h = none → ∀ i ∈ [Instr.tnest o, .tbase o, .tbaseNow o, .trestart o, .tstop o, .tstopMark o],
      exec i s = s.trap 0x07 0)

/-- The first command of a fragment table's queue leaves the queue and applies: a nest value or base enters the shadow
registers (a base marked now also the live ones of a table that does not run); a restart label is kept; a go of a
Loaded or Halted table with no release waiting starts it at word 0 with the shadow registers live and the captured
rounding; a stop of a Running table stops it between steps, or at its next marker. (R224, R249, R251, R252, R253,
R254, R255) -/
def Obligations.TableCommandsApplyInOrder : Prop :=
  ∀ (core h : Nat) (s : State) (t : Tbl) (c : TCmd) (rest : List TCmd), core < 384 → h < 4 → s.tbl core h = some t →
    t.cmdq = c :: rest → ∃ u x, exec (.tableCommandApply core h) s = .next u ∧ u.tbl core h = some x ∧ x.cmdq = rest ∧
      KeepsRegs [] (s.strand core) (u.strand core) ∧
      (∀ i v, c = .nest i v → mget x.sh i 0 = v ∧ x.lv = t.lv ∧ x.st = t.st) ∧
      (∀ g v now, c = .base g v now → mget x.sh (8 + g) 0 = v ∧
        (now = true → t.st ≠ .running → mget x.lv (8 + g) 0 = v) ∧ (now = false → x.lv = t.lv)) ∧
      (∀ l, c = .restart l → x.restart = l ∧ x.rv = true) ∧
      (∀ frm sr k, c = .go frm sr k → t.st = .loaded ∨ t.st = .halted → t.frees = [] →
        x.st = .running ∧ x.upc = 0 ∧ x.lv = t.sh ∧ x.frm = frm ∧ x.sr = sr ∧ x.eseq = 0) ∧
      (c = .stop false → t.st = .running → t.inStep = false → x.st = .stopped ∧ x.upc = t.upc) ∧
      (c = .stop true → t.st = .running → x.st = .running ∧ x.markStop = true)

/-- tload, with or without keep, of a handle whose queue is empty and whose table does not run, from an aligned extent
that reads as a well-formed image of its kind, loads the table. fork of tables that may start and have no command
queued starts them; rdv of bound tables that are out of the Running state performs their window writes that still
wait and goes on, or raises the cause of the first faulted table with its handle. tstat leaves gb owed the word that
its form names: state, micro-PC, length, checkpoint, cause, kind, flags and restart label, or indices, or counts,
each in its bits; tstat.clr also clears the fragment's flags. The order of the flags within FLAGS is the model's
choice (log 21). (R130, R131, R222, R250, R256) -/
def Obligations.TablesLoadStartJoinAndReport : Prop :=
  (∀ (o : OpE) (s u : State) (t : Tbl) (l : List (Nat × Nat)) (pages : List PinRef) (g : Image0), s.me.Ready o.a →
      s.me.Ready o.b → s.tbl s.cur o.h.toNat = some t → s.tblDrained s.cur o.h.toNat = true → t.busy = false →
      let a := s.me.gval o.a.toNat
      a.toNat % 32 = 0 →
      (∀ k, s.resolved (s.extent s.cur false a extentRuns a.toNat (s.me.gval o.b.toNat).toNat []) k = k u l pages) →
      (u.die (s.cur / 64)).canPin pages = true → u.cur = s.cur →
      let r := u.readPieces s.cur (fun _ => true) 0 l
      r.err = none → readImage r.bytes = some g → imageOk (decide (4 ≤ o.h.toNat)) g = true →
      ∀ e ∈ [(Instr.tload o, false), (.tloadKeep o, true)],
        let v := (r.s.liftAll s.cur r.keys).setTbl s.cur o.h.toNat (t.load e.2 g)
        exec e.1 s = .next (v.doneWith v.me)) ∧
    (∀ (o : OpE) (s : State), s.me.Ready o.h →
      let hs := maskHandles (s.me.gval o.h.toNat).toNat
      ((∀ h ∈ hs, s.takeTCmd s.cur h = none ∧ s.startCheck s.cur h = none) →
        exec (.fork o) s = .next ((s.startAll s.cur hs).doneWith (s.startAll s.cur hs).me)) ∧
      ((∀ h ∈ hs, (s.tbl s.cur h).isSome = true ∧ s.tblOut s.cur h = true) →
        let u := hs.foldl (fun v h => v.performTable v.cur h) s
        ((∀ h ∈ hs, u.tblFault u.cur h = none) → exec (.rdv o) s = .next (u.doneWith u.me)) ∧
        (∀ h c tv, hs.find? (fun h => (u.tblFault u.cur h).isSome) = some h → u.tblFault u.cur h = some (c, tv) →
          exec (.rdv o) s = u.trapHandle c (BitVec.ofNat 4 (handleCode h)) tv))) ∧
    (∀ (o : OpE) (s : State) (t : Tbl), s.tbl s.cur o.h.toNat = some t → s.me.Free o.b →
      t.words.length ≤ 256 → t.upc < 256 → t.ck.upc < 256 → t.restart < 256 → (∀ i, t.idx.getD i 0 < 2 ^ 16) →
      t.eseq < 2 ^ 48 → t.ehw < 2 ^ 48 →
      (∀ e ∈ [(Instr.tstat o, 0), (.tstatIdx0 o, 1), (.tstatIdx4 o, 2), (.tstatEseq o, 3), (.tstatEhw o, 4)],
        ∃ r, exec e.1 s = .next (s.donePend o.b (.word r)) ∧ Said.TableWord s s.cur o.h.toNat t e.2 r) ∧
      ∃ r, exec (.tstatClr o) s = .next ((s.clearTblFlags s.cur o.h.toNat).donePend o.b (.word r)) ∧
        Said.TableWord s s.cur o.h.toNat t 8 r)

/-- A table that may start a step: nopt, wswap, epi and aclr of rows of the bank change only what R235 says and go on at
the next word; nest counts its level and jumps or goes on; jmpt jumps; haltt halts the table; proof whose pattern
sum is its literal skips its two words, with new contents in the proof registers, and otherwise makes the fragment
Suspect and the table Faulted on PROOF_MISMATCH; tstart is passed, or records a checkpoint of the micro-PC and
counters when the bank is empty and the link allows it. The new contents of the proof registers, for which R239
states none, are the model's free values (log 83). (R207, R220, R225, R233, R235, R240, R242) -/
def Obligations.MicroOrdersStep : Prop :=
  (∀ (s : State) (f : Frag), s.StepsFrag f →
      (∀ n, exec (.nopt n) s = .next (s.stepsTo f)) ∧
      exec .wswap s = .next (s.stepsTo { f with active1 := !f.active1 }) ∧
      (∀ act bi sc bs rm sat thr, exec (.epi act bi sc bs rm sat thr) s =
        .next (s.stepsTo { f with tbl := { f.tbl with epi := ⟨act, bi, sc, bs, rm, sat, thr⟩ } })) ∧
      (∀ (base rows : BitVec 9), 4 * base.toNat + 4 * (rows.toNat + 1) ≤ 128 * f.h → ∃ g,
        exec (.aclr base rows) s = .next (s.stepsTo g) ∧ g.plane0 = f.plane0 ∧ g.plane1 = f.plane1 ∧ g.tbl = f.tbl ∧
        (∀ r, mfind g.bank r = if 4 * base.toNat ≤ r ∧ r < 4 * base.toNat + 4 * (rows.toNat + 1) then none
          else mfind f.bank r)) ∧
      (∀ seed bf literal,
        (proofSum seed.toNat bf f.h f.w = literal → exec (.proof seed bf literal) s =
          .next (({ s with freeCtr := s.freeCtr + 1 } : State).setFrag s.cur s.curTable
            { f with tbl := f.tbl.stepped (f.tbl.upc + 2), proof := s.freeCtr })) ∧
        (proofSum seed.toNat bf f.h f.w ≠ literal → ∃ t g, exec (.proof seed bf literal) s = .next t ∧
          mfind t.me.frag s.curTable = some g ∧ g.suspect = true ∧ g.tbl.st = .faulted ∧ g.tbl.cause = 0x0D)) ∧
      (s.me.reshapeReady s.curTable = false →
        (s.me.checkpointable f = false → exec .tstart s = .next (s.stepsTo f)) ∧
        (s.me.checkpointable f = true → f.tbl.frees = [] → ∃ t g, exec .tstart s = .next t ∧
          mfind t.me.frag s.curTable = some g ∧ g.tbl.upc = f.tbl.upc + 1 ∧ g.tbl.ck.upc = f.tbl.upc ∧
          g.tbl.ck.idx = f.tbl.idx ∧ g.tbl.ck.eseq = f.tbl.eseq ∧ g.tbl.since = 0 ∧ SameMemory s t))) ∧
    (∀ (s : State) (t : Tbl), s.StepsTbl t →
      (∀ (level : BitVec 3) (target : BitVec 8),
        let i := t.idx.getD level.toNat 0 + 1
        exec (.nest level target) s = .next (s.setTbl s.cur s.curTable
          (if i < t.num level.toNat then ({ t with idx := t.idx.set level.toNat i } : Tbl).stepped target.toNat
           else ({ t with idx := t.idx.set level.toNat 0 } : Tbl).stepped (t.upc + 1)))) ∧
      (∀ target, exec (.jmpt target) s = .next (s.setTbl s.cur s.curTable (t.stepped target.toNat))) ∧
      exec .haltt s = .next (s.setTbl s.cur s.curTable { t.stepped t.upc with st := .halted, markStop := false }))

/-- A wld whose shape fits, and whose columns are aligned, lie in the window in banks that let its type pass, under no
channel's guard, and read without error as well-formed segments, completes: it writes the cells of its shape from
those columns into the plane it names and leaves every other cell, the other plane and the bank. An mma from the
window, of rows of A under the same conditions and of planes and bank rows without error, completes: each of its
rows is a holding row of its kind, each column of the shape the sum of R45 to R48 from its seed, the elements of A
at their addresses and the cells of the active plane; other columns, other rows and both planes stay. A drain of a
type other than FP4 from its first row, with the same conditions on its rows and on what its epilogue reads, to the
window or to a link with room, completes: its rows are empty, it has counted one effect each, memory is as it was
and one group of writes for each row of the window waits for its sub-banks: each element after the stages of R237,
converted, at its place. Each reads the window with the table's own earlier writes performed. (R45, R47, R48, R223,
R229, R230, R231, R233, R235, R237, R238, R266) -/
def Obligations.WeightsProductsAndDrainsOfTheArray : Prop :=
  (∀ (shape : BitVec 5) (ty : BitVec 3) (active : Bool) (gen : BitVec 2) (col : BitVec 4) (s : State) (f : Frag),
      s.StepsFrag f → f.lw ≤ 4 →
      let u := s.windowed
      let hk := (shapeTiles shape).1
      let wk := (shapeTiles shape).2
      let c0 := 16 * col.toNat
      let k := 16 * hk * etKc ty.toNat
      let n := rowBytes ty.toNat k
      let starts := rowStarts (f.tbl.addr gen.toNat).toNat (f.tbl.num 0x31) (16 * wk)
      hk ≤ f.h → wk ≤ f.w → c0 + 16 * wk ≤ 16 * f.w → u.RowsPass f ty.toNat n starts → u.RowsRead ty.toNat k starts →
      ∃ g, exec (.wld shape ty active gen col) s = .next (u.stepsTo g) ∧ g.bank = f.bank ∧ g.tbl = f.tbl ∧
        g.active1 = f.active1 ∧ g.plane (!active) = f.plane (!active) ∧
        (∀ r j, r < 16 * hk → j < 16 * wk → mfind (g.plane active) (256 * r + c0 + j) =
          some (cellOf ty.toNat (u.winBytes (starts.getD j 0) n) r)) ∧
        ∀ c, (∀ r j, r < 16 * hk → j < 16 * wk → c ≠ 256 * r + c0 + j) →
          mfind (g.plane active) c = mfind (f.plane active) c) ∧
    (∀ (shape : BitVec 5) (ty : BitVec 3) (acc gen : BitVec 2) (brow : BitVec 8) (bcol : BitVec 4) (s : State)
      (f : Frag), s.StepsFrag f → f.bad = [] →
      let u := s.windowed
      let hk := (shapeTiles shape).1
      let wk := (shapeTiles shape).2
      let m := shapeM shape
      let row0 := 8 * brow.toNat
      let col0 := 16 * bcol.toNat
      let k := 16 * hk * etKc ty.toNat
      let n := rowBytes ty.toNat k
      let starts := rowStarts (f.tbl.addr gen.toNat).toNat (f.tbl.num 0x30) m
      (∀ r, (f.row r).vals.length = 16 * f.w) → hk ≤ f.h → wk ≤ f.w → row0 + m ≤ 128 * f.h → col0 + 16 * wk ≤ 16 * f.w → u.RowsPass f ty.toNat n starts →
      u.RowsRead ty.toNat k starts →
      ∃ g, exec (.mma shape ty acc gen 0 brow bcol) s = .next (u.stepsTo g) ∧ g.plane0 = f.plane0 ∧
        g.plane1 = f.plane1 ∧ g.tbl = f.tbl ∧
        (∀ r, r < row0 ∨ row0 + m ≤ r → mfind g.bank r = mfind f.bank r) ∧
        ∀ i, i < m → ∃ row, mfind g.bank (row0 + i) = some row ∧ row.integer = etInt ty.toNat ∧ ∀ j, j < 16 * f.w →
          let old := (f.row (row0 + i)).vals.getD j 0
          if col0 ≤ j ∧ j < col0 + 16 * wk then ∃ (a : Nat → El) (r : Nat), row.vals.getD j 0 = BitVec.ofNat 32 r ∧
            (∀ x, x < k → a x = if ty = 0 then El.ofSeg (u.winBytes (starts.getD i 0 + x / 512 * 384) 384) (x % 512)
              else El.ofCode ty.toNat (codeOf (u.winBytes (starts.getD i 0 + x * etSize ty.toNat) (etSize ty.toNat)))) ∧
            Said.Product ty.toNat (16 * hk) (acc == 2) (if acc = 0 then 0 else old.toNat) a
              (fun x => cellEl ty.toNat (mfind (f.plane true) (256 * (x / etKc ty.toNat) + j)) (x % etKc ty.toNat)) r
          else row.vals.getD j 0 = old) ∧
    (∀ (gen : BitVec 2) (link : Bool) (ty : BitVec 3) (base rows : BitVec 9) (s : State) (f : Frag), s.StepsFrag f →
      f.bad = [] → f.tbl.row = 0 → ty ≠ 0 → s.failed = [] →
      let u := if f.tbl.epi.bi || f.tbl.epi.bs then s.windowed else s
      let b := 4 * base.toNat
      let n := 4 * (rows.toNat + 1)
      let starts := rowStarts (f.tbl.addr gen.toNat).toNat (f.tbl.num 0x32) n
      b + n ≤ 128 * f.h → u.SpansPass f (f.epiSpans b n) →
      (link = false → u.RowsPass f ty.toNat (rowBytes ty.toNat (16 * f.w)) starts) →
      (link = true → ∃ l, f.link = some l ∧ l.entries.length + n ≤ 32) →
      ∃ t g, exec (.drain gen link ty base rows) s = .next t ∧ mfind t.me.frag s.curTable = some g ∧
        (∀ r, mfind g.bank r = if b ≤ r ∧ r < b + n then none else mfind f.bank r) ∧
        g.tbl.upc = f.tbl.upc + 1 ∧ g.tbl.eseq = (f.tbl.eseq + n) % 2 ^ 48 ∧ KeepsRegs [] s.me t.me ∧ SameMemory u t ∧
        (link = true → t.me.writes = u.me.writes) ∧
        (link = false → f.tbl.ehw ≤ f.tbl.eseq → f.tbl.eseq + n < 2 ^ 48 → (∀ r, (f.row r).vals.length = 16 * f.w) →
          ∀ j, j < n → j = 0 ∨ f.tbl.taken = [] →
            ∃ w ∈ t.me.writes, w.path = 2 + s.curTable ∧ w.tag = f.tbl.steps ∧ ∀ c, c < 16 * f.w → ∃ x,
              Said.Epilogue u f ty.toNat (b + j) c x ∧ ∀ i y, (codeBytes (etSize ty.toNat) (etConv ty.toNat
                  (if f.tbl.epi.rm = 7 then f.tbl.frm.toNat else f.tbl.epi.rm.toNat) f.tbl.epi.sat
                  ((mix64 (mget f.tbl.lv 0x37 0 + BitVec.ofNat 64 (b + j) + BitVec.ofNat 64 (c + 1) * srGamma)).toNat %
                    2 ^ 32) x).1)[i]? = some y →
                let a := sharedPa (starts.getD j 0) + c * etSize ty.toNat + i
                ∃ p ∈ w.parts, p.1 ≤ a ∧ p.2[a - p.1]? = some (y, true)))

/-- cbwait of a buffer that holds its slots for the table claims them; cbfree of claimed slots notes their release for
the next checkpoint; both end on FRAG_STATE without such a buffer. wmwait passes when the watermark covers the line,
waits on an open channel that does not, and ends on FRAG_STATE for an unbound one. sigb on a cell that the strand
may signal, whose effect has not been performed, sends one arrival, which waits for the writes of the table's
earlier steps. (R235, R241, R243, R322, R345, R368) -/
def Obligations.TableStepsMeetBuffersAndCells : Prop :=
  (∀ (ch : BitVec 3) (n : BitVec 8) (s : State) (f : Frag), s.StepsFrag f →
      let m := n.toNat + 1
      (s.tableBuffer ch.toNat = none → ∀ i ∈ [Instr.cbwait ch n, .cbfree ch n], exec i s = s.failStep 0x07 0) ∧
      (∀ x b c, s.tableBuffer ch.toNat = some (x, b, c) →
        (m ≤ c.fill → exec (.cbwait ch n) s = .next
          ((s.setChan s.cur ch.toNat { x with cbuf := some (b.claim (1 + s.curTable) m) }).setTbl s.cur s.curTable
            (({ f.tbl with claims := addClaim ch.toNat m f.tbl.claims } : Tbl).stepped (f.tbl.upc + 1)))) ∧
        (∀ d, f.tbl.claims.find? (fun c => c.ch == ch.toNat) = some d → f.tbl.marked ch.toNat + m ≤ d.claimed →
          exec (.cbfree ch n) s = .next (s.setTbl s.cur s.curTable
            (({ f.tbl with frees := f.tbl.frees ++ [(ch.toNat, m)] } : Tbl).stepped (f.tbl.upc + 1))))) ∧
      (∀ (gen : BitVec 2) (l : BitVec 16),
        let a := f.tbl.addr gen.toNat + BitVec.ofNat 64 (64 * (l.toNat + 1) - 1)
        (s.chan s.cur ch.toNat = none → exec (.wmwait ch gen l) s = s.failStep 0x07 0) ∧
        (∀ x, s.chan s.cur ch.toNat = some x → x.st = .open → x.len ≠ 0 → a.toNat < x.base.toNat + x.len →
          exec (.wmwait ch gen l) s =
            if a.toNat < x.base.toNat ∨ a.toNat ≤ x.wm.toNat then
              .next (s.setTbl s.cur s.curTable (f.tbl.stepped (f.tbl.upc + 1)))
            else s.waitStep f.tbl false))) ∧
    (∀ (cell : BitVec 9) (s : State) (t : Tbl) (asid : Nat), s.StepsTbl t →
      let line := 512 * (s.cur / 64) + cell.toNat
      s.me.asid = some asid → s.ownsLine asid line = true → s.mayArrive s.cur line = true → t.ehw < (t.eseq + 1) % 2 ^ 48 →
      let after := if s.curTable < 4 then t.steps else (s.chan s.cur (s.curTable - 8)).elim 0 Chan.seq
      exec (.sigb cell) s = .next (({ s with
        arrivals := s.arrivals ++ [⟨line, 1 + s.curTable, s.cur, s.me.group, 0, after, false⟩] } : State).setTbl s.cur s.curTable (({ t with
          eseq := (t.eseq + 1) % 2 ^ 48, ehw := (t.eseq + 1) % 2 ^ 48 } : Tbl).stepped (t.upc + 1))))

/-- chopen of a Closed handle with Full sources and a range of length 0, or one that lies in one region, opens the
channel with that range, an empty queue and nothing written; chopen.rx of a sender of the own die opens a receiver
of that sender's channel. An open handle raises FRAG_STATE. chwait of an address in the range that the watermark
covers, or below the range, goes on; above the watermark of a broken channel it raises the channel's cause. chclose,
with or without discard, of a channel with nothing left to do and no busy table returns the handle to Closed. (R333,
R341, R346, R353, R356, R358) -/
def Obligations.ChannelsOpenWaitAndClose : Prop :=
  ∀ (o : OpE) (s : State),
    let ch := o.h.toNat
    let a := s.me.gval o.a.toNat
    let b := s.me.gval o.b.toNat
    let len := b.toNat % 2 ^ 48
    (s.me.Ready o.a → s.me.Ready o.b →
      (s.chan s.cur ch = none → len = 0 ∨ regionHolds a len = true → ∃ t x, exec (.chopen o) s = .next t ∧
        t.chan s.cur ch = some x ∧ x.st = .open ∧ x.base = (if len = 0 then 0 else a) ∧ x.len = len ∧ x.queue = [] ∧
        x.written = [] ∧ x.rx = none ∧ x.tbl = Tbl.start ∧ KeepsRegs [] s.me t.me ∧ SameMemory s t ∧
        t.me.pc = s.me.pc + 4) ∧
      (s.chan s.cur ch = none → a.toNat % 512 < 384 → a.toNat % 512 / 64 = s.cur / 64 → ∃ t x,
        exec (.chopenRx o) s = .next t ∧ t.chan s.cur ch = some x ∧ x.st = .open ∧ x.len = 0 ∧ x.queue = [] ∧
        x.rx = some (a.toNat % 512, a.toNat / 512 % 8) ∧ KeepsRegs [] s.me t.me ∧ SameMemory s t ∧
        t.me.pc = s.me.pc + 4) ∧
      ((s.chan s.cur ch).isSome = true →
        exec (.chopen o) s = s.trap 0x07 0 ∧ exec (.chopenRx o) s = s.trap 0x07 0)) ∧
    (∀ x, s.me.Ready o.a → s.chan s.cur ch = some x → x.len ≠ 0 → a.toNat < x.base.toNat + x.len →
      (a.toNat < x.base.toNat ∨ a.toNat ≤ x.wm.toNat → exec (.chwait o) s = .next (s.doneWith s.me)) ∧
      (x.base.toNat ≤ a.toNat → x.wm.toNat < a.toNat → x.st = .broken →
        exec (.chwait o) s = s.trap (if x.cause = 0x18 then 0x18 else 0x08) 0)) ∧
    (∀ x, s.me.wait = none → s.chan s.cur ch = some x → x.tbl.busy = false → x.runs = [] → x.buf = [] → x.queue = [] →
      ∀ i ∈ [Instr.chclose o, .chcloseDiscard o], ∃ t, exec i s = .next t ∧ t.chan s.cur ch = none ∧
        KeepsRegs [] s.me t.me ∧ SameMemory s t ∧ t.me.pc = s.me.pc + 4)

/-- cpy, cpym and gth with Full register pairs, whose command passes the checks of an enqueue, on a channel with room
and with room for their pages, add one command with the given source, destination and next SEQ to the channel's
queue and go on. cbcfg of an idle open channel queues its entry; chwm and each chsum with room and a destination
that is not Pending queue theirs and mark it Pending. cbpop moves filled slots of the strand's consumer to claimed,
or frees claimed ones. On a Closed handle each of the queries raises FRAG_STATE. (R334, R336, R343, R345, R352,
R354, R355, R357) -/
def Obligations.CopyCommandsAndBuffersQueue : Prop :=
  ∀ (o : OpE) (s : State),
    let ch := o.h.toNat
    let a := s.me.gval o.a.toNat
    let b := s.me.gval o.b.toNat
    (s.me.Ready o.a → s.me.Ready (o.a + 1) → s.me.Ready o.b → s.me.Ready (o.b + 1) → ∀ (cb : Bool) (sum : BitVec 2),
      let dst := s.me.gval (o.a + 1).toNat
      let idx : Word := 0xFF00000000000000 + BitVec.ofNat 64 (b.toNat % 2 ^ 21)
      ∀ e ∈ [(Instr.cpy o cb sum, CmdKind.cpy, cb), (.cpym o sum, .cpym, false), (.gth o cb sum, .gth, cb)], ∀ c x,
        s.checkCmd s.cur ch (Cmd.given e.2.1 a dst b (s.me.gval (o.b + 1).toNat) idx sum.toNat e.2.2 s.me.frm
          s.me.srstate false) = .ok c → s.chan s.cur ch = some x → x.room false = true →
        (s.die (s.cur / 64)).canPin c.pins = true → ∃ t y, exec e.1 s = .next t ∧ t.chan s.cur ch = some y ∧
          y.queue = x.queue ++ [.cmd { c with seq := x.seq + 1, tick := s.now, fence := s.nextId }] ∧
          y.seq = x.seq + 1 ∧ c.kind = e.2.1 ∧ c.src = a ∧ c.dst = dst ∧ KeepsRegs [] s.me t.me ∧ SameMemory s t ∧
          t.me.pc = s.me.pc + 4) ∧
    (∀ x, s.chan s.cur ch = some x →
      (s.me.Ready o.a → s.me.Ready o.b → x.room false = true → x.st = .open → x.ring = none → x.unfinished = [] →
        (∀ d, x.cbuf = some d → ∀ c ∈ d.cons, c.claim = 0) →
        cfgCons b = 0 ∨ slotsHeld x.rx.isSome a b = true →
        exec (.cbcfg o) s = .next ((s.pushQ s.cur ch (.cbcfg a b)).doneWith (s.pushQ s.cur ch (.cbcfg a b)).me)) ∧
      (∀ d c, s.me.Ready o.a → x.cbuf = some d → d.consumer 0 = some c → x.st ≠ .closing →
        let n := a.toNat % 512
        1 ≤ n → n ≤ 256 →
          (a.getLsbD 63 = false → n ≤ c.fill → ∃ t y e, exec (.cbpop o) s = .next t ∧ t.chan s.cur ch = some y ∧
            y.cbuf = some e ∧ e.consumer 0 = some { c with fill := c.fill - n, claim := c.claim + n } ∧
            KeepsRegs [] s.me t.me ∧ t.me.pc = s.me.pc + 4) ∧
          (a.getLsbD 63 = true → n ≤ c.claim → ∃ t y e, exec (.cbpop o) s = .next t ∧ t.chan s.cur ch = some y ∧
            y.cbuf = some e ∧ e.consumer 0 = some { c with claim := c.claim - n, freed := c.freed + n } ∧
            KeepsRegs [] s.me t.me ∧ t.me.pc = s.me.pc + 4)) ∧
      (x.room false = true → s.me.Free o.b →
        exec (.chwm o) s =
          .next ((s.pushQ s.cur ch (.chwm s.me.seq)).donePend o.b (.chan s.me.seq)) ∧
        (s.me.Ready o.a → ∀ e ∈ [(Instr.chsum o, 0), (.chsumExp o, 1), (.chsumClr o, 2), (.chsumStat o, 3),
          (.chsumSlip o, 4), (.chsumSeq o, 5)], exec e.1 s =
            .next ((s.pushQ s.cur ch (.chsum e.2 a s.me.seq)).donePend o.b (.chan s.me.seq))))) ∧
    (s.chan s.cur ch = none → s.me.Ready o.a → s.me.Ready o.b →
      ∀ i ∈ [Instr.chwm o, .chsum o, .chsumExp o, .chsumClr o, .chsumStat o, .chsumSlip o, .chsumSeq o, .cbcfg o,
        .cbpop o], exec i s = s.trap 0x07 0)

/-- A copy table that may start a step: cpo, cpot and gto whose command passes the checks, with room in the channel's
queue and for its pages, add the command with the source and destination that their generators give (and for cpot
the time of R361) and go on at the next word. sumchk with no command unfinished of those enqueued before it began to
wait and a sum equal to the expected one sets the sum to zero and goes on; with another sum a channel that has not
broken is Broken on COPY_SUM and the table Faulted. (R348, R360, R361) -/
def Obligations.CopyTablesIssueTheirCommands : Prop :=
  ∀ (s : State) (x : Chan), 8 ≤ s.curTable → s.chan s.cur (s.curTable - 8) = some x → s.steps x.tbl = true →
    let t := x.tbl
    (∀ (sg dg sum : BitVec 2) (cb : Bool) (xg : BitVec 2), ∀ e ∈
      [(Instr.cpo sg dg sum cb, t.cpyOrder sg.toNat dg.toNat sum.toNat cb 0),
        (.cpot sg dg sum cb, t.cpyOrder sg.toNat dg.toNat sum.toNat cb t.orderTime),
        (.gto sg dg sum cb xg, Cmd.given .gth (t.addr sg.toNat) (t.addr dg.toNat) (mget t.lv 0x43 0) 0
          (t.addr xg.toNat) sum.toNat cb t.frm t.sr true)], ∀ c,
      s.checkCmd s.cur (s.curTable - 8) e.2 = .ok c → x.room true = true →
      (s.die (s.cur / 64)).canPin c.pins = true → ∃ u y, exec e.1 s = .next u ∧
        u.chan s.cur (s.curTable - 8) = some y ∧
        y.queue = x.queue ++ [.cmd { c with seq := x.seq + 1, tick := s.now, fence := s.nextId }] ∧
        y.tbl = t.stepped (t.upc + 1) ∧ c.src = t.addr sg.toNat ∧ c.dst = t.addr dg.toNat ∧ SameMemory s u) ∧
    (x.st ≠ .broken → (∀ c ∈ x.unfinished, (if t.inStep then t.row else x.seq) < c.seq) →
      (x.rsum = x.exp → ∃ u y, exec .sumchk s = .next u ∧ u.chan s.cur (s.curTable - 8) = some y ∧ y.rsum = 0 ∧
        y.tbl = t.stepped (t.upc + 1)) ∧
      (x.rsum ≠ x.exp → x.cause = 0 → ∃ u y, exec .sumchk s = .next u ∧ u.chan s.cur (s.curTable - 8) = some y ∧ y.st = .broken ∧
        y.cause = 0x18 ∧ y.tbl.st = .faulted ∧ y.tbl.cause = 0x18))

/-- QUEUE_HEAD_ENTRY moves a queue's first command, 4 ticks after its enqueue, into the channel's empty part of a buffer
that has a free entry; it takes EXP with it, or keeps what it took where a restore enqueued it again. COMMAND_BEGIN
begins a cpy without slot or window at its time and adds its slip; one of length 0 completes at once where no other
has begun. COPY_LINE_TRANSFER of a copy within one line between scratchpads, to bytes that no earlier command of the
channel has yet to write, writes the destination bytes with those read, and no other byte. COMMAND_COMPLETE of a
finished command without a sum, before whose place no SUMCHK waits, takes it off the channel and fills its slot.
MULTICAST_CREDIT adds one to the receiver's counter. CHANNEL_QUEUE_APPLY takes the first entry: the watermark or sum
is delivered, or the buffer configured. That a restored command keeps its EXP and ready tick, and what its slip
leaves out, are the model's readings (logs 43, 53). (R337, R338, R339, R340, R343, R344, R346, R355, R357) -/
def Obligations.ChannelEventsMoveTheCommands : Prop :=
  ∀ (core ch : Nat) (s : State) (x : Chan), core < 384 → ch < 8 → s.chan core ch = some x →
    (∀ c rest, x.queue = .cmd c :: rest → c.tick + 4 ≤ s.now → x.buf = [] → s.held (core / 64) < 512 → ∃ t y,
      exec (.queueHeadEntry core ch) s = .next t ∧ t.chan core ch = some y ∧ y.queue = rest ∧
      y.buf = [{ c with
        ready := s.now + 4, due := if c.again = true ∧ c.t ≠ 0 then c.due else s.now + 4, excused := 0,
        exp := if c.again then c.exp else x.exp }] ∧ SameMemory s t) ∧
    (∀ c rest, x.buf = c :: rest → c.t.toNat ≤ (s.ptime core).toNat → c.ready ≤ s.now → x.lastBegin ≤ s.now →
      c.kind = .cpy → c.cb = false → c.wd = false → s.heldBack core 2 c.fence = false → ∃ t y,
      exec (.commandBegin core ch) s = .next t ∧ t.chan core ch = some y ∧ y.buf = rest ∧
      y.slip = Nat.min (x.slip + s.slipOf core c) (2 ^ 48 - 1) ∧ SameMemory s t ∧
      (0 < c.len → (∀ q, x.runs.head? = some q → 0 < q.cmd.len) → ∃ r, y.runs = x.runs ++ [r] ∧ r.cmd = c ∧ r.pos = 0) ∧
      (c.len = 0 → x.runs = [] → c.mode = 0 → y.runs = [])) ∧
    (∀ r p q n, x.runOf r.cmd.seq = some r → r.waitSlot = false → r.rwait = [] → r.pos = 0 → r.out = 0 → r.buf = [] →
      r.conv = none → r.cmd.kind = .cpy → r.cmd.cb = false → r.cmd.wd = false → r.cmd.bv = false →
      r.cmd.srcp = [(p, n)] → r.dstp = [(q, n)] → r.cmd.len = n → 0 < n → q % 64 + n ≤ 64 → p % 64 + n ≤ 64 →
      2 ^ 61 ≤ p → p < 2 ^ 64 → 2 ^ 61 ≤ q → q < 2 ^ 64 → s.linkDead core p = false → s.linkDead core q = false →
      mfind s.failed (p / 64) = none → s.earlierWrites core ch x r [⟨none, [(q, n)]⟩] = false →
      ∃ t, exec (.copyLineTransfer core ch r.cmd.seq) s = .next t ∧
        SameOutside q n s t ∧ ∀ i, i < n → memByte t.mem (q + i) = memByte s.mem (p + i)) ∧
    (∀ r rest, x.runs = r :: rest → r.finished = true → r.cmd.mode = 0 → r.rslots = [] → x.sumDue r.cmd.seq = false →
      (∀ u ∈ rest, 0 < u.cmd.len) → ∃ t y,
      exec (.commandComplete core ch r.cmd.seq) s = .next t ∧ t.chan core ch = some y ∧
      y.runs = x.runs.filter (fun u => u.cmd.seq != r.cmd.seq) ∧
      y.cbuf = x.cbuf.map (fun b => b.fill (if r.cmd.cb then 1 else 0)) ∧ SameMemory s t) ∧
    (∀ n, n < 384 → n ∈ x.credits → (∀ r ∈ x.runs, n ∉ r.rwait) → ∃ t y,
      exec (.multicastCredit core ch n) s = .next t ∧ t.chan core ch = some y ∧ mget y.cnt n 0 = mget x.cnt n 0 + 1 ∧
      y.credits = x.credits.erase n ∧ SameMemory s t) ∧
    (∀ id rest, x.queue = .chwm id :: rest → ∃ t y, exec (.channelQueueApply core ch) s = .next t ∧
      t.chan core ch = some y ∧ y.queue = rest ∧
      (t.strand core).pend = ((s.strand core).supply id (.word x.wm) []).pend) ∧
    (∀ q a id rest, x.queue = .chsum q a id :: rest → ∃ t y, exec (.channelQueueApply core ch) s = .next t ∧
      t.chan core ch = some y ∧ y.queue = rest ∧
      (q = 1 → y.exp = a.setWidth 32 ∧ y.rsum = x.rsum) ∧ (q = 2 → y.rsum = 0 ∧ y.exp = x.exp) ∧
      (q < 3 → (t.strand core).pend = ((s.strand core).supply id (.word (x.rsum.setWidth 64)) []).pend)) ∧
    (∀ base cfg rest, x.queue = .cbcfg base cfg :: rest → x.rx = none → ∃ t y,
      exec (.channelQueueApply core ch) s = .next t ∧ t.chan core ch = some y ∧ y.queue = rest ∧
      y.cbuf = cbufOf base cfg)

/-- mfence whose markers have all reached their heads, and pfence of an empty mask, end at once; a pfence that does not
hold the core path leaves a hold with its masks. rel at local or cluster scope with every access done publishes its
log; at a wider scope it ends once its condition holds. acq and acq.h with every earlier global read delivered take,
of each named log, the publications that its die has seen, lift the clock to the greatest of their stamps (by one
more where the stamp's core is greater), as far as 48 bits reach, and raise the floors of the lines that those
publications had pressed; acq.h raises the floor of the home states. logq marks gh Pending with the counter it
selects. No other register changes. (R289, R298, R306, R307, R308, R310, R311, R324, R325) -/
def Obligations.FencesReleasesAndAcquires : Prop :=
  ∀ (s : State),
    (∀ o : OpE, s.me.Ready o.h → s.me.wait = none →
      s.markersDone s.cur (s.me.gval o.h.toNat) s.me.chanSeqs = true → exec (.mfence o) s = .next (s.doneWith s.me)) ∧
    (∀ o : OpE, (o.h = 0 ∨ o.a = 0 → exec (.pfence o) s = .next (s.doneWith s.me)) ∧
      (o.h ≠ 0 → o.a ≠ 0 → o.a.getLsbD 0 = false → s.me.wait = none → ∃ t, exec (.pfence o) s = .next t ∧
        t.nextId = s.nextId + 1 ∧ (∃ h ∈ t.me.holds, h.id = s.nextId ∧ h.src = o.h ∧ h.dst = o.a ∧ h.seq = s.me.seq) ∧
        KeepsRegs [] s.me t.me ∧ SameMemory s t ∧ t.me.pc = s.me.pc + 4)) ∧
    (∀ scope : BitVec 3,
      (scope.toNat < 2 → s.me.wait = none → s.me.accessesDone = true → (s.log s.cur).pressure ≠ s.now + 1 →
        ∃ t, exec (.rel scope) s = .next t ∧ (t.log s.cur).pub = (s.log s.cur).app ∧
          (t.log s.cur).stamp = ⟨min ((s.core s.cur).lclk + 1) (2 ^ 48 - 1), s.cur⟩ ∧ KeepsRegs [] s.me t.me ∧
          ((s.core s.cur).lclk + 1 < 2 ^ 48 - 2 ^ 40 → SameMemory s t) ∧ t.me.pc = s.me.pc + 4) ∧
      (∀ a b k, s.me.wait = some ⟨1, a, b, k⟩ → s.relMet s.cur scope a b = true →
        exec (.rel scope) s = .next (s.doneWith s.me))) ∧
    (∀ (o : OpE) (scope : BitVec 3), s.me.Ready o.h → s.me.Ready o.a → (s.me.gval o.a.toNat).getLsbD 63 = false →
      s.me.loadsDone = true → ∀ e ∈ [(Instr.acq o scope, false), (Instr.acqH o scope, true)],
        ∃ t, exec e.1 s = .next t ∧ KeepsRegs [] s.me t.me ∧ t.me.pc = s.me.pc + 4 ∧
          (∀ c ∈ s.namedLogs s.cur scope (s.me.gval o.h.toNat),
            mget t.me.acq c 0 = max (s.pubSeen s.cur c).1 (mget s.me.acq c 0) ∧
            ∀ x ∈ (s.log c).past, x.1 < (s.pubSeen s.cur c).1 → x.2.2 ≤ mget t.me.floors x.2.1 0) ∧
          (let lift (k : Key) := min (if k.core ≤ s.cur then k.time else k.time + 1) (2 ^ 48 - 1)
           let l := (s.namedLogs s.cur scope (s.me.gval o.h.toNat)).map (fun c => lift (s.pubSeen s.cur c).2)
           (s.core s.cur).lclk < 2 ^ 48 → (s.core s.cur).lclk ≤ (t.core s.cur).lclk ∧
            (∀ x ∈ l, x ≤ (t.core s.cur).lclk) ∧
            ((t.core s.cur).lclk = (s.core s.cur).lclk ∨ (t.core s.cur).lclk ∈ l)) ∧
          (e.2 = true → t.me.homeFloor = s.now) ∧ (e.2 = false → t.me.homeFloor = s.me.homeFloor) ∧
          ((t.core s.cur).lclk < 2 ^ 48 - 2 ^ 40 → SameMemory s t)) ∧
    (∀ o : OpE, s.me.Ready o.a → s.me.Free o.h → (s.me.gval o.a.toNat).getLsbD 31 = false →
      let l := s.log s.cur
      ∀ e ∈ [(1, l.app), (2, l.pub), (3, l.prs), (4, l.stamp.time * 512 + l.stamp.core), (5, l.disc),
        (6, mget s.me.acq s.cur 0)], (s.me.gval o.a.toNat).toNat % 16 = e.1 →
        exec (.logq o) s = .next (s.donePend o.h (.word (BitVec.ofNat 64 e.2))))

/-- On a cell that the strand may name: binit sets up a free or idle cell, and frees an idle one without children; barr
and barw of a member with every access done at local scope send an arrival, barr ends once it is counted, and barw
and bwait once the recorded generation has been delivered; bmask sets the next mask; bpend adds to the pending
count; bq marks gd Pending. An arrival whose earlier writes are performed counts at an Open cell, and the last one
at a cell without parent or pending bytes opens the next generation, as do the completion of a tag, with its
children, and a root's completion at a child. That a strand in F mode may name every cell is the model's reading
(log 7). (R364, R366, R367, R368, R370, R371, R374, R375, R376, R377, R378) -/
def Obligations.BarriersCountTheirArrivals : Prop :=
  (∀ (o : OpE) (s : State) (line : Nat), s.me.Ready o.h → s.NamesCell (s.me.gval o.h.toNat) line → s.me.wait = none →
      let c := s.cell line
      let x := s.me.gval o.a.toNat
      let y := s.me.gval o.b.toNat
      (s.me.Ready o.a → s.me.Ready o.b →
        (y ≠ 0 → badConfig line x y = false → (c.st = .free ∨ (c.arr = 0 ∧ c.pend = 0)) → s.parentOk line y = true →
          ones 64 x.toNat ≠ 0 → ∃ t, exec (.binit o) s = .next t ∧ (t.cell line).st = .opened ∧
          (t.cell line).arr = 0 ∧ (t.cell line).mask = x ∧ (t.cell line).cfg = y ∧ KeepsRegs [] s.me t.me ∧
          SameMemory s t) ∧
        (y = 0 → c.st ≠ .free → c.arr = 0 → c.pend = 0 → s.children line = [] → ∃ t, exec (.binit o) s = .next t ∧
          (t.cell line).st = .free ∧ KeepsRegs [] s.me t.me ∧ SameMemory s t)) ∧
      (s.mayArrive s.cur line = true → s.me.accessesDone = true → (s.cell line).scope.toNat < 2 →
        ∀ e ∈ [(Instr.barr o, 0), (.barw o, 1)], ∃ t, exec e.1 s = .next t ∧
          t.arrivals = s.arrivals ++ [⟨line, 0, s.cur, s.me.group, (t.log s.cur).pub, 0, false⟩] ∧
          t.me.wait = some ⟨2, line, e.2, s.now⟩ ∧ KeepsRegs [] s.me t.me) ∧
      (∀ r, s.me.arrOf line = some r → s.delivered s.cur r = true → ∃ t, exec (.bwait o) s = .next t ∧
        t.me.arrOf line = none ∧ KeepsRegs [] s.me t.me ∧ t.me.pc = s.me.pc + 4) ∧
      (s.me.Ready o.a → c.st ≠ .free → (cfgRoot c.cfg = true → x.toNat < 64) →
        (∀ k ∈ s.children line, x.getLsbD (k / 512) = true) → ∃ t, exec (.bmask o) s = .next t ∧
          t.cell line = { c with next := x, nmv := true, setAt := s.now + 1, prev := (t.cell line).prev } ∧ KeepsRegs [] s.me t.me ∧ SameMemory s t) ∧
      (s.me.Ready o.a → c.st ≠ .free → ∀ p, p.toInt = c.pend.toInt + (x.setWidth 48).toInt →
        ∃ t, exec (.bpend o) s = .next t ∧ t.cell line = { c with pend := p } ∧ KeepsRegs [] s.me t.me ∧
          SameMemory s t) ∧
      (s.me.Free o.b → exec (.bq o) s = .next (s.donePend o.b (.cell (line / 512) (line % 512))))) ∧
    (∀ (o : OpE) (s : State) (line tick a : Nat), s.me.wait = some ⟨3, line, a, tick⟩ →
      exec (.barr o) s = .next (s.doneWith s.me) ∧
      ∀ r, s.me.arrOf line = some r → s.delivered s.cur r = true → ∃ t, exec (.barw o) s = .next t ∧
        t.me.arrOf line = none ∧ KeepsRegs [] s.me t.me ∧ t.me.pc = s.me.pc + 4) ∧
    (∀ (n : Nat) (a : Arrival) (s : State), s.arrivals[n]? = some a → s.arrivalReady a = true → (s.cell a.line).st = .opened →
      (∀ b ∈ s.arrivals, b.held = false) → ∃ t, exec (.arrivalCounted n) s = .next t ∧
        ((s.cell a.line).arr + 1 < (s.cell a.line).exp →
          (t.cell a.line).arr = (s.cell a.line).arr + 1 ∧ t.arrivals = s.arrivals.eraseIdx n) ∧
        (isTag a.line = false → (s.cell a.line).arr + 1 = (s.cell a.line).exp → (s.cell a.line).pend = 0 →
          parentLine a.line (s.cell a.line).cfg = none →
          (t.cell a.line).arr = 0 ∧ (t.cell a.line).gen = ((s.cell a.line).gen + 1) % 2 ^ 16) ∧
        (a.who = 32 → a.core < 3072 →
          s.arrivals.findIdx? (fun b => b.who == 32 && b.core == 512 * (a.core / 512) + a.core % 512) = some n →
          exec (.childArrival (a.core / 512) (a.core % 512)) s = .next t)) ∧
    (∀ (s : State), (∀ b ∈ s.arrivals, b.held = false) →
      (∀ tag, tag < 8 → (s.cell (3072 + tag)).cond = true → (s.children (3072 + tag)).Nodup →
        (∀ k ∈ s.children (3072 + tag), s.KeepsMask k) →
        ∃ t, exec (.tagComplete tag) s = .next t ∧
          ∀ l, l = 3072 + tag ∨ l ∈ s.children (3072 + tag) → (t.cell l).gen = ((s.cell l).gen + 1) % 2 ^ 16) ∧
      (∀ die cell rels, die < 6 → cell < 512 → s.compl = [(512 * die + cell, rels)] →
        s.KeepsMask (512 * die + cell) → ∃ t, exec (.rootCompletionDelivery die cell) s = .next t ∧ t.compl = [] ∧
          (t.cell (512 * die + cell)).gen = ((s.cell (512 * die + cell)).gen + 1) % 2 ^ 16 ∧
          (t.cell (512 * die + cell)).arr = 0))

/-- wopen.exp of an aligned shared range that the context holds, and wopen.imp that the far package, or this one for a
live window with that key and world, accepts, bind the lowest free index and write the handle. On a whole import
handle, wwr and wwrs with aligned fields within the window whose source passes its checks, and watom, add their
operation to the die's queue and count in SENT. Each wcnt marks gd Pending with its counter; a wwait whose count is
reached goes on; wclose of an export, or of an import whose operations are acknowledged, frees the handle. A handle
that names no window raises WINDOW with the handle, and a watom whose offset is not a multiple of its size MISALIGN
before that. The lowest free index, and the answer of a far package within the step, are the model's choice (logs
45, 47). (R118, R483, R487, R489, R490, R491, R492, R493, R494) -/
def Obligations.WindowsOpenSendCountAndClose : Prop :=
  ∀ (o : OpE) (s : State) (asid : Nat), s.me.asid = some asid →
    let g := s.me.gval o.h.toNat
    let a := s.me.gval o.a.toNat
    let b := s.me.gval o.b.toNat
    let d := s.cur / 64
    (∀ i, s.me.Ready o.a → s.me.Ready o.b → s.me.Free o.h → s.freeWinIndex = some i →
      (let len := b.toNat % 2 ^ 32
       let p := a.toNat - 0xFF20000000000000
       isShared a.toNat = true → a.toNat % 2 ^ 20 = 0 → len % 2 ^ 16 = 0 → 2 ^ 16 ≤ len → len ≤ 0xFFFF0000 →
        p + len ≤ Config.sharedBytes → s.foreignBank asid p len = none → ∃ t w, exec (.wopenExp o) s = .next t ∧
          mfind t.wins i = some w ∧ w.asid = asid ∧ w.imp = false ∧ w.base = a ∧ w.len = len ∧
          w.key = b.extractLsb' 32 32 ∧ w.rcvd = 0 ∧ w.sig = 0 ∧ KeepsRegs [o.h.toNat] s.me t.me ∧ SameMemory s t ∧
          (o.h ≠ 0 → t.me.gval o.h.toNat = BitVec.ofNat 64 i)) ∧
      (∀ len, s.ports ≠ [] → a.toNat % 512 < 288 →
        (a.toNat % 512 ≠ s.fabid.toNat → s.choice.reply = 0 ∧ len = s.choice.replyLen) →
        (a.toNat % 512 = s.fabid.toNat → ∃ e, mfind s.wins (a.toNat / 2 ^ 16 % 2 ^ 12) = some e ∧ e.imp = false ∧
          e.key = b.setWidth 32 ∧ (s.ctx e.asid).secure = (s.ctx asid).secure ∧ len = e.len) →
        ∃ t w, exec (.wopenImp o) s = .next t ∧
        mfind t.wins (i + 2 ^ 15) = some w ∧ w.asid = asid ∧ w.imp = true ∧ w.len = len ∧
        w.key = b.setWidth 32 ∧ w.sent = 0 ∧ w.ackd = 0 ∧ KeepsRegs [o.h.toNat] s.me t.me ∧ SameMemory s t ∧
        (o.h ≠ 0 → t.me.gval o.h.toNat = BitVec.ofNat 64 (i + 2 ^ 15)))) ∧
    (s.me.Ready o.h → s.me.Ready o.a → s.me.Ready o.b → s.me.wait = none →
      (∀ (wide : Bool) (op3 : BitVec 3), a.toNat % (if wide then 8 else 4) ≠ 0 →
        exec (.watom o wide op3) s = s.trap 0x03 a) ∧
      (mfind s.wins g.toNat = none →
        (∀ red, ∀ i ∈ [Instr.wwr o red, .wwrs o red, .wcntSent o, .wcntAckd o, .wcntRcvd o, .wcntSig o, .wcntStat o,
          .wwaitAckd o, .wwaitRcvd o, .wwaitSig o, .wclose o], exec i s = s.trap 0x15 g) ∧
        ∀ (wide : Bool) (op3 : BitVec 3), a.toNat % (if wide then 8 else 4) = 0 →
          exec (.watom o wide op3) s = s.trap 0x15 g) ∧
      ∀ w, mfind s.wins g.toNat = some w → w.asid = asid →
        (w.imp = true → w.broken = 0 → (s.die d).winq.length < 16 →
          (let off := b.toNat / 2 ^ 32
           let len := b.toNat % 2 ^ 32
           ∀ (red : BitVec 2) l pages, a.toNat % 4 = 0 → off % 4 = 0 → len % 4 = 0 → off + len ≤ w.len →
            (red = 0 ∨ w.shared = true) → s.extent s.cur false a extentRuns a.toNat len [] = .ok l pages →
            (s.die d).canPin pages = true → ∀ e ∈ [(Instr.wwr o red, false), (.wwrs o red, true)], ∃ t op,
              exec e.1 s = .next t ∧ (t.die d).winq = (s.die d).winq ++ [op] ∧ op.handle = g.toNat ∧ op.src = a ∧
              op.off = off ∧ op.len = len ∧ op.red = red ∧ op.signal = e.2 ∧ op.atom = false ∧ op.srcp = l ∧
              mfind t.wins g.toNat = some { w with sent := (w.sent + 1) % 2 ^ 48 } ∧ KeepsRegs [] s.me t.me ∧
              SameMemory s t) ∧
          ∀ (wide : Bool) (op3 : BitVec 3), a.toNat % (if wide then 8 else 4) = 0 →
            a.toNat + (if wide then 8 else 4) ≤ w.len → (s.die d).canPin [] = true → ∃ t op, exec (.watom o wide op3) s = .next t ∧
              (t.die d).winq = (s.die d).winq ++ [op] ∧ op.handle = g.toNat ∧ op.off = a.toNat ∧ op.atom = true ∧
              op.operand = b ∧ mfind t.wins g.toNat = some { w with sent := (w.sent + 1) % 2 ^ 48 } ∧
              KeepsRegs [] s.me t.me ∧ SameMemory s t) ∧
        (s.me.Free o.b →
          (∀ e ∈ [(Instr.wcntSent o, true, w.sent), (.wcntAckd o, true, w.ackd), (.wcntRcvd o, false, w.rcvd),
            (.wcntSig o, false, w.sig)], w.imp = e.2.1 →
              exec e.1 s = .next (s.donePend o.b (.word (BitVec.ofNat 64 e.2.2)))) ∧
          (w.imp = g.getLsbD 15 → exec (.wcntStat o) s = .next (s.donePend o.b (.word (BitVec.ofNat 64
            (w.broken.toNat * 2 ^ 56 + (if w.broken = 0 then 0 else 2 ^ 48) + s.queuedOps g.toNat % 2 ^ 48)))))) ∧
        (w.imp = true → a.toNat ≤ w.ackd → exec (.wwaitAckd o) s = .next (s.doneWith s.me)) ∧
        (w.imp = false → ∀ e ∈ [(Instr.wwaitRcvd o, w.rcvd), (.wwaitSig o, w.sig)], a.toNat ≤ e.2 → ∃ t,
          exec e.1 s = .next t ∧ KeepsRegs [] s.me t.me ∧ t.me.pc = s.me.pc + 4) ∧
        (w.imp = g.getLsbD 15 → w.closing = false → (w.imp = true → s.winSettled g.toNat = true) → ∃ t,
          exec (.wclose o) s = .next t ∧ mfind t.wins g.toNat = none ∧ KeepsRegs [] s.me t.me ∧ SameMemory s t))

/-- WINDOW_OP_SEND sends the only operation of a die's queue, with the bytes read or the atomic's operand, which the
sender keeps, and advances the handle's SQ. OPERATION_ARRIVAL of the next number, a write within one line of a
shared window, writes its bytes and no others, counts in RCVD and is acknowledged; a number below NEXT changes no
window, counts in LDUP and is acknowledged again; an operation for a window that is closed is refused. ACK_ARRIVAL
drops the sender's copy and counts in ACKD, and a refusal by the far window breaks the handle on WINDOW.
RETRY_TIMEOUT sends again on the next port, and after eight attempts breaks the handle on LINK_DEAD. TABLE_REWIND of
a lone fragment that an error made rewind empties its bank and returns its micro-PC, counters and effect count to
the checkpoint, or the micro-PC to the restart label. That a flow belongs to the window of its first operation, and
keeps its last answer, is the model's choice (log 108). (R244, R477, R479, R480, R484, R485, R490, R491, R494, R495) -/
def Obligations.FlowsSendArriveAndRetry : Prop :=
  (∀ (die : Nat) (s : State) (op : WinOp) (w : Win) (p : Nat) (rest : List Nat), die < 6 →
      (s.die die).winq = [op] → (s.strand op.core).group = op.group → s.heldBack op.core 4 op.id = false →
      s.signalWaits op = false → mfind s.wins op.handle = some w → s.ports = p :: rest →
      let u := (s.setDie die { s.die die with winq := [] }).unpin die op.pins
      let q := u.winSource op.core op.srcp
      q.2.2 = none → exec (.windowOpSend die) s = .next { q.1 with wins := mset q.1.wins op.handle { w with
        sq := (w.sq + 1) % 2 ^ 32, outs := w.outs ++ [⟨w.sq, 0, p, die, s.now, op.off, none, .op (if op.atom then
          .atom w.farIndex op.off (op.op.extractLsb' 0 3) (op.op.getLsbD 3) op.operand
          else .write w.farIndex op.off op.red q.2.1 op.signal)⟩] } }) ∧
    (∀ (port src h k : Nat) (f : RecvFlow) (s : State), port < 18 → (s.link port).live = true → s.choice.anew = false →
      mfind s.recv (src * 65536 + h) = some f → f.next = k → f.got = [] → f.held = [] →
      (∀ (i off pa : Nat) (bs : List Byte) (w : Win), k < 2 ^ 32 → mfind s.wins i = some w → w.imp = false →
        w.shared = true → f.closed = false → f.parts = [] → (f.window = some i ∨ (f.window = none ∧ w.born < s.now)) →
        off + bs.length ≤ w.len → w.place off = some pa → isGlobal pa = false → bs ≠ [] →
        (w.base.toNat + off) % 64 + bs.length ≤ 64 → pa % 64 + bs.length ≤ 64 → ∃ t,
        exec (.operationArrival src h k (.window port (.write i off 0 bs false))) s = .next t ∧
        mfind t.recv (src * 65536 + h) = some ⟨k + 1, [], [], some i, false, [], some (.acknowledged k)⟩ ∧
        SameOutside pa bs.length s t ∧ (∀ n, n < bs.length → memByte t.mem (pa + n) = bs.getD n 0) ∧
        ∃ v, mfind t.wins i = some v ∧ v.rcvd = (w.rcvd + 1) % 2 ^ 48 ∧ v.sig = w.sig) ∧
      (∀ (sq : Nat) (op : RemoteOp), sq < k → k ≤ 2 ^ 31 → f.closed = false → ∃ t,
        exec (.operationArrival src h sq (.window port op)) s = .next t ∧ t.wins = s.wins ∧ t.mem = s.mem ∧
        (t.link port).dup = ((s.link port).dup + 1) % 2 ^ 48 ∧
        mfind t.recv (src * 65536 + h) = some { f with answer := some (.acknowledged sq) }) ∧
      (∀ op : RemoteOp, k < 2 ^ 32 → f.closed = true ∨ mfind s.wins (remoteWindow op) = none → ∃ t,
        exec (.operationArrival src h k (.window port op)) s = .next t ∧ t.wins = s.wins ∧ t.mem = s.mem ∧
        mfind t.recv (src * 65536 + h) = some { f with answer := some (.refused k) })) ∧
    (∀ (h : Nat) (w : Win) (o : Sent) (rest : List Sent) (s : State), mfind s.wins h = some w → w.outs = o :: rest →
      o.chan = none →
      (s.choice.reply ≠ 1 → exec (.ackArrival (.window h) o.sq) s =
        .next { s with wins := mset s.wins h { w with ackd := (w.ackd + 1) % 2 ^ 48, outs := rest } }) ∧
      (w.broken = 0 → s.choice.reply = 1 → ∃ t v, exec (.ackArrival (.window h) o.sq) s = .next t ∧
        mfind t.wins h = some v ∧ v.broken = 0x15 ∧ v.outs = []) ∧
      (w.broken = 0 → o.tick + 8192 ≤ s.now → (s.link (32 + o.die)).st ≠ .training →
        (∀ p, o.attempts + 1 < 8 → s.nextPort o.port = some p → o ∉ rest → ∃ t,
          exec (.retryTimeout (.window h) o.sq) s = .next t ∧ mfind t.wins h = some { w with
            outs := { o with attempts := o.attempts + 1, port := p, tick := s.now } :: rest } ∧
          (t.link p).retry = ((s.link p).retry + 1) % 2 ^ 48) ∧
        (8 ≤ o.attempts + 1 → ∃ t v, exec (.retryTimeout (.window h) o.sq) s = .next t ∧ mfind t.wins h = some v ∧
          v.broken = 0x11 ∧ v.outs = []))) ∧
    (∀ (core h : Nat) (s : State) (f : Frag), core < 384 → h < 4 → (s.strand core).frag = [(h, f)] → f.link = none →
      f.tbl.rewinding = true → ∃ t g, exec (.tableRewind core h) s = .next t ∧
        mfind (t.strand core).frag h = some g ∧ g.bank = [] ∧ g.plane0 = f.plane0 ∧ g.plane1 = f.plane1 ∧
        g.tbl.upc = (if f.tbl.rv then f.tbl.restart else f.tbl.ck.upc) ∧ g.tbl.idx = f.tbl.ck.idx ∧
        g.tbl.eseq = f.tbl.ck.eseq ∧ g.tbl.rewinding = false ∧ KeepsRegs [] (s.strand core) (t.strand core) ∧
        SameMemory s t)

/-- rngjoin of a good descriptor and a channel that may be bound takes the lowest free entry, Joining, and writes its
handle. On a ring of the strand: rngsend of a good block with room adds it and counts in OWN; rngdone of a count at
or above OWN sets the limit; a wait whose count is reached writes it; the status forms mark gd Pending; rngleave
with nothing in flight frees the entry. Neighbours that agree make a Joining ring Live; a grant, an acknowledgement,
a transmission, which carries the entry's number, key, length, step and block, of the member's own padded with zero
bytes, and the arrival of the next granted entry, whose block lands in its slot, each advance their counts; a break
notice breaks the ring. The lowest free entry, and the least entry that may be granted, are the model's choice (logs
45, 59). (R498, R499, R502, R503, R505, R506, R508, R510, R511, R512, R513, R514) -/
def Obligations.RingsJoinTurnAndLeave : Prop :=
  (∀ (o : OpE) (s : State) (i : Nat) (x : Chan) (bs : List Byte), s.me.Ready o.a → s.me.Ready o.b → s.me.Free o.h →
      let a := s.me.gval o.a.toNat
      let ch := (s.me.gval o.b.toNat).toNat % 8
      let off := a.toNat - 0xFF00000000000000
      let u := s.settleWrites s.cur (spAddr s.cur off) 64
      a.toNat % 64 = 0 → 0xFF00000000000000 ≤ a.toNat → off + 64 ≤ Config.spBytes →
      (u.read s.cur (spAddr s.cur off) 64).err = none → (u.read s.cur (spAddr s.cur off) 64).bytes = bs →
      badDescriptor s.fabid.toNat bs = false → s.mayBind s.cur ch (descField bs 12 4) = true →
      s.freeRingIndex = some i → s.chan s.cur ch = some x → ∃ t y, exec (.rngjoin o) s = .next t ∧
        mfind t.rings i = some (Ring.joined s.cur s.me ch bs) ∧ t.chan s.cur ch = some y ∧ y.ring = some i ∧
        (o.h ≠ 0 → t.me.gval o.h.toNat = BitVec.ofNat 64 (2 ^ 14 + i)) ∧ KeepsRegs [o.h.toNat] s.me t.me ∧
        SameMemory u t) ∧
    (∀ (o : OpE) (s : State) (i : Nat) (r : Ring), s.me.Ready o.h → s.me.Ready o.a → s.me.Ready o.b → i < 64 →
      s.me.gval o.h.toNat = BitVec.ofNat 64 (2 ^ 14 + i) → mfind s.rings i = some r → r.member s.cur s.me = true →
      let a := s.me.gval o.a.toNat
      let len := (s.me.gval o.b.toNat).toNat % 2 ^ 32
      (∀ l pages, a.toNat % 64 = 0 → s.extent s.cur false a extentRuns a.toNat len [] = .ok l pages →
        r.st ≠ .broken → (∀ n, r.limit = some n → r.own < n) → len ≠ 0 → len % 64 = 0 → len ≤ r.blen →
        r.blocks.length < 16 → (s.die (s.cur / 64)).canPin pages = true → ∃ t op, exec (.rngsend o) s = .next t ∧
          mfind t.rings i = some { r with own := (r.own + 1) % 2 ^ 48, blocks := r.blocks ++ [op] } ∧ op.srcp = l ∧
          op.len = len ∧ KeepsRegs [] s.me t.me ∧ SameMemory s t) ∧
      (r.st = .live → r.limit = none → a ≠ 0 → r.own ≤ a.toNat → r.performed = [] → r.staged = none →
        r.arr ≤ a.toNat * (r.p - 1) → ∃ t q, exec (.rngdone o) s = .next t ∧ mfind t.rings i = some q ∧
          q.limit = some a.toNat ∧ (q.st = .draining ∨ q.st = .done) ∧ KeepsRegs [] s.me t.me ∧ SameMemory s t) ∧
      (s.me.Free o.b →
        (∀ e ∈ [(Instr.rngwait o, r.arr % 2 ^ 48), (.rngwaitOut o, r.out % 2 ^ 48)], a.toNat ≤ e.2 →
          exec e.1 s = .next (s.doneReg o.b (BitVec.ofNat 64 e.2))) ∧
        exec (.rngwaitStat o) s = .next (s.donePend o.b (.word (BitVec.ofNat 64
          (r.cause.toNat * 2 ^ 56 + r.st.code * 2 ^ 48 + r.arr % 2 ^ 48)))) ∧
        exec (.rngwaitOwn o) s = .next (s.donePend o.b (.word (BitVec.ofNat 64 r.own)))) ∧
      (r.outs = [] → ∃ t, exec (.rngleave o) s = .next t ∧ mfind t.rings i = none ∧ KeepsRegs [] s.me t.me ∧
        t.me.pc = s.me.pc + 4)) ∧
    (∀ (s : State) (i : Nat) (r : Ring), i < 64 → mfind s.rings i = some r → r.staged = none →
      (∀ prev next, r.st = .joining → r.confirms s.fabid.toNat (r.p - 1) prev prev.next = true →
        r.confirms s.fabid.toNat 1 next next.prev = true →
        exec (.ringNeighbourConfirm i prev next) s = .next (s.setRing i { r with st := .live })) ∧
      (∀ k b, r.st = .live → s.ringBuf i r = some b → r.mayGrant b k = true → (∀ j, j < k → r.mayGrant b j = false) →
        exec (.ringGrant i k true) s = .next (s.setRing i { r with
          given := r.given ++ [k], weirEntry := if b.slotFree k then r.weirEntry else some k, blocked := none })) ∧
      (∀ k, r.st = .live → r.outK ≤ k → k ∉ r.held →
        exec (.ringGrant i k false) s = .next (s.setRing i { r with held := r.held ++ [k] })) ∧
      (∀ p ps, s.ports = p :: ps → r.st = .live → r.outK ∈ r.held →
        let sent (bs : List Byte) : Sent := ⟨r.outK % 2 ^ 32, 0, p, r.core / 64, s.now, 0, none, .entry ⟨r.outK, r.key, r.p,
          r.outK % (r.p - 1) + 1, (bs ++ List.replicate (r.blen - bs.length) 0).take r.blen⟩⟩
        (∀ x, r.outK % (r.p - 1) ≠ 0 → r.inbound.find? (fun x => x.1 + 1 == r.outK) = some x → ∃ t q,
          exec (.ringTransmit i) s = .next t ∧ mfind t.rings i = some q ∧ q.outK = r.outK + 1 ∧
          q.outs = r.outs ++ [sent x.2] ∧ q.inbound = r.inbound.erase x ∧ SameMemory s t) ∧
        (∀ op rest, r.outK % (r.p - 1) = 0 → r.blocks = op :: rest → (s.strand r.core).group = r.group →
          s.heldBack op.core 4 op.id = false →
          let u := s.winSource op.core op.srcp
          u.2.2 = none → ∃ t q, exec (.ringTransmit i) s = .next t ∧ mfind t.rings i = some q ∧ q.outK = r.outK + 1 ∧
            q.outs = r.outs ++ [sent u.2.1] ∧ q.blocks = rest)) ∧
      (∀ (e : RingEntry) (port : Nat) b, port < 18 → (s.link port).live = true → r.st = .live → r.limit = none →
        s.ringBuf i r = some b → e.k = r.arr → r.performed = [] → e.k ∈ r.given → e.key = r.key → e.p = r.p →
        e.step = e.k % (r.p - 1) + 1 → b.slotFree e.k = true →
        ∃ t q, exec (.ringArrival i ⟨port, e⟩) s = .next t ∧ mfind t.rings i = some q ∧ q.arr = r.arr + 1 ∧
          q.given = r.given.erase e.k ∧ q.performed = [] ∧
          ∀ n, n < r.blen → memByte t.mem (sharedPa (b.slotAddr e.k).toNat + n) = e.bytes.getD n 0) ∧
      (∀ o rest, r.outs = o :: rest → r.st = .live → r.leaving = false →
        exec (.ackArrival (.ring i) o.sq) s =
          .next (s.setRing i { r with outs := rest, out := (r.out + 1) % 2 ^ 48 })) ∧
      (∀ c ∈ ringCauses, r.st = .live → ∃ t q, exec (.ringBreakNotice i c) s = .next t ∧ mfind t.rings i = some q ∧
        q.st = .broken ∧ q.cause = c))

/-- Each grank marks gh Pending with its value; fpop with an aligned slot marks gh Pending with a pop of its kernel's
flume, or with 2 where there is none. A halt past its waits leaves its strand Done, and a gexit of the last strand
also its group. GROUP_PLACEMENT places a strand with its entry and g1 to g4; a starved kernel holds; PREEMPT_SAVE of
one strand, where room is wanted and no other group yields first, moves it into an image, STRAND_RESTORE brings its
registers and pc back, and LEASE_RECLAIM takes a saved strand's leases; WATCHDOG_EXPIRY, and TRAP_DISPOSITION of a
trap that nothing else serves, kill the group. That a group is saved or killed whole in the step of the decision is
the model's reading (log 63). (R122, R139, R209, R385, R386, R391, R392, R393, R431, R443, R444, R448) -/
def Obligations.GroupsRunEndAndAreSaved : Prop :=
  (∀ (o : OpE) (s : State), s.me.Free o.h →
      (∀ g x, s.me.group = some g → mfind s.groups g = some x →
        ∀ e ∈ [(Instr.grank o, s.me.rank), (.grankSize o, x.cores.length), (.grankNum o, g % 2 ^ 32),
          (.grankCores o, ((x.cores.filter (fun c => c / 64 == s.cur / 64)).map (fun c => 2 ^ (c % 64))).sum),
          (.grankDies o, ((List.range 6).map (fun d => if x.cores.any (fun c => c / 64 == d) then 2 ^ d else 0)).sum)],
          exec e.1 s = .next (s.donePend o.h (.word (BitVec.ofNat 64 e.2)))) ∧
      (∀ off, s.me.Ready o.a → s.me.gval o.a.toNat = BitVec.ofNat 64 (0xFF00000000000000 + off) → off % 64 = 0 →
        off + 64 ≤ Config.spBytes →
        (s.myKernel s.cur = none → exec (.fpop o) s = .next (s.donePend o.h (.word 2))) ∧
        (∀ k g, s.me.group = some g → s.myKernel s.cur = some k → k.cap ≠ 0 → exec (.fpop o) s =
          .next (s.donePend o.h (.fpop (spAddr s.cur off) (groupKernel g) 0 k.closed none))))) ∧
    (∀ (s : State) (a b k : Nat), s.me.wait = some ⟨1, a, b, k⟩ → s.relMet s.cur 3 a b = true →
      isFirmware s.cur = false → s.me.chan = [] → s.me.frag = [] → s.ringsOf s.cur = [] → s.me.st = .halting →
      (∃ t, exec .halt s = .next t ∧ t.me.st = .done ∧ t.me.group = s.me.group ∧ SameMemory s t) ∧
      (∀ g x, s.me.group = some g → mfind s.groups g = some x → x.st = .running → x.cores = [s.cur] →
        ∃ t y, exec .gexit s = .next t ∧ t.me.st = .done ∧ mfind t.groups g = some y ∧ y.st = .done)) ∧
    (∀ s : State, isFirmware s.cur = true → (s.core s.cur).evhead < (s.core s.cur).evtail →
      exec .halt s = .next (s.doneWith s.me)) ∧
    (∀ (s : State) (i c : Nat) (k : Kernel), mfind s.kernels i = some k → k.killedEarly = [] → k.next < 2 ^ 32 →
      (s.mayPlace i k = true → s.kernelCores k = some [c] → ∃ t, exec (.groupPlacement (groupId i k.next)) s = .next t ∧
        (t.strand c).st = .placed ∧ (t.strand c).pc = k.entry ∧ (t.strand c).mode = false ∧
        (t.strand c).asid = some k.asid ∧ (t.strand c).gval 1 = k.arg ∧
        (t.strand c).gval 2 = BitVec.ofNat 64 k.next ∧ (t.strand c).gval 3 = 0 ∧
        (t.strand c).gval 4 = BitVec.ofNat 64 k.size ∧
        mfind t.groups (groupId i k.next) = some ⟨.running, [c], s.now, 0, 0, false⟩) ∧
      (k.waits = true → 2 ^ 24 ≤ k.waited →
        exec (.groupStarvationHold (groupId i k.next)) s = .next (s.setKernel i { k with hold := some k.next }))) ∧
    (∀ (s : State) (g c : Nat) (x : Group), c < 384 → mfind s.groups g = some x → x.cores = [c] →
      (x.st = .running → (s.strand c).st = .running → (s.strand c).wait = none → s.saveable c = true → s.mayPreempt g = true →
        ∃ t i, exec (.preemptSave g) s = .next t ∧
          (∃ late, mfind t.groups g = some { x with st := .saved, idle := s.now - x.progress, expired := late }) ∧
          mfind t.images (imageKey g c) = some i ∧ i.strand.st = .saved ∧ i.strand.pc = (s.strand c).pc ∧
          KeepsRegs [] (s.strand c) i.strand ∧ (t.strand c).st = .absent) ∧
      (∀ i, x.st = .saved → mfind s.images (imageKey g c) = some i → i.bad = none → i.reclaimed = [] →
        s.coreFree c = true → i.was = 1 → ∃ t, exec (.strandRestore g) s = .next t ∧ (t.strand c).st = .running ∧
          (t.strand c).pc = i.strand.pc ∧ KeepsRegs [] i.strand (t.strand c) ∧
          mfind t.images (imageKey g c) = none ∧
          mfind t.groups g = some { x with st := .running, progress := s.now - x.idle }) ∧
      (∀ k, s.kernelOf g = some k → x.st = .running → s.wdogOf (some k.asid) ≠ 0 →
        x.progress + s.wdogOf (some k.asid) ≤ s.now → ∃ t y, exec (.watchdogExpiry g) s = .next t ∧
          mfind t.groups g = some y ∧ y.st = .killed) ∧
      (x.st = .running → (s.strand c).group = some g → (s.strand c).st = .trapped → (s.strand c).decided = false →
        (s.strand c).reached = false → (s.strand c).causeCode ≠ 0x13 → (s.strand c).causeCode ≠ 0x14 → ∃ t y, exec (.trapDisposition c) s = .next t ∧
          mfind t.groups g = some y ∧ y.st = .killed)) ∧
    (∀ (s : State) (core key : Nat) (i : Image), core < 384 →
      s.images.find? (fun i => i.1 % 512 == core && i.2.strand.frag != []) = some (key, i) →
      exec (.leaseReclaim core) s = .next (s.reclaim key i))

/-- A doorbell in range sets WPTR; a good QCFG enables a queue at Idle; clearing EN resets it, and it is Disabled once
no packet is left; a turn maps a queue; PACKET_FETCH takes the next well-formed packet up. A packet that heads its
ring issues, after the acquire, as its type says: nop and copy at once, launch and graph with the kernel or replay
that passed its checks, retire, signal, timestamp, a feed's record, and a wait whose condition holds.
PACKET_COMPLETE releases a complete packet and ends it once that is pressed; KERNEL_RETIRED frees the flumes. The
acquire before a fetch reads, and how a turn maps its queues, are the model's readings (logs 33, 66). (R388, R408,
R413, R416, R421, R423, R425, R426, R430, R431, R432, R433) -/
def Obligations.QueuesFetchAndPacketsRun : Prop :=
  (∀ (qid : Nat) (v : Word) (s : State), qid < 4096 →
      let q := s.queue qid
      (q.st = .mapped ∨ q.st = .held → q.wptr ≤ v.toNat → v.toNat ≤ q.rptr + 2 ^ q.logsz →
        exec (.doorbell qid v) s = .next (s.setQueue qid { q with wptr := v.toNat })) ∧
      (∀ a, q.st = .disabled → v.getLsbD 15 = true → s.liveByPasid (v.toNat / 2 ^ 16 % 2 ^ 20) = some a →
        2 ≤ v.toNat % 32 → v.toNat % 32 ≤ 16 → v.toNat / 2 ^ 7 % 2 ^ 8 ≠ 0 →
        (s.queues.filter (fun x => x.2.en && x.2.asid == a)).length < 256 → ∃ t,
        exec (.queueEnable qid v) s = .next t ∧ (t.queue qid).st = .idle ∧ (t.queue qid).wptr = 0 ∧
        (t.queue qid).rptr = 0 ∧ (t.queue qid).asid = a ∧ a ∈ t.runList ∧ SameMemory s t) ∧
      (q.st = .idle → v.getLsbD 15 = false → (∀ k ∈ s.kernels, k.2.qid ≠ qid) → (∀ r ∈ s.replays, r.2.qid ≠ qid) →
        ∃ t, exec (.queueDisable qid v) s = .next t ∧ (t.queue qid).st = .resetting ∧ (t.queue qid).en = false ∧
          SameMemory s t) ∧
      (q.st = .resetting → q.wptr ≤ q.rptr → (∀ p ∈ s.packets, p.qid ≠ qid) → ∃ t,
        exec (.queueResetComplete qid) s = .next t ∧ (t.queue qid).st = .disabled ∧ (t.queue qid).wptr = 0 ∧
        (t.queue qid).rptr = 0) ∧
      (∀ a, s.queues = [(qid, q)] → q.st = .idle → q.slot = none → q.overrun = false → q.asid = a → s.runList = [a] → s.turn = none →
        ∃ t, exec .runListTurn s = .next t ∧ (t.queue qid).st = .mapped ∧ (t.queue qid).slot = some 0 ∧
          t.turn = some (a, s.now)) ∧
      (∀ u bs, s.nextFetch = some (qid, q) → s.hostDead = false → q.wptr ≤ q.rptr + 2 ^ q.logsz →
        let k := q.slot.getD 0
        ({ s with lastSlot := k, served := mset s.served k (s.now + 16) } : State).frontAcquire.frontRead q.asid
          (q.slotAddr q.rptr) 64 = .ok u bs →
        let p := newPacket u.nextId qid q.asid q.rptr (BitVec.ofNat 512 (bytesNat bs)) none
        let v := { u.setQueue qid q with nextId := u.nextId + 1, packets := u.packets ++ [p] }
        p.malformed = none → (p.isWait = false → exec .packetFetch s = .next v) ∧
          (p.isWait = true → ∀ w l, v.readList p = .hold w l → exec .packetFetch s = .next (w.setPacket l)))) ∧
    (∀ (s : State) (p : Packet), s.packets = [p] → p.qid < 4096 → p.st = .head → p.node = none → p.ord = false →
      (s.queue p.qid).st = .mapped →
      let u := s.frontAcquire
      let go := fun (v : State) (q : Packet) => Host.Outcome.next ((v.setPacket q).ringIssued q)
      let ok := { p with st := .issued }.finish 0 0 0 0
      (p.ty = 0x0F → exec (.nopPacket p.qid) s = go u (p.finish 0 0 0 0)) ∧
      (p.ty = 0x04 → exec (.copy p.qid) s = go u { p with st := .issued }) ∧
      (p.ty = 0x01 → ∀ v k l, u.launchChecks p.asid p = .make v k l → ∃ t y, exec (.launch p.qid) s = .next t ∧
        mfind t.kernels v.nextId = some y ∧ y.st = .launched ∧ y.asid = p.asid ∧ y.ngroups = p.field 0x30 4 ∧
        y.arg = BitVec.ofNat 64 (p.field 0x28 8) ∧ y.entry = BitVec.ofNat 64 k.entry ∧ y.size = k.group ∧
        y.next = 0) ∧
      (p.ty = 0x03 → ∀ i k, u.kernelByTag p.asid (p.field 0x20 4) = some (i, k) → ∃ t y,
        exec (.retire p.qid) s = .next t ∧ mfind t.kernels i = some y ∧ y.closed = true ∧
        (y.st = .retiring ∨ y.st = .retired)) ∧
      (p.ty = 0x05 → ∀ v bs, u.frontAtom p.asid (p.field 0x20 8) (if p.field 0x30 1 = 0 then 6 else 0)
        (BitVec.ofNat 64 (p.field 0x28 8)) = .ok v bs → exec (.signal p.qid) s = go v ok) ∧
      (p.ty = 0x09 → ∀ v bs, u.frontWriteLine p.asid (p.field 0x20 8) (natBytes 8 (u.ptime u.front).toNat) = .ok v bs →
        exec (.timestamp p.qid) s = go v ({ p with st := .issued, aux2 := u.ptime u.front }.finish 0 0 0 0)) ∧
      (∀ v m, p.read = true → u.waitMask p.asid p.list 1 = .inr (v, m) →
        (p.ty = 0x06 → m = 2 ^ p.list.length - 1 → exec (.waitAll p.qid) s = go v (p.finish 0 0 m 0) ∧
          exec (.waitEvaluation p.qid) s = go v (p.finish 0 0 m 0)) ∧
        (p.ty = 0x07 → m ≠ 0 → exec (.waitAny p.qid) s = go v (p.finish 0 0 m 0) ∧
          exec (.waitEvaluation p.qid) s = go v (p.finish 0 0 m 0))) ∧
      (p.ty = 0x02 → p.field 0x24 1 = 0xFF → p.field 0x30 4 = p.prog + 1 → ∀ w, w = u ∨ w = s → ∀ i k f v bs,
        w.kernelByTag p.asid (p.field 0x20 4) = some (i, k) → k.closed = false → k.cap ≠ 0 →
        mfind k.flumes (w.feedDie 0xFF p.prog) = some f → f.count < k.cap →
        w.frontRead p.asid (p.field 0x28 8 + 64 * p.prog) 64 = .ok v bs → ∃ t y g,
        (w = u → exec (.feed p.qid) s = .next t) ∧
        (w = s → p.read = true → exec (.feedRecordAppend p.qid) s = .next t) ∧
        mfind t.kernels i = some y ∧ mfind y.flumes (w.feedDie 0xFF p.prog) = some g ∧ g.tail = (f.tail + 1) % 2 ^ 48 ∧
        g.recs = f.recs ++ [(f.tail, BitVec.ofNat 512 (bytesNat bs))]) ∧
      (p.ty = 0x08 → ∀ v w bs cs, u.bufferBusy p.asid (p.field 0x20 8) 0 = false → p.field 0x20 8 % 64 = 0 →
        u.frontRead p.asid (p.field 0x20 8) 64 = .ok v bs → graphBad (bytesNat bs) = false →
        v.frontRead p.asid (fieldOf (bytesNat bs) 8 8) (128 * fieldOf (bytesNat bs) 4 2) = .ok w cs →
        (∀ y ∈ (nodesOf (bytesNat cs) (fieldOf (bytesNat bs) 4 2)).zipIdx,
          nodeBad (fieldOf (bytesNat bs) 0x20 4) y.2 y.1 = false) → ∃ (t : State) (r : Replay), exec (.graph p.qid) s = .next t.settleReplays ∧
          mfind t.replays w.nextId = some r ∧ r.nodes = nodesOf (bytesNat cs) (fieldOf (bytesNat bs) 4 2) ∧
          r.completed = [] ∧ r.skipped = [] ∧ r.flying = [])) ∧
    (∀ (s : State) (rid i : Nat) (r : Replay) (x : BitVec 1024), mfind s.replays rid = some r → r.nodes[i]? = some x →
      s.replayRuns rid r = true → r.unread [] = none → r.nextNode = some i → r.flying.length < 16 → s.packets = [] → nodeCond x = false →
      nodeMask x = 0 → nodeField x 0 1 = 0x0F →
      let p := newPacket s.nextId r.qid r.asid 0 (overlay x []) (some (rid, i))
      p.malformed = none → ∃ t, exec (.graphNodeIssue rid i) s = .next t ∧ t.packets = [p.finish 0 0 0 0] ∧
        mfind t.replays rid = some { r with flying := r.flying ++ [i] }) ∧
    (∀ (s : State) (p : Packet), s.packets = [p] → p.status = 0 →
      (p.st = .ready → p.res = 0 → exec (.packetComplete 0) s = .next (s.releasePacket p)) ∧
      (p.st = .released → p.sig = 0 → p.msi = false → p.node = none →
        (∀ e ∈ p.rels, (s.log e.1).pressedTo e.2 = true) → exec (.packetComplete 0) s = .next ({ s with packets := [] } : State).settleReplays)) ∧
    (∀ (s : State) (i : Nat) (k : Kernel), mfind s.kernels i = some k → k.st = .retiring →
      k.done + k.killed = k.ngroups →
      exec (.kernelRetired i) s = .next (s.setKernel i { k.freeFlumes with st := .retired }))

/-- While the command block is not busy, a write of CCMD posts its event and runs its operation: CREATE binds the lowest
Free context and answers its ASID; KILL of an idle context leaves it Dead, DESTROY of a Dead one Tearing; KILLG
kills the named group; QUANTUM and WDOG in range set their value; READIMG writes every line of the Saved strand's
image to a destination that takes them and answers OK, and STATE without an image; TRESET of no context and QUERY
change no context. A Tearing context with nothing outstanding is Free. A strand Trapped on a SYSC goes on behind it
with g1 and g2, and a grant or free changes the owner it names. That the lowest free cells and tag are granted, the
posted event's bytes, the secure path's use of CCMD and CARG, and READIMG's writes as records are the model's
choices (logs 39, 10, 90, 38). (R123, R438, R439, R440, R441, R442, R472) -/
def Obligations.ContextsAndServicesAnswer : Prop :=
  (∀ (v : Word) (sec : Bool) (s : State), s.cwait = [] →
      let u := ({ s with ccmd := v &&& 0x00000FFFFFFF80FF } : State).post (dieOf s.front) 7 v (if sec then 1 else 0)
      let op := v.toNat % 256
      let c := s.ctx s.argAsid
      let a := s.argAsid
      let n := s.carg1.toNat
      (∀ b, op = 1 → v.getLsbD 15 = false → (∀ x ∈ s.ctxs, x.2.st = .free ∨ x.2.pasid ≠ v.toNat / 2 ^ 24 % 2 ^ 20) →
        (List.range 2048).find? (fun a => (s.ctx a).st == .free) = some b → s.carg0.toNat % 64 = 0 →
        s.carg0.toNat < 2 ^ 56 → 4 ≤ n % 32 → n % 32 ≤ 16 → ∃ t, exec (.create v sec) s = .next t ∧
          (t.ctx b).st = .live ∧ (t.ctx b).pasid = v.toNat / 2 ^ 24 % 2 ^ 20 ∧ (t.ctx b).secure = false ∧
          (t.ctx b).fqBase = s.carg0.toNat ∧ (t.ctx b).quantum = 2 ^ 20 ∧ (t.ctx b).wdog = 2 ^ 30 ∧
          t.cres = BitVec.ofNat 64 (b * 2 ^ 16 + 1)) ∧
      (c.secure = false →
        (op = 2 → c.st = .live → s.kernels = [] → s.queues = [] → ∃ t, exec (.kill v sec) s = .next t ∧
          (t.ctx a).st = .dead ∧ t.cres = 2) ∧
        (op = 3 → c.st = .dead → ∃ t, exec (.destroy v sec) s = .next t ∧ (t.ctx a).st = .tearing ∧
          t.cwait = [(a, true)] ∧ t.cres = 3) ∧
        (op = 4 → c.st = .live → ∀ i k x, s.kernelByTag a (n / 2 ^ 32) = some (i, k) →
          mfind s.groups (groupId i (n % 2 ^ 32)) = some x → x.st = .running → ∃ t y, exec (.killg v sec) s = .next t ∧
          mfind t.groups (groupId i (n % 2 ^ 32)) = some y ∧ y.st = .killed) ∧
        (op = 5 → c.st ≠ .free → 2 ^ 16 ≤ n → n ≤ 2 ^ 32 →
          exec (.quantum v sec) s = .next ((u.setCtx a { c with quantum := n }).result 5 0 0)) ∧
        (op = 6 → c.st ≠ .free → n = 0 ∨ (2 ^ 20 ≤ n ∧ n ≤ 2 ^ 40) →
          exec (.wdog v sec) s = .next (((u.latchOverdue a).setCtx a { c with wdog := n }).result 6 0 0)) ∧
        (op = 7 → s.readimg = none → (s.images = [] → exec (.readimg v sec) s = .next (u.result 7 3 0)) ∧
          ∀ i w bs, c.st ≠ .free → s.imageOn a (s.carg0.toNat / 2 ^ 32 % 512) = some i → n % 2 ^ 16 = 0 →
            u.writeImage a n (s.carg0.toNat / 2 ^ 32 % 512) i (fun o => i.byte u (s.carg0.toNat / 2 ^ 32 % 512) o) 0
              i.lines = .ok w bs →
            exec (.readimg v sec) s = .next { w.result 7 0 0 with cwait := [], readimg := none }) ∧
        (op = 9 → exec (.query v sec) s = .next (u.result 9 0 (c.st.code + if c.st = .free then 0 else c.tenant % 256 * 16)))) ∧
      (op = 8 → s.ctxs = [] → exec (.treset v sec) s = .next { u.result 8 0 0 with cwait := [] })) ∧
    (∀ (a : Nat) (s : State), a < 2048 → (s.ctx a).st = .tearing → s.atsReq = [] → s.pri = [] → s.packets = [] →
      ∃ t, exec (.contextTeardownComplete a) s = .next t ∧ t.ctx a = { Ctx.start with tinva := (s.ctx a).tinva, tinvCount := (s.ctx a).tinvCount, inval := (s.ctx a).inval } ∧ t.cwait = s.cwait.filter (fun w => w.1 != a) ∧
        SameMemory s t) ∧
    (∀ (core a : Nat) (s : State), core < 384 → s.inSysc core = true → (s.strand core).asid = some a →
      let g := (s.strand core).gval
      let code := (s.strand core).codeField
      (∀ e ∈ [(0, Instr.info core), (1, .bankgrant core), (2, .bankfree core), (3, .cellgrant core), (4, .cellfree core),
        (5, .taggrant core), (6, .tagfree core), (7, .yield core)], code = e.1 → ∃ t, exec e.2 s = .next t ∧
          (t.strand core).st = .running ∧ (t.strand core).pc = (s.strand core).epc + 4 ∧
          KeepsRegs [1, 2] (s.strand core) (t.strand core)) ∧
      (code = 0 → exec (.info core) s = .next (s.resumeWith core (s.infoWord a) 0)) ∧
      (code = 1 → (g 1).toNat < 384 → (g 2).toNat = 1 → (g 3).toNat = 1 → s.present ((g 1).toNat % 6) = true →
        mfind s.banks (g 1).toNat = none → ∃ t, exec (.bankgrant core) s = .next t ∧
          mfind t.banks (g 1).toNat = some a ∧ (t.strand core).gval 2 = 0 ∧
          ∀ x, sharedAddr ((g 1).toNat * 2 ^ 20) ≤ x → x < sharedAddr (((g 1).toNat + 1) * 2 ^ 20) → memByte t.mem x = 0) ∧
      (code = 2 → (g 1).toNat < 384 → (g 2).toNat = 1 → (g 3).toNat = 1 → mfind s.banks (g 1).toNat = some a →
        s.bankLeased (g 1).toNat = false → ∃ t, exec (.bankfree core) s = .next t ∧ mfind t.banks (g 1).toNat = none ∧
          (t.strand core).gval 2 = 0 ∧ SameMemory s t) ∧
      (code = 3 → (g 1).toNat < 6 → (g 2).toNat = 1 → s.present (g 1).toNat = true →
        mfind s.cellOwner (512 * (g 1).toNat) = none → ∃ t, exec (.cellgrant core) s = .next t ∧
          mfind t.cellOwner (512 * (g 1).toNat) = some a ∧ (t.strand core).gval 2 = 0 ∧
          (t.strand core).gval 1 = BitVec.ofNat 64 (0xFF30000000000000 + 64 * (512 * (g 1).toNat))) ∧
      (∀ l, l < 3072 → code = 4 → g 1 = BitVec.ofNat 64 (0xFF30000000000000 + 64 * l) → (g 2).toNat = 1 →
        mfind s.cellOwner l = some a → (s.cell l).st = .free → ∃ t, exec (.cellfree core) s = .next t ∧
          mfind t.cellOwner l = none ∧ (t.strand core).gval 2 = 0) ∧
      (code = 5 → mfind s.tagOwner 0 = none → ∃ t, exec (.taggrant core) s = .next t ∧ mfind t.tagOwner 0 = some a ∧
        (t.strand core).gval 1 = 0xFF30000000030000 ∧ (t.strand core).gval 2 = 0) ∧
      (∀ n, n < 8 → code = 6 → g 1 = BitVec.ofNat 64 (0xFF30000000030000 + 64 * n) → mfind s.tagOwner n = some a →
        (s.cell (3072 + n)).st = .free → ∃ t, exec (.tagfree core) s = .next t ∧ mfind t.tagOwner n = none ∧
          (t.strand core).gval 2 = 0) ∧
      (code = 7 → s.runList = [] → s.turn = none → s.queues = [] →
        exec (.yield core) s = .next (s.resumeWith core 0 0)))

/-- A TROOT write sets the root and starts the invalidation of the whole space, as does TINV with GO and count 0; it
completes once nothing of the range is pinned and its publications are pressed. The answers to PRI and ATS end their
request: a failure and a timeout are kept for the core, a completion becomes an entry, and an invalidate drops it. A
link released from reset trains; a full result makes it Up, a third failure Dead; a lost lane retrains it at half
width. An acknowledgment of what the far die received ends its operation. A time exchange sets FAB by the bounds of
a new path that carries flits, keeps it on an unchanged one, and slews a counter by at most one tick in 1,024,
within two ticks of the other dies. Where LRETRY and LSKEW are kept and how c.PTIME runs are the model's (logs 46,
77, 109). (R463, R464, R465, R475, R476, R477, R478, R479, R481, R482) -/
def Obligations.TranslationsLinksAndTimeAreKept : Prop :=
  (∀ (a : Nat) (v : Word) (s : State), a < 2048 →
      ((s.ctx a).inval = none → v.getLsbD 0 = true → v.toNat / 2 ^ 32 = 0 → ∃ t i, exec (.tinvGo a v) s = .next t ∧
        (t.ctx a).inval = some i ∧ i.lo = 0 ∧ i.hi = 2 ^ 56 ∧ SameMemory s t ∧
        ∀ c, ∀ l ∈ (t.core c).tlb, l.asid = a → 2 ^ 56 ≤ l.va ∨ l.va + l.size = 0) ∧
      ((s.ctx a).inval = none → ∃ t i, exec (.trootWrite a v) s = .next t ∧
        mget t.troot a 0 = v &&& 0x00FFFFFFFFF00000 ∧ (t.ctx a).inval = some i ∧ i.lo = 0 ∧ i.hi = 2 ^ 56 ∧
        SameMemory s t) ∧
      ((s.ctx a).inval.isSome = true → exec (.trootWrite a v) s = .next s) ∧
      (∀ i, (s.ctx a).inval = some i → s.rangePinned a i = false → s.rangePressed i = true →
        exec (.invalidationComplete a) s = .next (s.setCtx a { s.ctx a with inval := none })) ∧
      (∀ x, ∃ t, exec (.atsInvalidate a x) s = .next t ∧ t = { s with ats := t.ats } ∧
        ∀ e, e ∈ t.ats ↔ e ∈ s.ats ∧ ¬(e.1 = a ∧ e.2.1 = x)) ∧
      (∀ x y n, s.atsReq = [(a, x, n)] → (s.ctx a).st = .live → exec (.atsTranslationCompletion a x y) s =
        .next { s with atsReq := [], ats := (a, x, y) :: s.ats })) ∧
    (∀ (core : Nat) (r : PriReq) (s : State), core < 384 → s.pri = [r] → r.core = core →
      ((s.ctx r.asid).st = .live → exec (.priResponse core true) s = .next { s with pri := [] }) ∧
      exec (.priResponse core false) s =
        .next { s with pri := [], priFail := s.priFail ++ [(core, r.asid, r.page)] } ∧
      (r.tick + 4400000 ≤ s.now → exec (.priTimeout core) s =
        .next { s with pri := [], priFail := s.priFail ++ [(core, r.asid, r.page)] })) ∧
    (∀ (n : Nat) (s : State), isLink n = true →
      ((s.link n).st = .down → ∃ t, exec (.linkResetRelease n) s = .next t ∧ (t.link n).st = .training) ∧
      ((s.link n).st = .training → (s.link n).cap = fullWidth n →
        (∃ t, exec (.linkTrainingResult n .full) s = .next t ∧ (t.link n).st = .up ∧ (t.link n).width = fullWidth n ∧
          (t.link n).fails = 0) ∧
        ((s.link n).fails + 1 < 3 → ∃ t, exec (.linkTrainingResult n .fail) s = .next t ∧
          (t.link n).st = .training ∧ (t.link n).fails = (s.link n).fails + 1) ∧
        (3 ≤ (s.link n).fails + 1 → ∃ t, exec (.linkTrainingResult n .fail) s = .next t ∧ (t.link n).st = .dead)) ∧
      (((s.link n).st = .up → (s.link n).width = fullWidth n → ∃ t, exec (.laneFailure n) s = .next t ∧
        (t.link n).st = .training ∧ (t.link n).cap = fullWidth n / 2 ∧ (t.link n).width = 0))) ∧
    (∀ (a b p : Nat) (o : FlowOp) (f : DieFlow) (s : State), a < 6 → b < 6 → p < 8 →
      mfind s.dieFlows (48 * a + 8 * b + p) = some f → f.ops = [o] →
      ((unwrapSq f.next o.sq).any f.has = true → ∃ t, exec (.ackArrival (.dies a b p) o.sq) s = .next t ∧
        mfind t.dieFlows (48 * a + 8 * b + p) = some { f with ops := [] } ∧ SameMemory s t) ∧
      ((unwrapSq f.next o.sq).any f.has = false → exec (.ackArrival (.dies a b p) o.sq) s = .next s) ∧
      (o.tick + 512 ≤ s.now → (s.link (32 + a)).st ≠ .training → (s.link (32 + b)).st ≠ .training → o.attempts + 1 < 8 →
        ∃ t, exec (.retryTimeout (.dies a b p) o.sq) s = .next t ∧
          mfind t.dieFlows (48 * a + 8 * b + p) = some { f with ops := [{ o with attempts := o.attempts + 1, tick := s.now }] } ∧
          (t.link (32 + a)).retry = ((s.link (32 + a)).retry + 1) % 2 ^ 48)) ∧
    (∀ (d : Nat) (fab : Option (List (Nat × BitVec 32))) (s : State), d < 6 →
      (∃ t, exec (.timeExchange d .none fab) s = .next t ∧ (t.die d).ptime = (s.die d).ptime ∧
        (t.die d).skew.extractLsb' 0 8 = (s.die d).skew.extractLsb' 0 8 ∧
        (fab.any s.mayAlign = false →
          (t.die d).skew.extractLsb' 8 32 = 0xFFFFFFFF#32 ∧ (t.die d).skew.getLsbD 40 = false) ∧
        ∀ l, fab = some l → s.mayAlign l = true →
          ((s.die d).path = some (l.map (·.1)) → (t.die d).skew = (s.die d).skew ∧ ∀ n, (t.link n).skew = (s.link n).skew) ∧
          ((s.die d).path ≠ some (l.map (·.1)) → (t.die d).skew.getLsbD 40 = true ∧
            ((t.die d).skew.extractLsb' 8 32).toNat = min (l.map (fun x => (t.link x.1).skew)).sum (2 ^ 32 - 1) ∧
            ∀ n x, l = [(n, x)] → (∀ e, e < 6 → e ≠ d → n ∉ (s.die e).path.getD []) → (t.link n).skew = x.toNat)) ∧
      ((s.die d).slewed ≤ s.now → s.inStep d { s.die d with ptime := (s.die d).ptime + 1 } = true →
        ∃ t, exec (.timeExchange d .double fab) s = .next t ∧
          (t.die d).ptime = (s.die d).ptime + 1 ∧ (t.die d).slewed = s.now + 1024) ∧
      ((s.die d).slewed ≤ s.now → s.inStep d { s.die d with lag := (s.die d).lag + 1 } = true →
        ∃ t, exec (.timeExchange d .hold fab) s = .next t ∧
          (t.die d).lag = (s.die d).lag + 1 ∧ (t.die d).slewed = s.now + 1024) ∧
      (s.now < (s.die d).slewed → ∃ t, exec (.timeExchange d .double fab) s = .next t ∧
        (t.die d).ptime = (s.die d).ptime))

/-- A good POWER_ON of a package without power, a warm reset that is due, RSTCTL with its code and MANAGEMENT_RESET each
boot the package: memory but the host's reads zero, and with every test passed all dies are present, the links have
the widths of their training and the BARs answer. Power loss keeps only host memory. Heat stops a block and asks for
a reset; throttling, readings, updates and reports change what they name, and POWER stays within the budgets. An
aligned register write writes BAR 0, a narrow one nothing but DROP of a bell; BAR 2 reads and writes shared bytes.
An undefined word and a failed fetch trap at the pc. How a boot goes, what outlives it, the low bits of a debugger's
address, DROP at every offset of a bell, and a reading's layout are the model's (logs 67, 68, 81, 91, 42). (R10,
R107, R517, R518, R520, R522, R523, R524, R525, R526, R550) -/
def Obligations.ThePackageStartsStopsAndIsManaged : Prop :=
  (∀ (b : Boot) (s : State), bootOk b = true →
      (s.powered = false → exec (.powerOn b) s = .next (s.boot b)) ∧
      (s.powered = true → s.resetDue = true → exec (.warmReset b) s = .next (s.boot b)) ∧
      (exec (.rstctl 0x56AF b) s = .next (s.boot b)) ∧
      (s.ready = true → exec (.managementReset b) s = .next (s.boot b)) ∧
      (∀ x, x < 2 ^ 60 ∨ 2 ^ 61 ≤ x → memByte (s.boot b).mem x = 0) ∧
      (b.imageBad = [] → b.clusterBad = [] → b.memoryBad = [] → b.basinBad = false → (∀ d, d < 6 → linkFails b d = false) →
        (∀ d e, d < 6 → e < 6 → (d, e) ∈ b.acceptances) → (s.boot b).ready = true ∧ (s.boot b).stage = 7 ∧
        (s.boot b).rsvg = b.rsvg.toNat ∧ (s.boot b).fabid = b.fabid ∧
        (∀ n, isLink n = true → ((s.boot b).link n).width = trainedWidth n (bootTraining b n)) ∧
        ∀ d, d < 6 → (s.boot b).present d = true ∧
          ((s.boot b).mayAlign (bootPath b d) = true → ((s.boot b).die d).skew.getLsbD 40 = true) ∧ ((s.boot b).die d).ptime = b.time ∧
          ((s.boot b).strand (64 * d)).st = .running ∧ ((s.boot b).strand (64 * d)).mode = true)) ∧
    (∀ (s : State),
      (∃ t, exec .inputPowerLoss s = .next t ∧ t.powered = false ∧ t.cores = [] ∧
        ∀ x, memByte t.mem x = if 2 ^ 60 ≤ x ∧ x < 2 ^ 61 then memByte s.mem x else 0) ∧
      (∀ k, (∃ t, exec (.blockThrottle k) s = .next t ∧ k ∈ t.throttled ∧ t = { s with throttled := t.throttled }) ∧
        (∃ t, exec (.throttleRecovery k) s = .next t ∧ k ∉ t.throttled ∧ t = { s with throttled := t.throttled }) ∧
        ∃ t, exec (.thermalStop k) s = .next t ∧ k ∈ t.stopped ∧ t.resetDue = true ∧ SameMemory s t) ∧
      (∀ l : List Nat, (l.length ≤ 8 ∧ (∀ x ∈ l.zip [3080, 3080, 3080, 3080, 3080, 3080, 1500, 2000], x.1 ≤ x.2) →
          exec (.powerRefresh l) s = .next { s with power := BitVec.ofNat 32 l.sum } ∧ l.sum ≤ 22000) ∧
        (¬(l.length ≤ 8 ∧ ∀ x ∈ l.zip [3080, 3080, 3080, 3080, 3080, 3080, 1500, 2000], x.1 ≤ x.2) →
          exec (.powerRefresh l) s = .next s)) ∧
      (s.ready = true →
        (∀ x, exec (.pldmUpdate x) s = .next { s with update := some x }) ∧
        ∃ t, exec .managementReading s = .next t ∧ t.output.take 4 = natBytes 4 s.power.toNat ∧
          t.output.drop 12 = [BitVec.ofNat 8 ((s.link 48).st == .dead).toNat] ∧ SameMemory s t) ∧
      (∀ n r, s.report = some r → r.diestat.length = 6 → ∃ t, exec (.attestationRequest n) s = .next t ∧
        t.report = some { r with nonce := n, ptime := s.ptime s.front } ∧ t.output.length = 29968 ∧ SameMemory s t) ∧
      (∀ off v, off % 8 = 0 → exec (.registerWrite off v) s = .next (s.writeBar0 off v)) ∧
      (∀ q r n, q < 4096 → r < 4096 → n = 1 ∨ n = 2 ∨ n = 4 → exec (.bar0NarrowWrite (0x1000000 + 0x1000 * q + r) n) s =
        .next (s.setQueue q { s.queue q with drop := true })) ∧
      (∀ off n, off < 0x1000000 → n = 1 ∨ n = 2 ∨ n = 4 → exec (.bar0NarrowWrite off n) s = .next s) ∧
      (∀ off (bs : List Byte), bs ≠ [] → off % 64 + bs.length ≤ 64 → off + bs.length ≤ Config.sharedBytes →
        s.present (off / 2 ^ 20 % 6) = true →
        (∃ t, exec (.bar2Access true off bs) s = .next t ∧ SameOutside (sharedAddr off) bs.length s t ∧
          ∀ i, i < bs.length → memByte t.mem (sharedAddr off + i) = bs.getD i 0) ∧
        (mfind s.failed (sharedAddr off / 64) = none → ∃ t, exec (.bar2Access false off bs) s = .next t ∧
          SameMemory s t ∧ t.output = memBytes s.mem (sharedAddr off) bs.length)) ∧
      (∀ d, d < 6 → exec (.firmwareTimer d) s = .next (s.post d 3 (s.die d).ptime 0)) ∧
      (∀ c pc, c < 384 → (s.strand c).st = .trapped → (s.strand c).decided = true → ∃ t,
        exec (.debuggerResume c pc) s = .next t ∧ (t.strand c).st = .running ∧
        (t.strand c).pc = pc &&& 0xFFFFFFFFFFFFFFFC ∧ KeepsRegs [] (s.strand c) (t.strand c) ∧ SameMemory s t) ∧
      (∀ w, exec (.undefInstruction w) s = s.trap 0x01 w) ∧
      (∀ c a, exec (.instructionFetchFault c a) s = s.trap c a))

/-- At reset the strand of each firmware core is Running in F mode, and every other core place holds no strand. On every
core the registers of R120, R40, R41, R61, c.LCLK and the event ring are 0, the log has no record, and every general
and vector register is Full; every bank has format 0x0000FF0F; every barrier cell, ring entry, tile and context is
Free, every queue Disabled, every link Down with LSKEW all ones; c.PTSKEW reads FAB all ones and DIE 2, and FABID
0x1FF. Memory is canonical. That a general or vector register reads 0, that pc is 0, and that memory reads 0 are the
model's choices (logs 2, 5). (R40, R41, R61, R63, R103, R120, R125, R272, R287, R364, R476, R482) -/
def Obligations.ResetLeavesTheStatedValues : Prop :=
  State.reset.Canonical ∧ State.reset.powered = true ∧ State.reset.resetDue = false ∧
    (∀ core, core < 384 →
      (State.reset.strand core).st = (if core % 64 = 0 then .running else .absent) ∧
      (State.reset.strand core).mode = decide (core % 64 = 0) ∧
      State.reset.control core 0x034 = (if core % 64 = 0 then 1 else 0) ∧
      (∀ n ∈ [0x000, 0x001, 0x002, 0x003, 0x004, 0x011, 0x020, 0x021, 0x030, 0x031, 0x032, 0x033, 0x100, 0x101, 0x102],
        State.reset.control core n = 0) ∧
      State.reset.control core 0x008 = 0xFFFFFFFF ∧ State.reset.control core 0x009 = 0xFFFFFFF ∧
      State.reset.control core 0x012 = 0xFFFFFFFF02 ∧ State.reset.log core = Log.start ∧
      (∀ n, (State.reset.strand core).gval n = 0 ∧ (State.reset.strand core).gst n = .full ∧
        (State.reset.strand core).vst n = .full) ∧
      (State.reset.strand core).pc = 0) ∧
    (∀ b, State.reset.format b = 0x0000FF0F) ∧
    (∀ l, (State.reset.cell l).st = .free) ∧ (∀ r, mfind State.reset.rings r = none) ∧
    (∀ a, (State.reset.ctx a).st = .free) ∧ (∀ q, (State.reset.queue q).st = .disabled) ∧
    (∀ n, (State.reset.link n).st = .down ∧ (State.reset.link n).skew = 2 ^ 32 - 1) ∧
    (∀ d t, State.reset.tileState d t = 0) ∧ State.reset.fabid = 0x1FF ∧ (∀ a, memByte State.reset.mem a = 0)

/-- Where a strand of a powered die is Running, Stalled or HALTing, owes no trap and is not held by its group's exit,
and the bytes fetched at its pc decode to i, a step that moves it is exec of i after the fetch, with the progress of
its group and single step added by afterExec; likewise, with no schedule, the Running strand in focus. A step that
moves a table at a micro-order i is exec of i, with the progress of its group, and a part of a WLD goes ahead; a
step that moves an event that may happen is exec of it, and of the management commands it lets through, which are
held until then; a grant performs the writes it names. What a tick has passed does nothing, and neither does a
strand or table without power or while a reset is due. afterMove lets firmware kill what R303 asks for. The
schedule, its turns and its grants are the model's own (logs 1, 73). (R72, R76, R92, R107, R225, R525) -/
def Obligations.AStepRunsTheDecodedInstruction : Prop :=
  ∀ (s v : State) (n core h : Nat) (ch : Choice) (rest : List Slot) (bs after : List Byte) (i : Instr), core < 384 →
    (s.sched = ⟨n, .strand core, ch⟩ :: rest → turnLt [7, core, 1] (s.advance n).phase = false →
      let u : State := { s.advance n with sched := rest, choice := ch, cur := core, phase := [7, core, 2] }
      u.powered = true → u.resetDue = false → u.dieMoves (core / 64) = true → u.exitHolds core = false →
      u.me.st = .running ∨ u.me.st = .stalled ∨ u.me.st = .halting → u.me.owes = false →
      u.me.requeues = false → u.fetch core u.me.pc = (v, .word bs) → decode bs = .ok (i, after) →
      step s = afterMove (afterExec u.me (exec i v))) ∧
    (s.sched = [] → (s.advance 1).cur = core →
      let u : State := { s.advance 1 with choice := Choice.start, phase := [7, core, 2] }
      u.powered = true → u.resetDue = false → u.dieMoves (core / 64) = true → u.exitHolds core = false →
      u.me.st = .running → u.me.owes = false →
      u.me.requeues = false → u.fetch core u.me.pc = (v, .word bs) → decode bs = .ok (i, after) →
      step s = afterMove (afterExec u.me (exec i v))) ∧
    (s.sched = ⟨n, .table core h, ch⟩ :: rest → isHandle h = true → turnLt [8] (s.advance n).phase = false →
      let u : State := { s.advance n with sched := rest, choice := ch, cur := core, curTable := h, phase := [8] }
      ∀ t, u.powered = true → u.resetDue = false → u.dieMoves (core / 64) = true → u.tbl core h = some t →
      t.upc < t.words.length →
      decodeOrder (decide (8 ≤ h)) (t.words.getD t.upc 0) (t.words.getD (t.upc + 1) 0) = .ok i → exec i u = .next v →
      step s = afterMove (.next (if tblStarted (some t) (v.tbl core h) then v.progressed core else v))) ∧
    (let u : State := { s.advance n with sched := rest, choice := ch }
     (s.sched = ⟨n, .event i, ch⟩ :: rest →
        (u.turn? (.event i) = none →
          (u.holds i = true → step s = afterMove (.next { u with pending := u.pending ++ [i] })) ∧
          (u.holds i = false → u.mayHappen i = true → step s = afterMove (afterEvent (exec i u)))) ∧
        ∀ t, u.turn? (.event i) = some t → turnLt t u.phase = false →
          let w : State := { (if turnLt t [10] then u else u.settleCells) with phase := turnAfter t }
          (w.holds i = true → step s = afterMove (.next { w with pending := w.pending ++ [i] })) ∧
          (w.holds i = false → w.mayHappen i = true → step s = afterMove (afterEvent (exec i w)))) ∧
      (∀ k w x shape ty tail gen col, s.sched = ⟨n, .part core h k, ch⟩ :: rest → h < 4 → u.powered = true → u.resetDue = false →
        turnLt [8] u.phase = false → u.dieMoves (core / 64) = true →
        let p : State := { u with cur := core, curTable := h, phase := [8] }
        ∀ t, u.tbl core h = some t → t.upc < t.words.length → w = t.words.getD t.upc 0 → x = t.words.getD (t.upc + 1) 0 →
        decodeOrder false w x = .ok (.wld shape ty tail gen col) → wldPart shape ty gen col k p = .next v →
        step s = afterMove (.next (if tblStarted (some t) (v.tbl core h) then v.progressed core else v))) ∧
      (∀ k, s.sched = ⟨n, .grant core k, ch⟩ :: rest → u.powered = true → u.resetDue = false →
        step s = afterMove (.next (u.grantWrite core k))) ∧
      ∀ m, s.sched = ⟨n, m, ch⟩ :: rest →
        (∀ t, u.turn? m = some t → turnLt t u.phase = true → step s = .next u) ∧
        (u.powered = false ∨ u.resetDue = true → u.killDue = [] → m = .strand core ∨ m = .table core h →
          ∃ p, step s = .next { u with phase := p }))

/-- Words of the strand formats, a PQ pair, and words of the matrix and copy tables, with their fields set apart, decode
to the instructions that the spec gives them; the all-zero word, a word with an undefined function code, and nop
with a reserved bit set, decode to nothing. (R72, R74, R75, R90, R94, R234, R361) -/
def Obligations.WrittenWordsDecode : Prop :=
  (∀ e ∈ ([(0x04664401, .sub ⟨3, 6, 8, true, false⟩), (0x08668012, .addi ⟨3, 6, true, 18⟩),
        (0x14668802, .shliW ⟨3, 6, true, 2⟩), (0x2466824D, .bfx ⟨3, 6, true, 9, 13⟩),
        (0x28664403, .div ⟨3, 6, 8, true, false⟩), (0x44C8800D, .bne ⟨6, 8, true, false, 13⟩), (0x5C00000D, .jal 13),
        (0x6866920D, .ld ⟨3, 6, true, 1, 1, 13⟩), (0x6C66920D, .st ⟨3, 6, true, 1, 1, 13⟩),
        (0x70664481, .atom ⟨3, 6, 8, true, false, 2, 0, 1⟩), (0x80664780, .vadd ⟨3, 6, 8, 15, 0⟩),
        (0xA0464400, .flease ⟨2, 6, 8, true, false⟩), (0xA4464400, .tload ⟨2, 6, 8, true, false⟩),
        (0xA8464422, .cpym ⟨2, 6, 8, true, false⟩ 2), (0xAC864412, .wwr ⟨4, 6, 8, true, false⟩ 2),
        (0xB0664400, .rngjoin ⟨3, 6, 8, true, false⟩), (0xB4A00000, .mfence ⟨5, 0, 0, false, false⟩),
        (0xB8800010, .barr ⟨4, 0, 0, false, false⟩), (0xBC000040, .gexit), (0xC0000000, .nop), (0xC0000009, .eret),
        (0xC4000001, .trap 1)] : List (IWord × Instr)),
      decode (wordBytes e.1) = .ok (e.2, [])) ∧
    (∀ x : IWord,
      decodeOrder false 0x08440800 x = .ok (.wld 2 1 false 0 1) ∧ decodeOrder false 0x0C000000 x = .ok .wswap ∧
      decodeOrder false 0x10461091 x = .ok (.mma 2 1 2 0 1 9 1) ∧ decodeOrder true 0x82D80000 x = .ok (.cpo 2 3 1 true) ∧
      decodeOrder true 0x8ADA0000 x = .ok (.gto 2 3 1 true 1)) ∧
    decode (wordBytes 0x00000000) = .error (.unknown 0) ∧ decode (wordBytes 0x04664481) = .error (.unknown 0x04664481) ∧
    decode (wordBytes 0xC0200000) = .error (.reserved 0xC0200000)

/-- The bytes of every well-formed strand instruction, whatever follows them, decode to that instruction and what
follows; what the decoder accepts is the bytes of the instruction it answers; and the words of every well-formed
micro-order, whatever word follows a one-word order, are read as that order in the code space of its table. (R72,
R76, R90, R94) -/
def Obligations.DecodingUndoesEncoding : Prop :=
  ∀ (i : Instr) (rest : List Byte), (i.wf = true →
      (i.isStrand = true → decode (encodeBytes i ++ rest) = .ok (i, rest)) ∧
      (i.isMatrix = true → ∀ x, decodeOrder false ((encode i).headD 0) ((encode i).getD 1 x) = .ok i) ∧
      (i.isCopy = true → ∀ x, decodeOrder true ((encode i).headD 0) x = .ok i)) ∧
    (∀ bs, decode bs = .ok (i, rest) → bs = encodeBytes i ++ rest ∧ i.wf = true)

/-- The memory of the reset state is canonical. If the memory of a state is canonical (addresses strictly rising, no
entry that reads as an unlisted address does) and a step answers a next state, the memory of that state is
canonical, so that equal memories are equal data. The canonical form is the model's own. (R259, R266) -/
def Obligations.EveryStepKeepsMemoryCanonical : Prop :=
  State.reset.Canonical ∧ ∀ s t : State, s.Canonical → step s = .next t → t.Canonical

/-- In every state, whatever its operands, mode, registers and resources, exec of a strand instruction or of a micro-
order answers a next state: its effect, its wait or its trap; and no step of the package is refused. (R107, R116,
R225) -/
def Obligations.NoWordStopsTheMachine : Prop :=
  (∀ (i : Instr) (s : State), i.isStrand = true ∨ i.isMatrix = true ∨ i.isCopy = true → ∃ t, exec i s = .next t) ∧
    (∀ (s : State) (r : Refusal), step s ≠ .refused r)
end

