-- ==== Sys2Proof/Laws/Answers.lean ====
section
/-! SUPPORT. Which shared operations answer a next state: each does when what follows it does. -/

namespace Sys2Proof.Machine

set_option Elab.async false

/-- The outcome is a next state. -/
def Answers (r : Result State) : Prop := ∃ t, r = .next t

theorem answers_next (s : State) : Answers (.next s) := ⟨s, rfl⟩
theorem answers_trap (s : State) (c : Cause) (x : Word) : Answers (s.trap c x) := ⟨_, rfl⟩
theorem answers_trapCode (s : State) (c : Cause) (x : BitVec 12) : Answers (s.trapCode c x) := ⟨_, rfl⟩
theorem answers_trapHandle (s : State) (c : Cause) (h : BitVec 4) (x : Word) : Answers (s.trapHandle c h x) := ⟨_, rfl⟩
theorem answers_endWith (s : State) (t : Strand) : Answers (s.endWith t) := ⟨_, rfl⟩
theorem answers_endAt (s : State) (t : Strand) (pc : Word) : Answers (s.endAt t pc) := ⟨_, rfl⟩
theorem answers_endVector (s : State) (t : Strand) (n : Nat) : Answers (s.endVector t n) := ⟨_, rfl⟩
theorem answers_endStep (s : State) (t : Tbl) (n : Nat) : Answers (s.endStep t n) := ⟨_, rfl⟩
theorem answers_endFrag (s : State) (f : Frag) : Answers (s.endFrag f) := ⟨_, rfl⟩
theorem answers_waitStep (s : State) (t : Tbl) (b : Bool) : Answers (s.waitStep t b) := ⟨_, rfl⟩
theorem answers_failStep (s : State) (c : Cause) (a : Word) : Answers (s.failStep c a) := ⟨_, rfl⟩
theorem answers_consume (s : State) (k l : Nat) (a : Word) : Answers (s.consume k l a) := ⟨_, rfl⟩

/-! The shapes of scalar instructions. -/

theorem answers_gate (s : State) (l : List Src1) (k : Result State) (h : Answers k) : Answers (s.gate l k) := by
  unfold State.gate
  split
  · exact answers_trap ..
  · split
    · exact answers_next _
    · exact h
theorem answers_src1 (s : State) (a : Reg) (pa : Bool) (k : Word → Result State) (h : ∀ x, Answers (k x)) :
    Answers (s.src1 a pa k) := answers_gate _ _ _ (h _)
theorem answers_src2 (s : State) (a : Reg) (pa : Bool) (b : Reg) (pb : Bool) (k : Word → Word → Result State)
    (h : ∀ x y, Answers (k x y)) : Answers (s.src2 a pa b pb k) := answers_gate _ _ _ (h _ _)
theorem answers_src3 (s : State) (a : Reg) (pa : Bool) (b : Reg) (pb : Bool) (c : Reg) (pc : Bool)
    (k : Word → Word → Word → Result State) (h : ∀ x y z, Answers (k x y z)) : Answers (s.src3 a pa b pb c pc k) :=
  answers_gate _ _ _ (h _ _ _)
theorem answers_dest (s : State) (d : Reg) (k : Result State) (h : Answers k) : Answers (s.dest d k) := by
  unfold State.dest
  split
  · exact answers_next _
  · exact h
theorem answers_write (s : State) (d : Reg) (x : Word) : Answers (s.write d x) :=
  answers_dest _ _ _ (answers_endWith ..)
theorem answers_produce (s : State) (d : Reg) (x : Src) : Answers (s.produce d x) :=
  answers_dest _ _ _ (answers_endWith ..)
theorem answers_alu2 (o : OpA) (f : Word → Word → Word) (s : State) : Answers (alu2 o f s) :=
  answers_src2 _ _ _ _ _ _ fun _ _ => answers_write ..
theorem answers_alu1 (o : OpA) (f : Word → Word → Word) (s : State) : Answers (alu1 o f s) :=
  answers_src1 _ _ _ _ fun _ => answers_write ..
theorem answers_aluI (d a : Reg) (ea : Bool) (y : Word) (f : Word → Word → Word) (s : State) :
    Answers (aluI d a ea y f s) := answers_src1 _ _ _ _ fun _ => answers_write ..
theorem answers_divide (o : OpA) (f : Word → Word → Word) (s : State) : Answers (divide o f s) :=
  answers_src2 _ _ _ _ _ _ fun _ _ => answers_produce ..
theorem answers_branch (o : OpB) (f : Word → Word → Bool) (s : State) : Answers (branch o f s) := by
  refine answers_src2 _ _ _ _ _ _ fun _ _ => ?_
  split
  · exact answers_endAt ..
  · exact answers_endWith ..
theorem answers_controlGate (s : State) (n : Nat) (w : Word) (k : Result State) (h : Answers k) :
    Answers (s.controlGate n w k) := by
  unfold State.controlGate
  repeat' first | exact answers_trap .. | exact answers_next _ | exact h | split

/-! Accesses, releases and joins. -/

theorem answers_access (s : State) (a : Word) (n : Nat) (c : Access) (k : State → Nat → Result State)
    (h : ∀ s x, Answers (k s x)) : Answers (s.access a n c k) := by
  unfold State.access
  repeat' first | exact answers_trap .. | exact answers_next _ | exact h _ _ | split | dsimp only
theorem answers_vaccess (s : State) (b : Bool) (l : List (Nat × Nat)) (k : State → List (Nat × Nat) → Result State)
    (h : ∀ s x, Answers (k s x)) : Answers (s.vaccess b l k) := by
  unfold State.vaccess
  repeat' first | exact answers_trap .. | exact answers_next _ | exact h _ _ | split | dsimp only
theorem answers_resolved (s : State) (e : Ext) (k : State → List (Nat × Nat) → List PinRef → Result State)
    (h : ∀ s x y, Answers (k s x y)) : Answers (s.resolved e k) := by
  unfold State.resolved
  repeat' first | exact answers_trap .. | exact answers_next _ | exact h _ _ _ | split
theorem answers_release (s : State) (c : BitVec 3) (n : Nat) (k : State → Result State) (h : ∀ s, Answers (k s)) :
    Answers (s.release c n k) := by
  unfold State.release
  dsimp only
  repeat' first | exact answers_next _ | exact h _ | split
theorem answers_join (s : State) (l : List Nat) (k : State → Result State) (h : ∀ s, Answers (k s)) :
    Answers (s.join l k) := by
  unfold State.join
  repeat' first | exact answers_next _ | exact answers_trapHandle .. | exact h _ | split | dsimp only
theorem answers_haltSteps (s : State) (k : State → Result State) (h : ∀ s, Answers (k s)) : Answers (s.haltSteps k) := by
  unfold State.haltSteps
  repeat' first
    | exact answers_next _
    | exact h _
    | (refine answers_release _ _ _ _ ?_)
    | (refine answers_join _ _ _ fun _ => ?_)
    | split
  all_goals exact h

/-! Vector words. -/

theorem answers_serialMemory (s : State) (c : VCmd) (r : Taken) (n : Nat) : Answers (s.serialMemory c r n) := by
  unfold State.serialMemory
  dsimp only
  split
  · exact answers_trap ..
  · refine answers_vaccess _ _ _ _ fun _ _ => ?_
    repeat' first | exact answers_next _ | exact answers_endVector .. | split | dsimp only
theorem answers_serial (s : State) (c : VCmd) (n : Nat) : Answers (s.serial c n) := by
  unfold State.serial
  repeat' first
    | exact answers_next _
    | exact answers_trap ..
    | exact answers_endVector ..
    | exact answers_serialMemory ..
    | split
    | dsimp only
theorem answers_sendChecks (s : State) (op : VOp) (o : OpV) (a : Word) (k : State → List (Nat × Nat) → Result State)
    (h : ∀ s x, Answers (k s x)) : Answers (s.sendChecks op o a k) := by
  unfold State.sendChecks
  repeat' first
    | exact answers_trap ..
    | exact h _ _
    | exact answers_vaccess _ _ _ _ h
    | split
/-- Every vector word, with or without its prefix. -/
theorem answers_sendVector (s : State) (op : VOp) (o : OpV) (p : Pre) (n : Nat) : Answers (s.sendVector op o p n) := by
  unfold State.sendVector
  dsimp only
  refine answers_gate _ _ _ ?_
  split
  · exact answers_next _
  · split
    · split
      · exact answers_next _
      · exact answers_sendChecks _ _ _ _ _ fun _ _ => answers_endVector ..
    · split
      · exact answers_next _
      · split
        · exact answers_serial ..
        · exact answers_sendChecks _ _ _ _ _ fun _ _ => answers_endVector ..

/-! Cells, windows, rings and tables. -/

theorem answers_barrierGate (s : State) (a : Word) (k : Nat → Result State) (h : ∀ n, Answers (k n)) :
    Answers (s.barrierGate a k) := by
  unfold State.barrierGate
  extract_lets o
  split
  · exact answers_trap ..
  · split
    · exact answers_trap ..
    · split
      · exact answers_trap ..
      · split
        · exact answers_trap ..
        · exact h _
theorem answers_awaitGen (s : State) (n : Nat) : Answers (s.awaitGen n) := by
  unfold State.awaitGen
  repeat' first | exact answers_trap .. | exact answers_next _ | exact answers_endWith .. | split
theorem answers_barrierArrive (s : State) (o : OpE) (b : Bool) (k : State → Nat → Result State) (h : ∀ s n, Answers (k s n)) :
    Answers (s.barrierArrive o b k) := by
  unfold State.barrierArrive
  split
  · exact answers_next _
  · exact h _ _
  · exact answers_trap ..
  · exact answers_awaitGen ..
  · refine answers_src1 _ _ _ _ fun _ => answers_barrierGate _ _ _ fun _ => ?_
    split
    · exact answers_trap ..
    · exact answers_release _ _ _ _ fun _ => answers_next _
theorem answers_winGate (s : State) (g : Word) (b : Bool) (k : Nat → Win → Result State) (h : ∀ n w, Answers (k n w)) :
    Answers (s.winGate g b k) := by
  unfold State.winGate
  extract_lets i
  repeat' first | exact answers_trap .. | exact h _ _ | split
theorem answers_ringGate (s : State) (g : Word) (k : Nat → Ring → Result State) (h : ∀ n r, Answers (k n r)) :
    Answers (s.ringGate g k) := by
  unfold State.ringGate
  dsimp only
  split
  · exact answers_trap ..
  · split
    · exact h _ _
    · exact answers_trap ..
theorem answers_withTbl (s : State) (n : Nat) (k : Tbl → Result State) (h : ∀ t, Answers (k t)) :
    Answers (s.withTbl n k) := by
  unfold State.withTbl
  repeat' first | exact answers_trap .. | exact h _ | split
theorem answers_onTable (s : State) (k : Tbl → Result State) (h : ∀ t, Answers (k t)) : Answers (s.onTable k) := by
  unfold State.onTable
  repeat' first | exact answers_next _ | exact h _ | split
theorem answers_onFrag (s : State) (k : Frag → Result State) (h : ∀ f, Answers (k f)) : Answers (s.onFrag k) := by
  unfold State.onFrag
  repeat' first | exact answers_next _ | exact h _ | split
theorem answers_onChan (s : State) (k : Chan → Result State) (h : ∀ x, Answers (k x)) : Answers (s.onChan k) := by
  unfold State.onChan
  repeat' first | exact answers_next _ | exact h _ | split
theorem answers_afterCheck (s : State) (t : Tbl) (c : StepCheck) (k : Result State) (h : Answers k) :
    Answers (s.afterCheck t c k) := by
  unfold State.afterCheck
  repeat' first | exact answers_next _ | exact answers_failStep .. | exact answers_waitStep .. | exact h | split
theorem answers_afterLines (s : State) (l : List Span) (k : Result State) (h : Answers k) : Answers (s.afterLines l k) := by
  unfold State.afterLines
  repeat' first | exact answers_next _ | exact answers_consume .. | exact h | split

end Sys2Proof.Machine
end

