-- ==== Sys2Proof/Laws/Decode.lean ====
section
/-! SUPPORT. What each format reads back from the word it encodes, and what the decoder makes of a word. -/

set_option linter.unusedSimpArgs false

namespace Sys2Proof

set_option Elab.async false

theorem extract_high {w v : Nat} (x : BitVec w) (y : BitVec v) (s l : Nat) (h : v ≤ s) :
    (x ++ y).extractLsb' s l = x.extractLsb' (s - v) l := by
  ext i hi
  simp only [BitVec.getElem_extractLsb', BitVec.getLsbD_append]
  rw [if_neg (by omega)]; congr 1; omega
theorem extract_low {w v : Nat} (x : BitVec w) (y : BitVec v) (s l : Nat) (h : s + l ≤ v) :
    (x ++ y).extractLsb' s l = y.extractLsb' s l := by
  ext i hi
  simp only [BitVec.getElem_extractLsb', BitVec.getLsbD_append]
  rw [if_pos (by omega)]
theorem bit_high {w v : Nat} (x : BitVec w) (y : BitVec v) (s : Nat) (h : v ≤ s) :
    (x ++ y).getLsbD s = x.getLsbD (s - v) := by
  rw [BitVec.getLsbD_append, if_neg (by omega)]
theorem bit_low {w v : Nat} (x : BitVec w) (y : BitVec v) (s : Nat) (h : s < v) :
    (x ++ y).getLsbD s = y.getLsbD s := by
  rw [BitVec.getLsbD_append, if_pos h]
@[simp] theorem bit_zero (b : Bool) : (bit b).getLsbD 0 = b := by cases b <;> rfl
theorem extract_whole {w : Nat} (x : BitVec w) : x.extractLsb' 0 w = x := BitVec.extractLsb'_eq_self

@[simp] theorem major_encA (m : BitVec 6) (o : OpA) (fn : BitVec 9) : fMajor (encA m o fn) = m.toNat := by
  simp (disch := decide) only [fMajor, encA, extract_high, extract_low, bit_high, bit_low, extract_whole, bit_zero, Nat.reduceSub, Nat.sub_zero, Nat.sub_self]
@[simp] theorem fields_encA (m : BitVec 6) (o : OpA) (fn : BitVec 9) : opAOf (encA m o fn) = o := by
  cases o; simp (disch := decide) only [opAOf, fD, fA, fB, fBit, encA, extract_high, extract_low, bit_high, bit_low, extract_whole, bit_zero, Nat.reduceSub, Nat.sub_zero, Nat.sub_self]
@[simp] theorem fn_encA (m : BitVec 6) (o : OpA) (fn : BitVec 9) : fFnA (encA m o fn) = fn.toNat := by
  simp (disch := decide) only [fFnA, encA, extract_high, extract_low, bit_high, bit_low, extract_whole, bit_zero, Nat.reduceSub, Nat.sub_zero, Nat.sub_self]
@[simp] theorem major_encI (m : BitVec 6) (o : OpI) : fMajor (encI m o) = m.toNat := by
  simp (disch := decide) only [fMajor, encI, extract_high, extract_low, bit_high, bit_low, extract_whole, bit_zero, Nat.reduceSub, Nat.sub_zero, Nat.sub_self]
@[simp] theorem fields_encI (m : BitVec 6) (o : OpI) : opIOf (encI m o) = o := by
  cases o; simp (disch := decide) only [opIOf, fD, fA, fB, fBit, encI, extract_high, extract_low, bit_high, bit_low, extract_whole, bit_zero, Nat.reduceSub, Nat.sub_zero, Nat.sub_self]
@[simp] theorem major_encI13 (m : BitVec 6) (sel : BitVec 2) (o : OpI13) : fMajor (encI13 m sel o) = m.toNat := by
  simp (disch := decide) only [fMajor, encI13, extract_high, extract_low, bit_high, bit_low, extract_whole, bit_zero, Nat.reduceSub, Nat.sub_zero, Nat.sub_self]
@[simp] theorem fields_encI13 (m : BitVec 6) (sel : BitVec 2) (o : OpI13) : opI13Of (encI13 m sel o) = o := by
  cases o; simp (disch := decide) only [opI13Of, fD, fA, fB, fBit, encI13, extract_high, extract_low, bit_high, bit_low, extract_whole, bit_zero, Nat.reduceSub, Nat.sub_zero, Nat.sub_self]
@[simp] theorem sel_encI13 (m : BitVec 6) (sel : BitVec 2) (o : OpI13) : fSel (encI13 m sel o) = sel.toNat := by
  simp (disch := decide) only [fSel, encI13, extract_high, extract_low, bit_high, bit_low, extract_whole, bit_zero, Nat.reduceSub, Nat.sub_zero, Nat.sub_self]
@[simp] theorem major_encSh (sel : BitVec 3) (w : Bool) (o : OpSh) : fMajor (encSh sel w o) = 5 := by
  simp (disch := decide) only [fMajor, encSh, extract_high, extract_low, bit_high, bit_low, extract_whole, bit_zero, Nat.reduceSub, Nat.sub_zero, Nat.sub_self]; rfl
@[simp] theorem fields_encSh (sel : BitVec 3) (w : Bool) (o : OpSh) : opShOf (encSh sel w o) = o := by
  cases o; simp (disch := decide) only [opShOf, fD, fA, fB, fBit, encSh, extract_high, extract_low, bit_high, bit_low, extract_whole, bit_zero, Nat.reduceSub, Nat.sub_zero, Nat.sub_self]
@[simp] theorem major_encF (op : BitVec 2) (o : OpF) : fMajor (encF op o) = 9 := by
  simp (disch := decide) only [fMajor, encF, extract_high, extract_low, bit_high, bit_low, extract_whole, bit_zero, Nat.reduceSub, Nat.sub_zero, Nat.sub_self]; rfl
@[simp] theorem fields_encF (op : BitVec 2) (o : OpF) : opFOf (encF op o) = o := by
  cases o; simp (disch := decide) only [opFOf, fD, fA, fB, fBit, encF, extract_high, extract_low, bit_high, bit_low, extract_whole, bit_zero, Nat.reduceSub, Nat.sub_zero, Nat.sub_self]
@[simp] theorem sel_encF (op : BitVec 2) (o : OpF) : fSel (encF op o) = op.toNat := by
  simp (disch := decide) only [fSel, encF, extract_high, extract_low, bit_high, bit_low, extract_whole, bit_zero, Nat.reduceSub, Nat.sub_zero, Nat.sub_self]
@[simp] theorem major_encFR (sub : BitVec 2) (o : OpFR) : fMajor (encFR sub o) = 9 := by
  simp (disch := decide) only [fMajor, encFR, extract_high, extract_low, bit_high, bit_low, extract_whole, bit_zero, Nat.reduceSub, Nat.sub_zero, Nat.sub_self]; rfl
@[simp] theorem fields_encFR (sub : BitVec 2) (o : OpFR) : opFROf (encFR sub o) = o := by
  cases o; simp (disch := decide) only [opFROf, fD, fA, fB, fBit, encFR, extract_high, extract_low, bit_high, bit_low, extract_whole, bit_zero, Nat.reduceSub, Nat.sub_zero, Nat.sub_self]
@[simp] theorem sel_encFR (sub : BitVec 2) (o : OpFR) : fSel (encFR sub o) = 3 := by
  simp (disch := decide) only [fSel, encFR, extract_high, extract_low, bit_high, bit_low, extract_whole, bit_zero, Nat.reduceSub, Nat.sub_zero, Nat.sub_self]; rfl
@[simp] theorem major_encB (m : BitVec 6) (o : OpB) : fMajor (encB m o) = m.toNat := by
  simp (disch := decide) only [fMajor, encB, extract_high, extract_low, bit_high, bit_low, extract_whole, bit_zero, Nat.reduceSub, Nat.sub_zero, Nat.sub_self]
@[simp] theorem fields_encB (m : BitVec 6) (o : OpB) : opBOf (encB m o) = o := by
  cases o; simp (disch := decide) only [opBOf, fD, fA, fB, fBit, encB, extract_high, extract_low, bit_high, bit_low, extract_whole, bit_zero, Nat.reduceSub, Nat.sub_zero, Nat.sub_self]
@[simp] theorem major_encJ (m : BitVec 6) (off : BitVec 26) : fMajor (encJ m off) = m.toNat := by
  simp (disch := decide) only [fMajor, encJ, extract_high, extract_low, bit_high, bit_low, extract_whole, bit_zero, Nat.reduceSub, Nat.sub_zero, Nat.sub_self]
@[simp] theorem major_encM (m : BitVec 6) (o : OpM) : fMajor (encM m o) = m.toNat := by
  simp (disch := decide) only [fMajor, encM, extract_high, extract_low, bit_high, bit_low, extract_whole, bit_zero, Nat.reduceSub, Nat.sub_zero, Nat.sub_self]
@[simp] theorem fields_encM (m : BitVec 6) (o : OpM) : opMOf (encM m o) = o := by
  cases o; simp (disch := decide) only [opMOf, fD, fA, fB, fBit, encM, extract_high, extract_low, bit_high, bit_low, extract_whole, bit_zero, Nat.reduceSub, Nat.sub_zero, Nat.sub_self]
@[simp] theorem major_encX (o : OpX) : fMajor (encX o) = 0x1C := by
  simp (disch := decide) only [fMajor, encX, extract_high, extract_low, bit_high, bit_low, extract_whole, bit_zero, Nat.reduceSub, Nat.sub_zero, Nat.sub_self]; rfl
@[simp] theorem fields_encX (o : OpX) : opXOf (encX o) = o := by
  cases o; simp (disch := decide) only [opXOf, fD, fA, fB, fBit, encX, extract_high, extract_low, bit_high, bit_low, extract_whole, bit_zero, Nat.reduceSub, Nat.sub_zero, Nat.sub_self]
@[simp] theorem major_encV (m : BitVec 6) (o : OpV) (fn : BitVec 4) : fMajor (encV m o fn) = m.toNat := by
  simp (disch := decide) only [fMajor, encV, extract_high, extract_low, bit_high, bit_low, extract_whole, bit_zero, Nat.reduceSub, Nat.sub_zero, Nat.sub_self]
@[simp] theorem fields_encV (m : BitVec 6) (o : OpV) (fn : BitVec 4) : opVOf (encV m o fn) = o := by
  cases o; simp (disch := decide) only [opVOf, fD, fA, fB, fBit, encV, extract_high, extract_low, bit_high, bit_low, extract_whole, bit_zero, Nat.reduceSub, Nat.sub_zero, Nat.sub_self]
@[simp] theorem major_encE (m : BitVec 6) (o : OpE) (fn : BitVec 5) (q : BitVec 4) : fMajor (encE m o fn q) = m.toNat := by
  simp (disch := decide) only [fMajor, encE, extract_high, extract_low, bit_high, bit_low, extract_whole, bit_zero, Nat.reduceSub, Nat.sub_zero, Nat.sub_self]
@[simp] theorem fields_encE (m : BitVec 6) (o : OpE) (fn : BitVec 5) (q : BitVec 4) : opEOf (encE m o fn q) = o := by
  cases o; simp (disch := decide) only [opEOf, fD, fA, fB, fBit, encE, extract_high, extract_low, bit_high, bit_low, extract_whole, bit_zero, Nat.reduceSub, Nat.sub_zero, Nat.sub_self]
@[simp] theorem fn_encE (m : BitVec 6) (o : OpE) (fn : BitVec 5) (q : BitVec 4) : fFnE (encE m o fn q) = fn.toNat := by
  simp (disch := decide) only [fFnE, encE, extract_high, extract_low, bit_high, bit_low, extract_whole, bit_zero, Nat.reduceSub, Nat.sub_zero, Nat.sub_self]
@[simp] theorem q_encE (m : BitVec 6) (o : OpE) (fn : BitVec 5) (q : BitVec 4) : fQ (encE m o fn q) = q.toNat := by
  simp (disch := decide) only [fQ, encE, extract_high, extract_low, bit_high, bit_low, extract_whole, bit_zero, Nat.reduceSub, Nat.sub_zero, Nat.sub_self]
@[simp] theorem major_encPq (p : Pre) : fMajor (encPq p) = 0x27 := by
  simp (disch := decide) only [fMajor, encPq, extract_high, extract_low, bit_high, bit_low, extract_whole, bit_zero, Nat.reduceSub, Nat.sub_zero, Nat.sub_self]; rfl
@[simp] theorem fields_encPq (p : Pre) : preOf (encPq p) = p := by
  cases p; simp (disch := decide) only [preOf, fD, fA, fB, fBit, encPq, extract_high, extract_low, bit_high, bit_low, extract_whole, bit_zero, Nat.reduceSub, Nat.sub_zero, Nat.sub_self]

/-! What a strand word of each major is read by. -/

variable {w x : IWord}
theorem readStrand_01 (h : fMajor w = 0x01) : readStrand w x = readInteger w := by simp only [readStrand, h]
theorem readStrand_02 (h : fMajor w = 0x02) : readStrand w x = some (.addi (opIOf w)) := by simp only [readStrand, h]
theorem readStrand_03 (h : fMajor w = 0x03) : readStrand w x = some (.addiW (opIOf w)) := by simp only [readStrand, h]
theorem readStrand_04 (h : fMajor w = 0x04) : readStrand w x = readLogic w := by simp only [readStrand, h]
theorem readStrand_05 (h : fMajor w = 0x05) : readStrand w x = readShift w := by simp only [readStrand, h]
theorem readStrand_06 (h : fMajor w = 0x06) : readStrand w x = readCompare w := by simp only [readStrand, h]
theorem readStrand_07 (h : fMajor w = 0x07) : readStrand w x = readMinMax w := by simp only [readStrand, h]
theorem readStrand_08 (h : fMajor w = 0x08) : readStrand w x = some (.lui (fD w) (w.extractLsb' 0 21)) := by simp only [readStrand, h]
theorem readStrand_09 (h : fMajor w = 0x09) : readStrand w x = readBitField w := by simp only [readStrand, h]
theorem readStrand_0A (h : fMajor w = 0x0A) : readStrand w x = readMulDiv w := by simp only [readStrand, h]
theorem readStrand_0B (h : fMajor w = 0x0B) : readStrand w x = some (.lea (opAOf w) (w.extractLsb' 0 3)) := by simp only [readStrand, h]
theorem readStrand_0C (h : fMajor w = 0x0C) : readStrand w x = readCmpSel w := by simp only [readStrand, h]
theorem readStrand_10 (h : fMajor w = 0x10) : readStrand w x = some (.beq (opBOf w)) := by simp only [readStrand, h]
theorem readStrand_11 (h : fMajor w = 0x11) : readStrand w x = some (.bne (opBOf w)) := by simp only [readStrand, h]
theorem readStrand_12 (h : fMajor w = 0x12) : readStrand w x = some (.blt (opBOf w)) := by simp only [readStrand, h]
theorem readStrand_13 (h : fMajor w = 0x13) : readStrand w x = some (.bge (opBOf w)) := by simp only [readStrand, h]
theorem readStrand_14 (h : fMajor w = 0x14) : readStrand w x = some (.bltn (opBOf w)) := by simp only [readStrand, h]
theorem readStrand_15 (h : fMajor w = 0x15) : readStrand w x = some (.bgen (opBOf w)) := by simp only [readStrand, h]
theorem readStrand_16 (h : fMajor w = 0x16) : readStrand w x = some (.j (w.extractLsb' 0 26)) := by simp only [readStrand, h]
theorem readStrand_17 (h : fMajor w = 0x17) : readStrand w x = some (.jal (w.extractLsb' 0 26)) := by simp only [readStrand, h]
theorem readStrand_18 (h : fMajor w = 0x18) : readStrand w x = readJump w := by simp only [readStrand, h]
theorem readStrand_19 (h : fMajor w = 0x19) : readStrand w x = some (.loop (opBOf w)) := by simp only [readStrand, h]
theorem readStrand_1A (h : fMajor w = 0x1A) : readStrand w x = some (.ld (opMOf w)) := by simp only [readStrand, h]
theorem readStrand_1B (h : fMajor w = 0x1B) : readStrand w x = some (.st (opMOf w)) := by simp only [readStrand, h]
theorem readStrand_1C (h : fMajor w = 0x1C) : readStrand w x = some (.atom (opXOf w)) := by simp only [readStrand, h]
theorem readStrand_1D (h : fMajor w = 0x1D) : readStrand w x = readFullEmpty w := by simp only [readStrand, h]
theorem readStrand_20 (h : fMajor w = 0x20) : readStrand w x = readVector w := by simp only [readStrand, h]
theorem readStrand_21 (h : fMajor w = 0x21) : readStrand w x = readVector w := by simp only [readStrand, h]
theorem readStrand_22 (h : fMajor w = 0x22) : readStrand w x = readVector w := by simp only [readStrand, h]
theorem readStrand_23 (h : fMajor w = 0x23) : readStrand w x = readVector w := by simp only [readStrand, h]
theorem readStrand_24 (h : fMajor w = 0x24) : readStrand w x = readVector w := by simp only [readStrand, h]
theorem readStrand_25 (h : fMajor w = 0x25) : readStrand w x = readVector w := by simp only [readStrand, h]
theorem readStrand_26 (h : fMajor w = 0x26) : readStrand w x = readVector w := by simp only [readStrand, h]
theorem readStrand_27 (h : fMajor w = 0x27) : readStrand w x = some (.pq (preOf w) x) := by simp only [readStrand, h]
theorem readStrand_28 (h : fMajor w = 0x28) : readStrand w x = readFragment w := by simp only [readStrand, h]
theorem readStrand_29 (h : fMajor w = 0x29) : readStrand w x = readTable w := by simp only [readStrand, h]
theorem readStrand_2A (h : fMajor w = 0x2A) : readStrand w x = readChannel w := by simp only [readStrand, h]
theorem readStrand_2B (h : fMajor w = 0x2B) : readStrand w x = readWindow w := by simp only [readStrand, h]
theorem readStrand_2C (h : fMajor w = 0x2C) : readStrand w x = readRing w := by simp only [readStrand, h]
theorem readStrand_2D (h : fMajor w = 0x2D) : readStrand w x = readOrder w := by simp only [readStrand, h]
theorem readStrand_2E (h : fMajor w = 0x2E) : readStrand w x = readBarrier w := by simp only [readStrand, h]
theorem readStrand_2F (h : fMajor w = 0x2F) : readStrand w x = readGroup w := by simp only [readStrand, h]
theorem readStrand_30 (h : fMajor w = 0x30) : readStrand w x = readSystem w := by simp only [readStrand, h]
theorem readStrand_31 (h : fMajor w = 0x31) : readStrand w x = readTrap w := by simp only [readStrand, h]

/-- The selector of a shift immediate with its .w bit. -/
theorem sel_encSh (sel : BitVec 3) (w : Bool) (o : OpSh) : (encSh sel w o).extractLsb' 11 4 = sel ++ bit w := by
  apply BitVec.eq_of_getLsbD_eq
  intro i hi
  rw [BitVec.getLsbD_extractLsb']
  have : i = 0 ∨ i = 1 ∨ i = 2 ∨ i = 3 := by omega
  rcases this with rfl | rfl | rfl | rfl <;>
    simp (disch := decide) only [encSh, bit_high, bit_low, Nat.reduceSub] <;> simp [bit_high, bit_low]
/-- What a vector word is read as. -/
theorem readVector_encV (m : BitVec 6) (o : OpV) (fn : BitVec 4) (op : VOp) (h : VOp.ofCode m.toNat fn.toNat = some op) :
    readVector (encV m o fn) = some (op.instr o) := by
  have e : (encV m o fn).extractLsb' 0 4 = fn := by
    simp (disch := decide) only [encV, extract_low, extract_whole]
  simp only [readVector, major_encV, e, h, fields_encV]

theorem wordBytes_word (w : IWord) :
    bytesWord (w.extractLsb' 0 8) (w.extractLsb' 8 8) (w.extractLsb' 16 8) (w.extractLsb' 24 8) = w := by
  apply BitVec.eq_of_getLsbD_eq
  intro i hi
  show (w.extractLsb' 24 8 ++ w.extractLsb' 16 8 ++ w.extractLsb' 8 8 ++ w.extractLsb' 0 8 :
    BitVec (8 + 8 + 8 + 8)).getLsbD i = w.getLsbD i
  simp only [BitVec.getLsbD_append, BitVec.getLsbD_extractLsb']
  have e : ∀ j, j = i → w.getLsbD j = w.getLsbD i := fun j h => by rw [h]
  split
  · simp only [*, decide_true, Bool.true_and]; exact e _ (by omega)
  · split
    · simp only [*, decide_true, Bool.true_and]; exact e _ (by omega)
    · split
      · simp only [*, decide_true, Bool.true_and]; exact e _ (by omega)
      · rw [decide_eq_true (by omega : i - 8 - 8 - 8 < 8), Bool.true_and]; exact e _ (by omega)

/-- Decoding the bytes of a word that is no prefix. -/
theorem decode_word (w : IWord) (rest : List Byte) (h : fMajor w ≠ 0x27) :
    decode (wordBytes w ++ rest) = (decodeWords w 0).map fun i => (i, rest) := by
  simp only [wordBytes, List.cons_append, List.nil_append, decode, wordBytes_word, if_neg h]
/-- Decoding the bytes of a prefix and the word after it. -/
theorem decode_pair (w v : IWord) (rest : List Byte) (h : fMajor w = 0x27) :
    decode (wordBytes w ++ wordBytes v ++ rest) = (decodeWords w v).map fun i => (i, rest) := by
  simp only [wordBytes, List.cons_append, List.nil_append, decode, wordBytes_word, if_pos h]

/-- An instruction that its own words read back is what they decode to. -/
theorem decodeWords_of_read (i : Instr) (w x : IWord) (hr : readStrand w x = some i) (hw : i.wf = true)
    (he : encode i = [w] ∨ encode i = [w, x]) : decodeWords w x = .ok i := by
  simp only [decodeWords, hr, hw, if_pos he]; rfl
theorem decodeOrder_matrix (i : Instr) (w x : IWord) (hr : readMatrix w x = some i) (hw : i.wf = true)
    (he : encode i = [w] ∨ encode i = [w, x]) : decodeOrder false w x = .ok i := by
  simp [decodeOrder, hr, hw, if_pos he]
theorem decodeOrder_copy (i : Instr) (w x : IWord) (hr : readCopy w = some i) (hw : i.wf = true)
    (he : encode i = [w] ∨ encode i = [w, x]) : decodeOrder true w x = .ok i := by
  simp [decodeOrder, hr, hw, if_pos he]

end Sys2Proof
end

