-- ==== Sys2Proof/Laws/Exec.lean ====
section
/-! SUPPORT. Each arm of the dispatch: what an instruction does is its meaning. -/

namespace Sys2Proof.Machine

set_option Elab.async false

theorem exec_add (o : OpA) (s : State) : exec (.add o) s = execAdd o s := rfl
theorem exec_addW (o : OpA) (s : State) : exec (.addW o) s = execAddW o s := rfl
theorem exec_sub (o : OpA) (s : State) : exec (.sub o) s = execSub o s := rfl
theorem exec_subW (o : OpA) (s : State) : exec (.subW o) s = execSubW o s := rfl
theorem exec_and (o : OpA) (s : State) : exec (.and o) s = execAnd o s := rfl
theorem exec_andW (o : OpA) (s : State) : exec (.andW o) s = execAndW o s := rfl
theorem exec_or (o : OpA) (s : State) : exec (.or o) s = execOr o s := rfl
theorem exec_orW (o : OpA) (s : State) : exec (.orW o) s = execOrW o s := rfl
theorem exec_xor (o : OpA) (s : State) : exec (.xor o) s = execXor o s := rfl
theorem exec_xorW (o : OpA) (s : State) : exec (.xorW o) s = execXorW o s := rfl
theorem exec_andn (o : OpA) (s : State) : exec (.andn o) s = execAndn o s := rfl
theorem exec_andnW (o : OpA) (s : State) : exec (.andnW o) s = execAndnW o s := rfl
theorem exec_shl (o : OpA) (s : State) : exec (.shl o) s = execShl o s := rfl
theorem exec_shlW (o : OpA) (s : State) : exec (.shlW o) s = execShlW o s := rfl
theorem exec_shr (o : OpA) (s : State) : exec (.shr o) s = execShr o s := rfl
theorem exec_shrW (o : OpA) (s : State) : exec (.shrW o) s = execShrW o s := rfl
theorem exec_sar (o : OpA) (s : State) : exec (.sar o) s = execSar o s := rfl
theorem exec_sarW (o : OpA) (s : State) : exec (.sarW o) s = execSarW o s := rfl
theorem exec_rol (o : OpA) (s : State) : exec (.rol o) s = execRol o s := rfl
theorem exec_rolW (o : OpA) (s : State) : exec (.rolW o) s = execRolW o s := rfl
theorem exec_ror (o : OpA) (s : State) : exec (.ror o) s = execRor o s := rfl
theorem exec_rorW (o : OpA) (s : State) : exec (.rorW o) s = execRorW o s := rfl
theorem exec_min (o : OpA) (s : State) : exec (.min o) s = execMin o s := rfl
theorem exec_minW (o : OpA) (s : State) : exec (.minW o) s = execMinW o s := rfl
theorem exec_max (o : OpA) (s : State) : exec (.max o) s = execMax o s := rfl
theorem exec_maxW (o : OpA) (s : State) : exec (.maxW o) s = execMaxW o s := rfl
theorem exec_minn (o : OpA) (s : State) : exec (.minn o) s = execMinn o s := rfl
theorem exec_minnW (o : OpA) (s : State) : exec (.minnW o) s = execMinnW o s := rfl
theorem exec_maxn (o : OpA) (s : State) : exec (.maxn o) s = execMaxn o s := rfl
theorem exec_maxnW (o : OpA) (s : State) : exec (.maxnW o) s = execMaxnW o s := rfl
theorem exec_clz (o : OpA) (s : State) : exec (.clz o) s = execClz o s := rfl
theorem exec_clzW (o : OpA) (s : State) : exec (.clzW o) s = execClzW o s := rfl
theorem exec_ctz (o : OpA) (s : State) : exec (.ctz o) s = execCtz o s := rfl
theorem exec_ctzW (o : OpA) (s : State) : exec (.ctzW o) s = execCtzW o s := rfl
theorem exec_popc (o : OpA) (s : State) : exec (.popc o) s = execPopc o s := rfl
theorem exec_popcW (o : OpA) (s : State) : exec (.popcW o) s = execPopcW o s := rfl
theorem exec_bswap (o : OpA) (s : State) : exec (.bswap o) s = execBswap o s := rfl
theorem exec_bswapW (o : OpA) (s : State) : exec (.bswapW o) s = execBswapW o s := rfl
theorem exec_addi (o : OpI) (s : State) : exec (.addi o) s = execAddi o s := rfl
theorem exec_addiW (o : OpI) (s : State) : exec (.addiW o) s = execAddiW o s := rfl
theorem exec_andi (o : OpI13) (s : State) : exec (.andi o) s = execAndi o s := rfl
theorem exec_ori (o : OpI13) (s : State) : exec (.ori o) s = execOri o s := rfl
theorem exec_xori (o : OpI13) (s : State) : exec (.xori o) s = execXori o s := rfl
theorem exec_andni (o : OpI13) (s : State) : exec (.andni o) s = execAndni o s := rfl
theorem exec_shli (o : OpSh) (s : State) : exec (.shli o) s = execShli o s := rfl
theorem exec_shliW (o : OpSh) (s : State) : exec (.shliW o) s = execShliW o s := rfl
theorem exec_shri (o : OpSh) (s : State) : exec (.shri o) s = execShri o s := rfl
theorem exec_shriW (o : OpSh) (s : State) : exec (.shriW o) s = execShriW o s := rfl
theorem exec_sari (o : OpSh) (s : State) : exec (.sari o) s = execSari o s := rfl
theorem exec_sariW (o : OpSh) (s : State) : exec (.sariW o) s = execSariW o s := rfl
theorem exec_roli (o : OpSh) (s : State) : exec (.roli o) s = execRoli o s := rfl
theorem exec_roliW (o : OpSh) (s : State) : exec (.roliW o) s = execRoliW o s := rfl
theorem exec_rori (o : OpSh) (s : State) : exec (.rori o) s = execRori o s := rfl
theorem exec_roriW (o : OpSh) (s : State) : exec (.roriW o) s = execRoriW o s := rfl
theorem exec_slti (o : OpI13) (s : State) : exec (.slti o) s = execSlti o s := rfl
theorem exec_sltni (o : OpI13) (s : State) : exec (.sltni o) s = execSltni o s := rfl
theorem exec_seqi (o : OpI13) (s : State) : exec (.seqi o) s = execSeqi o s := rfl
theorem exec_snei (o : OpI13) (s : State) : exec (.snei o) s = execSnei o s := rfl
theorem exec_mini (o : OpI13) (s : State) : exec (.mini o) s = execMini o s := rfl
theorem exec_maxi (o : OpI13) (s : State) : exec (.maxi o) s = execMaxi o s := rfl
theorem exec_minni (o : OpI13) (s : State) : exec (.minni o) s = execMinni o s := rfl
theorem exec_maxni (o : OpI13) (s : State) : exec (.maxni o) s = execMaxni o s := rfl
theorem exec_lui (d : Reg) (imm : BitVec 21) (s : State) : exec (.lui d imm) s = execLui d imm s := rfl
theorem exec_bfx (o : OpF) (s : State) : exec (.bfx o) s = execBfx o s := rfl
theorem exec_bfxn (o : OpF) (s : State) : exec (.bfxn o) s = execBfxn o s := rfl
theorem exec_bfi (o : OpF) (s : State) : exec (.bfi o) s = execBfi o s := rfl
theorem exec_bfxReg (o : OpFR) (s : State) : exec (.bfxReg o) s = execBfxReg o s := rfl
theorem exec_bfxnReg (o : OpFR) (s : State) : exec (.bfxnReg o) s = execBfxnReg o s := rfl
theorem exec_bfiReg (o : OpFR) (s : State) : exec (.bfiReg o) s = execBfiReg o s := rfl
theorem exec_mul (o : OpA) (s : State) : exec (.mul o) s = execMul o s := rfl
theorem exec_mulW (o : OpA) (s : State) : exec (.mulW o) s = execMulW o s := rfl
theorem exec_mulh (o : OpA) (s : State) : exec (.mulh o) s = execMulh o s := rfl
theorem exec_mulhW (o : OpA) (s : State) : exec (.mulhW o) s = execMulhW o s := rfl
theorem exec_mulhn (o : OpA) (s : State) : exec (.mulhn o) s = execMulhn o s := rfl
theorem exec_mulhnW (o : OpA) (s : State) : exec (.mulhnW o) s = execMulhnW o s := rfl
theorem exec_div (o : OpA) (s : State) : exec (.div o) s = execDiv o s := rfl
theorem exec_divW (o : OpA) (s : State) : exec (.divW o) s = execDivW o s := rfl
theorem exec_divn (o : OpA) (s : State) : exec (.divn o) s = execDivn o s := rfl
theorem exec_divnW (o : OpA) (s : State) : exec (.divnW o) s = execDivnW o s := rfl
theorem exec_rem (o : OpA) (s : State) : exec (.rem o) s = execRem o s := rfl
theorem exec_remW (o : OpA) (s : State) : exec (.remW o) s = execRemW o s := rfl
theorem exec_remn (o : OpA) (s : State) : exec (.remn o) s = execRemn o s := rfl
theorem exec_remnW (o : OpA) (s : State) : exec (.remnW o) s = execRemnW o s := rfl
theorem exec_lea (o : OpA) (v_s : BitVec 3) (s : State) : exec (.lea o v_s) s = execLea o v_s s := rfl
theorem exec_slt (o : OpA) (s : State) : exec (.slt o) s = execSlt o s := rfl
theorem exec_sltW (o : OpA) (s : State) : exec (.sltW o) s = execSltW o s := rfl
theorem exec_sltn (o : OpA) (s : State) : exec (.sltn o) s = execSltn o s := rfl
theorem exec_sltnW (o : OpA) (s : State) : exec (.sltnW o) s = execSltnW o s := rfl
theorem exec_seq (o : OpA) (s : State) : exec (.seq o) s = execSeq o s := rfl
theorem exec_seqW (o : OpA) (s : State) : exec (.seqW o) s = execSeqW o s := rfl
theorem exec_sne (o : OpA) (s : State) : exec (.sne o) s = execSne o s := rfl
theorem exec_sneW (o : OpA) (s : State) : exec (.sneW o) s = execSneW o s := rfl
theorem exec_sel (o : OpA) (s : State) : exec (.sel o) s = execSel o s := rfl
theorem exec_beq (o : OpB) (s : State) : exec (.beq o) s = execBeq o s := rfl
theorem exec_bne (o : OpB) (s : State) : exec (.bne o) s = execBne o s := rfl
theorem exec_blt (o : OpB) (s : State) : exec (.blt o) s = execBlt o s := rfl
theorem exec_bge (o : OpB) (s : State) : exec (.bge o) s = execBge o s := rfl
theorem exec_bltn (o : OpB) (s : State) : exec (.bltn o) s = execBltn o s := rfl
theorem exec_bgen (o : OpB) (s : State) : exec (.bgen o) s = execBgen o s := rfl
theorem exec_j (off : BitVec 26) (s : State) : exec (.j off) s = execJ off s := rfl
theorem exec_jal (off : BitVec 26) (s : State) : exec (.jal off) s = execJal off s := rfl
theorem exec_jr (o : OpA) (s : State) : exec (.jr o) s = execJr o s := rfl
theorem exec_jalr (o : OpA) (s : State) : exec (.jalr o) s = execJalr o s := rfl
theorem exec_loop (o : OpB) (s : State) : exec (.loop o) s = execLoop o s := rfl
theorem exec_ld (o : OpM) (s : State) : exec (.ld o) s = execLd o s := rfl
theorem exec_st (o : OpM) (s : State) : exec (.st o) s = execSt o s := rfl
theorem exec_atom (o : OpX) (s : State) : exec (.atom o) s = execAtom o s := rfl
theorem exec_femark (file : Bool) (o : OpA) (s : State) : exec (.femark file o) s = execFemark file o s := rfl
theorem exec_fetest (file : Bool) (o : OpA) (s : State) : exec (.fetest file o) s = execFetest file o s := rfl
theorem exec_fewait (file : Bool) (o : OpA) (s : State) : exec (.fewait file o) s = execFewait file o s := rfl
theorem exec_vadd (o : OpV) (s : State) : exec (.vadd o) s = execVadd o s := rfl
theorem exec_vsub (o : OpV) (s : State) : exec (.vsub o) s = execVsub o s := rfl
theorem exec_vmul (o : OpV) (s : State) : exec (.vmul o) s = execVmul o s := rfl
theorem exec_vmulh (o : OpV) (s : State) : exec (.vmulh o) s = execVmulh o s := rfl
theorem exec_vimin (o : OpV) (s : State) : exec (.vimin o) s = execVimin o s := rfl
theorem exec_vimax (o : OpV) (s : State) : exec (.vimax o) s = execVimax o s := rfl
theorem exec_vand (o : OpV) (s : State) : exec (.vand o) s = execVand o s := rfl
theorem exec_vor (o : OpV) (s : State) : exec (.vor o) s = execVor o s := rfl
theorem exec_vxor (o : OpV) (s : State) : exec (.vxor o) s = execVxor o s := rfl
theorem exec_vshl (o : OpV) (s : State) : exec (.vshl o) s = execVshl o s := rfl
theorem exec_vshr (o : OpV) (s : State) : exec (.vshr o) s = execVshr o s := rfl
theorem exec_vsar (o : OpV) (s : State) : exec (.vsar o) s = execVsar o s := rfl
theorem exec_vabs (o : OpV) (s : State) : exec (.vabs o) s = execVabs o s := rfl
theorem exec_vfadd (o : OpV) (s : State) : exec (.vfadd o) s = execVfadd o s := rfl
theorem exec_vfsub (o : OpV) (s : State) : exec (.vfsub o) s = execVfsub o s := rfl
theorem exec_vfmul (o : OpV) (s : State) : exec (.vfmul o) s = execVfmul o s := rfl
theorem exec_vfma (o : OpV) (s : State) : exec (.vfma o) s = execVfma o s := rfl
theorem exec_vfms (o : OpV) (s : State) : exec (.vfms o) s = execVfms o s := rfl
theorem exec_vdiv (o : OpV) (s : State) : exec (.vdiv o) s = execVdiv o s := rfl
theorem exec_vsqrt (o : OpV) (s : State) : exec (.vsqrt o) s = execVsqrt o s := rfl
theorem exec_vmin (o : OpV) (s : State) : exec (.vmin o) s = execVmin o s := rfl
theorem exec_vmax (o : OpV) (s : State) : exec (.vmax o) s = execVmax o s := rfl
theorem exec_vminn (o : OpV) (s : State) : exec (.vminn o) s = execVminn o s := rfl
theorem exec_vmaxn (o : OpV) (s : State) : exec (.vmaxn o) s = execVmaxn o s := rfl
theorem exec_vfabs (o : OpV) (s : State) : exec (.vfabs o) s = execVfabs o s := rfl
theorem exec_vfneg (o : OpV) (s : State) : exec (.vfneg o) s = execVfneg o s := rfl
theorem exec_vcvt (o : OpV) (s : State) : exec (.vcvt o) s = execVcvt o s := rfl
theorem exec_vcvtw (o : OpV) (s : State) : exec (.vcvtw o) s = execVcvtw o s := rfl
theorem exec_vcvtn (o : OpV) (s : State) : exec (.vcvtn o) s = execVcvtn o s := rfl
theorem exec_venc4 (o : OpV) (s : State) : exec (.venc4 o) s = execVenc4 o s := rfl
theorem exec_vdec4 (o : OpV) (s : State) : exec (.vdec4 o) s = execVdec4 o s := rfl
theorem exec_vmov (o : OpV) (s : State) : exec (.vmov o) s = execVmov o s := rfl
theorem exec_vsplat (o : OpV) (s : State) : exec (.vsplat o) s = execVsplat o s := rfl
theorem exec_viota (o : OpV) (s : State) : exec (.viota o) s = execViota o s := rfl
theorem exec_vget (o : OpV) (s : State) : exec (.vget o) s = execVget o s := rfl
theorem exec_vset (o : OpV) (s : State) : exec (.vset o) s = execVset o s := rfl
theorem exec_vperm (o : OpV) (s : State) : exec (.vperm o) s = execVperm o s := rfl
theorem exec_vzip (o : OpV) (s : State) : exec (.vzip o) s = execVzip o s := rfl
theorem exec_vunzip (o : OpV) (s : State) : exec (.vunzip o) s = execVunzip o s := rfl
theorem exec_vrot (o : OpV) (s : State) : exec (.vrot o) s = execVrot o s := rfl
theorem exec_vslideup (o : OpV) (s : State) : exec (.vslideup o) s = execVslideup o s := rfl
theorem exec_vslidedn (o : OpV) (s : State) : exec (.vslidedn o) s = execVslidedn o s := rfl
theorem exec_vcompress (o : OpV) (s : State) : exec (.vcompress o) s = execVcompress o s := rfl
theorem exec_vexpand (o : OpV) (s : State) : exec (.vexpand o) s = execVexpand o s := rfl
theorem exec_vrev (o : OpV) (s : State) : exec (.vrev o) s = execVrev o s := rfl
theorem exec_vfcmp (o : OpV) (s : State) : exec (.vfcmp o) s = execVfcmp o s := rfl
theorem exec_vicmp (o : OpV) (s : State) : exec (.vicmp o) s = execVicmp o s := rfl
theorem exec_kand (o : OpV) (s : State) : exec (.kand o) s = execKand o s := rfl
theorem exec_kor (o : OpV) (s : State) : exec (.kor o) s = execKor o s := rfl
theorem exec_kxor (o : OpV) (s : State) : exec (.kxor o) s = execKxor o s := rfl
theorem exec_kandn (o : OpV) (s : State) : exec (.kandn o) s = execKandn o s := rfl
theorem exec_knot (o : OpV) (s : State) : exec (.knot o) s = execKnot o s := rfl
theorem exec_kpopc (o : OpV) (s : State) : exec (.kpopc o) s = execKpopc o s := rfl
theorem exec_kfirst (o : OpV) (s : State) : exec (.kfirst o) s = execKfirst o s := rfl
theorem exec_vexp2 (o : OpV) (s : State) : exec (.vexp2 o) s = execVexp2 o s := rfl
theorem exec_vlog2 (o : OpV) (s : State) : exec (.vlog2 o) s = execVlog2 o s := rfl
theorem exec_vrcp (o : OpV) (s : State) : exec (.vrcp o) s = execVrcp o s := rfl
theorem exec_vrsqrt (o : OpV) (s : State) : exec (.vrsqrt o) s = execVrsqrt o s := rfl
theorem exec_vtanh (o : OpV) (s : State) : exec (.vtanh o) s = execVtanh o s := rfl
theorem exec_vsigm (o : OpV) (s : State) : exec (.vsigm o) s = execVsigm o s := rfl
theorem exec_vsum (o : OpV) (s : State) : exec (.vsum o) s = execVsum o s := rfl
theorem exec_vscan (o : OpV) (s : State) : exec (.vscan o) s = execVscan o s := rfl
theorem exec_vrmax (o : OpV) (s : State) : exec (.vrmax o) s = execVrmax o s := rfl
theorem exec_vrmin (o : OpV) (s : State) : exec (.vrmin o) s = execVrmin o s := rfl
theorem exec_vld (o : OpV) (s : State) : exec (.vld o) s = execVld o s := rfl
theorem exec_vst (o : OpV) (s : State) : exec (.vst o) s = execVst o s := rfl
theorem exec_vlds (o : OpV) (s : State) : exec (.vlds o) s = execVlds o s := rfl
theorem exec_vsts (o : OpV) (s : State) : exec (.vsts o) s = execVsts o s := rfl
theorem exec_vldx (o : OpV) (s : State) : exec (.vldx o) s = execVldx o s := rfl
theorem exec_vstx (o : OpV) (s : State) : exec (.vstx o) s = execVstx o s := rfl
theorem exec_qld (o : OpV) (s : State) : exec (.qld o) s = execQld o s := rfl
theorem exec_vlsld (o : OpV) (s : State) : exec (.vlsld o) s = execVlsld o s := rfl
theorem exec_vlsst (o : OpV) (s : State) : exec (.vlsst o) s = execVlsst o s := rfl
theorem exec_pq (p : Pre) (second : IWord) (s : State) : exec (.pq p second) s = execPq p second s := rfl
theorem exec_flease (o : OpE) (s : State) : exec (.flease o) s = execFlease o s := rfl
theorem exec_fleaseFix (o : OpE) (s : State) : exec (.fleaseFix o) s = execFleaseFix o s := rfl
theorem exec_ffree (o : OpE) (s : State) : exec (.ffree o) s = execFfree o s := rfl
theorem exec_fsplit (o : OpE) (s : State) : exec (.fsplit o) s = execFsplit o s := rfl
theorem exec_fsplitDiscard (o : OpE) (s : State) : exec (.fsplitDiscard o) s = execFsplitDiscard o s := rfl
theorem exec_ffuse (o : OpE) (s : State) : exec (.ffuse o) s = execFfuse o s := rfl
theorem exec_ffuseDiscard (o : OpE) (s : State) : exec (.ffuseDiscard o) s = execFfuseDiscard o s := rfl
theorem exec_fchain (o : OpE) (s : State) : exec (.fchain o) s = execFchain o s := rfl
theorem exec_funchain (o : OpE) (s : State) : exec (.funchain o) s = execFunchain o s := rfl
theorem exec_fquery (o : OpE) (s : State) : exec (.fquery o) s = execFquery o s := rfl
theorem exec_tload (o : OpE) (s : State) : exec (.tload o) s = execTload o s := rfl
theorem exec_tloadKeep (o : OpE) (s : State) : exec (.tloadKeep o) s = execTloadKeep o s := rfl
theorem exec_tnest (o : OpE) (s : State) : exec (.tnest o) s = execTnest o s := rfl
theorem exec_tgo (o : OpE) (s : State) : exec (.tgo o) s = execTgo o s := rfl
theorem exec_tstop (o : OpE) (s : State) : exec (.tstop o) s = execTstop o s := rfl
theorem exec_tstopMark (o : OpE) (s : State) : exec (.tstopMark o) s = execTstopMark o s := rfl
theorem exec_tbase (o : OpE) (s : State) : exec (.tbase o) s = execTbase o s := rfl
theorem exec_tbaseNow (o : OpE) (s : State) : exec (.tbaseNow o) s = execTbaseNow o s := rfl
theorem exec_trestart (o : OpE) (s : State) : exec (.trestart o) s = execTrestart o s := rfl
theorem exec_tstat (o : OpE) (s : State) : exec (.tstat o) s = execTstat o s := rfl
theorem exec_tstatIdx0 (o : OpE) (s : State) : exec (.tstatIdx0 o) s = execTstatIdx0 o s := rfl
theorem exec_tstatIdx4 (o : OpE) (s : State) : exec (.tstatIdx4 o) s = execTstatIdx4 o s := rfl
theorem exec_tstatEseq (o : OpE) (s : State) : exec (.tstatEseq o) s = execTstatEseq o s := rfl
theorem exec_tstatEhw (o : OpE) (s : State) : exec (.tstatEhw o) s = execTstatEhw o s := rfl
theorem exec_tstatClr (o : OpE) (s : State) : exec (.tstatClr o) s = execTstatClr o s := rfl
theorem exec_chopen (o : OpE) (s : State) : exec (.chopen o) s = execChopen o s := rfl
theorem exec_chopenRx (o : OpE) (s : State) : exec (.chopenRx o) s = execChopenRx o s := rfl
theorem exec_cpy (o : OpE) (cb : Bool) (sum : BitVec 2) (s : State) : exec (.cpy o cb sum) s = execCpy o cb sum s := rfl
theorem exec_cpym (o : OpE) (sum : BitVec 2) (s : State) : exec (.cpym o sum) s = execCpym o sum s := rfl
theorem exec_gth (o : OpE) (cb : Bool) (sum : BitVec 2) (s : State) : exec (.gth o cb sum) s = execGth o cb sum s := rfl
theorem exec_chwm (o : OpE) (s : State) : exec (.chwm o) s = execChwm o s := rfl
theorem exec_chwait (o : OpE) (s : State) : exec (.chwait o) s = execChwait o s := rfl
theorem exec_chsum (o : OpE) (s : State) : exec (.chsum o) s = execChsum o s := rfl
theorem exec_chsumExp (o : OpE) (s : State) : exec (.chsumExp o) s = execChsumExp o s := rfl
theorem exec_chsumClr (o : OpE) (s : State) : exec (.chsumClr o) s = execChsumClr o s := rfl
theorem exec_chsumStat (o : OpE) (s : State) : exec (.chsumStat o) s = execChsumStat o s := rfl
theorem exec_chsumSlip (o : OpE) (s : State) : exec (.chsumSlip o) s = execChsumSlip o s := rfl
theorem exec_chsumSeq (o : OpE) (s : State) : exec (.chsumSeq o) s = execChsumSeq o s := rfl
theorem exec_chclose (o : OpE) (s : State) : exec (.chclose o) s = execChclose o s := rfl
theorem exec_chcloseDiscard (o : OpE) (s : State) : exec (.chcloseDiscard o) s = execChcloseDiscard o s := rfl
theorem exec_cbcfg (o : OpE) (s : State) : exec (.cbcfg o) s = execCbcfg o s := rfl
theorem exec_cbpop (o : OpE) (s : State) : exec (.cbpop o) s = execCbpop o s := rfl
theorem exec_wopenExp (o : OpE) (s : State) : exec (.wopenExp o) s = execWopenExp o s := rfl
theorem exec_wopenImp (o : OpE) (s : State) : exec (.wopenImp o) s = execWopenImp o s := rfl
theorem exec_wwr (o : OpE) (red : BitVec 2) (s : State) : exec (.wwr o red) s = execWwr o red s := rfl
theorem exec_wwrs (o : OpE) (red : BitVec 2) (s : State) : exec (.wwrs o red) s = execWwrs o red s := rfl
theorem exec_watom (o : OpE) (wide : Bool) (op : BitVec 3) (s : State) : exec (.watom o wide op) s = execWatom o wide op s := rfl
theorem exec_wcntSent (o : OpE) (s : State) : exec (.wcntSent o) s = execWcntSent o s := rfl
theorem exec_wcntAckd (o : OpE) (s : State) : exec (.wcntAckd o) s = execWcntAckd o s := rfl
theorem exec_wcntRcvd (o : OpE) (s : State) : exec (.wcntRcvd o) s = execWcntRcvd o s := rfl
theorem exec_wcntSig (o : OpE) (s : State) : exec (.wcntSig o) s = execWcntSig o s := rfl
theorem exec_wcntStat (o : OpE) (s : State) : exec (.wcntStat o) s = execWcntStat o s := rfl
theorem exec_wwaitAckd (o : OpE) (s : State) : exec (.wwaitAckd o) s = execWwaitAckd o s := rfl
theorem exec_wwaitRcvd (o : OpE) (s : State) : exec (.wwaitRcvd o) s = execWwaitRcvd o s := rfl
theorem exec_wwaitSig (o : OpE) (s : State) : exec (.wwaitSig o) s = execWwaitSig o s := rfl
theorem exec_wclose (o : OpE) (s : State) : exec (.wclose o) s = execWclose o s := rfl
theorem exec_rngjoin (o : OpE) (s : State) : exec (.rngjoin o) s = execRngjoin o s := rfl
theorem exec_rngsend (o : OpE) (s : State) : exec (.rngsend o) s = execRngsend o s := rfl
theorem exec_rngwait (o : OpE) (s : State) : exec (.rngwait o) s = execRngwait o s := rfl
theorem exec_rngwaitOut (o : OpE) (s : State) : exec (.rngwaitOut o) s = execRngwaitOut o s := rfl
theorem exec_rngwaitStat (o : OpE) (s : State) : exec (.rngwaitStat o) s = execRngwaitStat o s := rfl
theorem exec_rngwaitOwn (o : OpE) (s : State) : exec (.rngwaitOwn o) s = execRngwaitOwn o s := rfl
theorem exec_rngdone (o : OpE) (s : State) : exec (.rngdone o) s = execRngdone o s := rfl
theorem exec_rngleave (o : OpE) (s : State) : exec (.rngleave o) s = execRngleave o s := rfl
theorem exec_mfence (o : OpE) (s : State) : exec (.mfence o) s = execMfence o s := rfl
theorem exec_pfence (o : OpE) (s : State) : exec (.pfence o) s = execPfence o s := rfl
theorem exec_rel (scope : BitVec 3) (s : State) : exec (.rel scope) s = execRel scope s := rfl
theorem exec_acq (o : OpE) (scope : BitVec 3) (s : State) : exec (.acq o scope) s = execAcq o scope s := rfl
theorem exec_acqH (o : OpE) (scope : BitVec 3) (s : State) : exec (.acqH o scope) s = execAcqH o scope s := rfl
theorem exec_logq (o : OpE) (s : State) : exec (.logq o) s = execLogq o s := rfl
theorem exec_binit (o : OpE) (s : State) : exec (.binit o) s = execBinit o s := rfl
theorem exec_barr (o : OpE) (s : State) : exec (.barr o) s = execBarr o s := rfl
theorem exec_bwait (o : OpE) (s : State) : exec (.bwait o) s = execBwait o s := rfl
theorem exec_barw (o : OpE) (s : State) : exec (.barw o) s = execBarw o s := rfl
theorem exec_bmask (o : OpE) (s : State) : exec (.bmask o) s = execBmask o s := rfl
theorem exec_bpend (o : OpE) (s : State) : exec (.bpend o) s = execBpend o s := rfl
theorem exec_bq (o : OpE) (s : State) : exec (.bq o) s = execBq o s := rfl
theorem exec_fork (o : OpE) (s : State) : exec (.fork o) s = execFork o s := rfl
theorem exec_rdv (o : OpE) (s : State) : exec (.rdv o) s = execRdv o s := rfl
theorem exec_fpop (o : OpE) (s : State) : exec (.fpop o) s = execFpop o s := rfl
theorem exec_grank (o : OpE) (s : State) : exec (.grank o) s = execGrank o s := rfl
theorem exec_grankSize (o : OpE) (s : State) : exec (.grankSize o) s = execGrankSize o s := rfl
theorem exec_grankNum (o : OpE) (s : State) : exec (.grankNum o) s = execGrankNum o s := rfl
theorem exec_grankCores (o : OpE) (s : State) : exec (.grankCores o) s = execGrankCores o s := rfl
theorem exec_grankDies (o : OpE) (s : State) : exec (.grankDies o) s = execGrankDies o s := rfl
theorem exec_gexit  (s : State) : exec (.gexit) s = execGexit s := rfl
theorem exec_nop  (s : State) : exec (.nop) s = execNop s := rfl
theorem exec_halt  (s : State) : exec (.halt) s = execHalt s := rfl
theorem exec_sleep (o : OpA) (s : State) : exec (.sleep o) s = execSleep o s := rfl
theorem exec_time (o : OpA) (s : State) : exec (.time o) s = execTime o s := rfl
theorem exec_feat (o : OpA) (s : State) : exec (.feat o) s = execFeat o s := rfl
theorem exec_locq (o : OpA) (s : State) : exec (.locq o) s = execLocq o s := rfl
theorem exec_cget (o : OpA) (s : State) : exec (.cget o) s = execCget o s := rfl
theorem exec_cset (o : OpA) (s : State) : exec (.cset o) s = execCset o s := rfl
theorem exec_spfmt (o : OpA) (s : State) : exec (.spfmt o) s = execSpfmt o s := rfl
theorem exec_eret  (s : State) : exec (.eret) s = execEret s := rfl
theorem exec_spfmtq (o : OpA) (s : State) : exec (.spfmtq o) s = execSpfmtq o s := rfl
theorem exec_trap (code : BitVec 12) (s : State) : exec (.trap code) s = execTrap code s := rfl
theorem exec_sysc (code : BitVec 12) (s : State) : exec (.sysc code) s = execSysc code s := rfl
theorem exec_brk (code : BitVec 12) (s : State) : exec (.brk code) s = execBrk code s := rfl
theorem exec_nopt (n : BitVec 10) (s : State) : exec (.nopt n) s = execNopt n s := rfl
theorem exec_wld (shape : BitVec 5) (ty : BitVec 3) (active : Bool) (gen : BitVec 2) (col : BitVec 4) (s : State) : exec (.wld shape ty active gen col) s = execWld shape ty active gen col s := rfl
theorem exec_wswap  (s : State) : exec (.wswap) s = execWswap s := rfl
theorem exec_mma (shape : BitVec 5) (ty : BitVec 3) (acc : BitVec 2) (gen : BitVec 2) (src : BitVec 2) (brow : BitVec 8) (bcol : BitVec 4) (s : State) : exec (.mma shape ty acc gen src brow bcol) s = execMma shape ty acc gen src brow bcol s := rfl
theorem exec_aclr (base : BitVec 9) (rows : BitVec 9) (s : State) : exec (.aclr base rows) s = execAclr base rows s := rfl
theorem exec_drain (gen : BitVec 2) (link : Bool) (ty : BitVec 3) (base : BitVec 9) (rows : BitVec 9) (s : State) : exec (.drain gen link ty base rows) s = execDrain gen link ty base rows s := rfl
theorem exec_epi (act : BitVec 3) (bi : Bool) (sc : Bool) (bs : Bool) (rm : BitVec 3) (sat : Bool) (thr : BitVec 8) (s : State) : exec (.epi act bi sc bs rm sat thr) s = execEpi act bi sc bs rm sat thr s := rfl
theorem exec_tstart  (s : State) : exec (.tstart) s = execTstart s := rfl
theorem exec_proof (seed : BitVec 8) (bf : Bool) (literal : IWord) (s : State) : exec (.proof seed bf literal) s = execProof seed bf literal s := rfl
theorem exec_cbwait (ch : BitVec 3) (n : BitVec 8) (s : State) : exec (.cbwait ch n) s = execCbwait ch n s := rfl
theorem exec_cbfree (ch : BitVec 3) (n : BitVec 8) (s : State) : exec (.cbfree ch n) s = execCbfree ch n s := rfl
theorem exec_wmwait (ch : BitVec 3) (gen : BitVec 2) (l : BitVec 16) (s : State) : exec (.wmwait ch gen l) s = execWmwait ch gen l s := rfl
theorem exec_sigb (cell : BitVec 9) (s : State) : exec (.sigb cell) s = execSigb cell s := rfl
theorem exec_nest (level : BitVec 3) (target : BitVec 8) (s : State) : exec (.nest level target) s = execNest level target s := rfl
theorem exec_jmpt (target : BitVec 8) (s : State) : exec (.jmpt target) s = execJmpt target s := rfl
theorem exec_haltt  (s : State) : exec (.haltt) s = execHaltt s := rfl
theorem exec_cpo (sg : BitVec 2) (dg : BitVec 2) (sum : BitVec 2) (cb : Bool) (s : State) : exec (.cpo sg dg sum cb) s = execCpo sg dg sum cb s := rfl
theorem exec_cpot (sg : BitVec 2) (dg : BitVec 2) (sum : BitVec 2) (cb : Bool) (s : State) : exec (.cpot sg dg sum cb) s = execCpot sg dg sum cb s := rfl
theorem exec_gto (sg : BitVec 2) (dg : BitVec 2) (sum : BitVec 2) (cb : Bool) (xg : BitVec 2) (s : State) : exec (.gto sg dg sum cb xg) s = execGto sg dg sum cb xg s := rfl
theorem exec_sumchk  (s : State) : exec (.sumchk) s = execSumchk s := rfl
theorem exec_producerDelivery (core : Nat) (n : Nat) (s : State) : exec (.producerDelivery core n) s = execProducerDelivery core n s := rfl
theorem exec_stallRelease (core : Nat) (s : State) : exec (.stallRelease core) s = execStallRelease core s := rfl
theorem exec_trapDisposition (core : Nat) (s : State) : exec (.trapDisposition core) s = execTrapDisposition core s := rfl
theorem exec_sleepDeadline (core : Nat) (s : State) : exec (.sleepDeadline core) s = execSleepDeadline core s := rfl
theorem exec_sleepWake (core : Nat) (s : State) : exec (.sleepWake core) s = execSleepWake core s := rfl
theorem exec_vectorCommandStart (core : Nat) (s : State) : exec (.vectorCommandStart core) s = execVectorCommandStart core s := rfl
theorem exec_qldRead (core : Nat) (s : State) : exec (.qldRead core) s = execQldRead core s := rfl
theorem exec_reductionAccept (cluster : Nat) (s : State) : exec (.reductionAccept cluster) s = execReductionAccept cluster s := rfl
theorem exec_floatLaunch (agent : Agent) (s : State) : exec (.floatLaunch agent) s = execFloatLaunch agent s := rfl
theorem exec_floatHop (n : Nat) (dst : Agent) (s : State) : exec (.floatHop n dst) s = execFloatHop n dst s := rfl
theorem exec_tableCommandApply (core : Nat) (handle : Nat) (s : State) : exec (.tableCommandApply core handle) s = execTableCommandApply core handle s := rfl
theorem exec_tableRewind (core : Nat) (handle : Nat) (s : State) : exec (.tableRewind core handle) s = execTableRewind core handle s := rfl
theorem exec_allocatorArbitration (die : Nat) (s : State) : exec (.allocatorArbitration die) s = execAllocatorArbitration die s := rfl
theorem exec_leaseGrant (core : Nat) (s : State) : exec (.leaseGrant core) s = execLeaseGrant core s := rfl
theorem exec_reservation (die : Nat) (s : State) : exec (.reservation die) s = execReservation die s := rfl
theorem exec_fleaseDeadline (core : Nat) (s : State) : exec (.fleaseDeadline core) s = execFleaseDeadline core s := rfl
theorem exec_scrubComplete (die : Nat) (s : State) : exec (.scrubComplete die) s = execScrubComplete die s := rfl
theorem exec_reshapeComplete (core : Nat) (s : State) : exec (.reshapeComplete core) s = execReshapeComplete core s := rfl
theorem exec_publicationPointArrival (core : Nat) (die : Nat) (s : State) : exec (.publicationPointArrival core die) s = execPublicationPointArrival core die s := rfl
theorem exec_pressRecord (core : Nat) (s : State) : exec (.pressRecord core) s = execPressRecord core s := rfl
theorem exec_appendRelease (core : Nat) (s : State) : exec (.appendRelease core) s = execAppendRelease core s := rfl
theorem exec_atomHomeExecute (core : Nat) (s : State) : exec (.atomHomeExecute core) s = execAtomHomeExecute core s := rfl
theorem exec_lineRecall (line : Nat) (s : State) : exec (.lineRecall line) s = execLineRecall line s := rfl
theorem exec_queueHeadEntry (core : Nat) (ch : Nat) (s : State) : exec (.queueHeadEntry core ch) s = execQueueHeadEntry core ch s := rfl
theorem exec_commandBegin (core : Nat) (ch : Nat) (s : State) : exec (.commandBegin core ch) s = execCommandBegin core ch s := rfl
theorem exec_copyLineTransfer (core : Nat) (ch : Nat) (seq : Nat) (s : State) : exec (.copyLineTransfer core ch seq) s = execCopyLineTransfer core ch seq s := rfl
theorem exec_commandComplete (core : Nat) (ch : Nat) (seq : Nat) (s : State) : exec (.commandComplete core ch seq) s = execCommandComplete core ch seq s := rfl
theorem exec_multicastCredit (core : Nat) (ch : Nat) (receiver : Nat) (s : State) : exec (.multicastCredit core ch receiver) s = execMulticastCredit core ch receiver s := rfl
theorem exec_channelQueueApply (core : Nat) (ch : Nat) (s : State) : exec (.channelQueueApply core ch) s = execChannelQueueApply core ch s := rfl
theorem exec_arrivalCounted (n : Nat) (s : State) : exec (.arrivalCounted n) s = execArrivalCounted n s := rfl
theorem exec_childArrival (die : Nat) (cell : Nat) (s : State) : exec (.childArrival die cell) s = execChildArrival die cell s := rfl
theorem exec_tagComplete (tag : Nat) (s : State) : exec (.tagComplete tag) s = execTagComplete tag s := rfl
theorem exec_rootCompletionDelivery (die : Nat) (cell : Nat) (s : State) : exec (.rootCompletionDelivery die cell) s = execRootCompletionDelivery die cell s := rfl
theorem exec_groupPlacement (group : Nat) (s : State) : exec (.groupPlacement group) s = execGroupPlacement group s := rfl
theorem exec_groupStarvationHold (group : Nat) (s : State) : exec (.groupStarvationHold group) s = execGroupStarvationHold group s := rfl
theorem exec_preemptSave (group : Nat) (s : State) : exec (.preemptSave group) s = execPreemptSave group s := rfl
theorem exec_strandRestore (group : Nat) (s : State) : exec (.strandRestore group) s = execStrandRestore group s := rfl
theorem exec_leaseReclaim (core : Nat) (s : State) : exec (.leaseReclaim core) s = execLeaseReclaim core s := rfl
theorem exec_watchdogExpiry (group : Nat) (s : State) : exec (.watchdogExpiry group) s = execWatchdogExpiry group s := rfl
theorem exec_doorbell (qid : Nat) (value : Word) (s : State) : exec (.doorbell qid value) s = execDoorbell qid value s := rfl
theorem exec_queueEnable (qid : Nat) (value : Word) (s : State) : exec (.queueEnable qid value) s = execQueueEnable qid value s := rfl
theorem exec_queueDisable (qid : Nat) (value : Word) (s : State) : exec (.queueDisable qid value) s = execQueueDisable qid value s := rfl
theorem exec_queueResetComplete (qid : Nat) (s : State) : exec (.queueResetComplete qid) s = execQueueResetComplete qid s := rfl
theorem exec_packetFetch  (s : State) : exec (.packetFetch) s = execPacketFetch s := rfl
theorem exec_launch (qid : Nat) (s : State) : exec (.launch qid) s = execLaunch qid s := rfl
theorem exec_feed (qid : Nat) (s : State) : exec (.feed qid) s = execFeed qid s := rfl
theorem exec_feedRecordAppend (qid : Nat) (s : State) : exec (.feedRecordAppend qid) s = execFeedRecordAppend qid s := rfl
theorem exec_retire (qid : Nat) (s : State) : exec (.retire qid) s = execRetire qid s := rfl
theorem exec_kernelRetired (kernel : Nat) (s : State) : exec (.kernelRetired kernel) s = execKernelRetired kernel s := rfl
theorem exec_copy (qid : Nat) (s : State) : exec (.copy qid) s = execCopy qid s := rfl
theorem exec_signal (qid : Nat) (s : State) : exec (.signal qid) s = execSignal qid s := rfl
theorem exec_waitAll (qid : Nat) (s : State) : exec (.waitAll qid) s = execWaitAll qid s := rfl
theorem exec_waitAny (qid : Nat) (s : State) : exec (.waitAny qid) s = execWaitAny qid s := rfl
theorem exec_waitEvaluation (qid : Nat) (s : State) : exec (.waitEvaluation qid) s = execWaitEvaluation qid s := rfl
theorem exec_graph (qid : Nat) (s : State) : exec (.graph qid) s = execGraph qid s := rfl
theorem exec_graphNodeIssue (replay : Nat) (node : Nat) (s : State) : exec (.graphNodeIssue replay node) s = execGraphNodeIssue replay node s := rfl
theorem exec_timestamp (qid : Nat) (s : State) : exec (.timestamp qid) s = execTimestamp qid s := rfl
theorem exec_nopPacket (qid : Nat) (s : State) : exec (.nopPacket qid) s = execNopPacket qid s := rfl
theorem exec_packetComplete (n : Nat) (s : State) : exec (.packetComplete n) s = execPacketComplete n s := rfl
theorem exec_runListTurn  (s : State) : exec (.runListTurn) s = execRunListTurn s := rfl
theorem exec_create (value : Word) (secure : Bool) (s : State) : exec (.create value secure) s = execCreate value secure s := rfl
theorem exec_kill (value : Word) (secure : Bool) (s : State) : exec (.kill value secure) s = execKill value secure s := rfl
theorem exec_destroy (value : Word) (secure : Bool) (s : State) : exec (.destroy value secure) s = execDestroy value secure s := rfl
theorem exec_killg (value : Word) (secure : Bool) (s : State) : exec (.killg value secure) s = execKillg value secure s := rfl
theorem exec_quantum (value : Word) (secure : Bool) (s : State) : exec (.quantum value secure) s = execQuantum value secure s := rfl
theorem exec_wdog (value : Word) (secure : Bool) (s : State) : exec (.wdog value secure) s = execWdog value secure s := rfl
theorem exec_readimg (value : Word) (secure : Bool) (s : State) : exec (.readimg value secure) s = execReadimg value secure s := rfl
theorem exec_treset (value : Word) (secure : Bool) (s : State) : exec (.treset value secure) s = execTreset value secure s := rfl
theorem exec_query (value : Word) (secure : Bool) (s : State) : exec (.query value secure) s = execQuery value secure s := rfl
theorem exec_contextTeardownComplete (asid : Nat) (s : State) : exec (.contextTeardownComplete asid) s = execContextTeardownComplete asid s := rfl
theorem exec_info (core : Nat) (s : State) : exec (.info core) s = execInfo core s := rfl
theorem exec_bankgrant (core : Nat) (s : State) : exec (.bankgrant core) s = execBankgrant core s := rfl
theorem exec_bankfree (core : Nat) (s : State) : exec (.bankfree core) s = execBankfree core s := rfl
theorem exec_cellgrant (core : Nat) (s : State) : exec (.cellgrant core) s = execCellgrant core s := rfl
theorem exec_cellfree (core : Nat) (s : State) : exec (.cellfree core) s = execCellfree core s := rfl
theorem exec_taggrant (core : Nat) (s : State) : exec (.taggrant core) s = execTaggrant core s := rfl
theorem exec_tagfree (core : Nat) (s : State) : exec (.tagfree core) s = execTagfree core s := rfl
theorem exec_yield (core : Nat) (s : State) : exec (.yield core) s = execYield core s := rfl
theorem exec_tinvGo (asid : Nat) (value : Word) (s : State) : exec (.tinvGo asid value) s = execTinvGo asid value s := rfl
theorem exec_trootWrite (asid : Nat) (value : Word) (s : State) : exec (.trootWrite asid value) s = execTrootWrite asid value s := rfl
theorem exec_invalidationComplete (asid : Nat) (s : State) : exec (.invalidationComplete asid) s = execInvalidationComplete asid s := rfl
theorem exec_priResponse (core : Nat) (ok : Bool) (s : State) : exec (.priResponse core ok) s = execPriResponse core ok s := rfl
theorem exec_priTimeout (core : Nat) (s : State) : exec (.priTimeout core) s = execPriTimeout core s := rfl
theorem exec_atsInvalidate (asid : Nat) (addr : Nat) (s : State) : exec (.atsInvalidate asid addr) s = execAtsInvalidate asid addr s := rfl
theorem exec_linkResetRelease (link : Nat) (s : State) : exec (.linkResetRelease link) s = execLinkResetRelease link s := rfl
theorem exec_linkTrainingResult (link : Nat) (result : Training) (s : State) : exec (.linkTrainingResult link result) s = execLinkTrainingResult link result s := rfl
theorem exec_laneFailure (link : Nat) (s : State) : exec (.laneFailure link) s = execLaneFailure link s := rfl
theorem exec_retryTimeout (flow : FlowId) (sq : Nat) (s : State) : exec (.retryTimeout flow sq) s = execRetryTimeout flow sq s := rfl
theorem exec_operationArrival (src : Nat) (target : Nat) (sq : Nat) (op : Inbound) (s : State) : exec (.operationArrival src target sq op) s = execOperationArrival src target sq op s := rfl
theorem exec_ackArrival (flow : FlowId) (sq : Nat) (s : State) : exec (.ackArrival flow sq) s = execAckArrival flow sq s := rfl
theorem exec_timeExchange (die : Nat) (slew : Slew) (path : Option (List (Nat × BitVec 32))) (s : State) : exec (.timeExchange die slew path) s = execTimeExchange die slew path s := rfl
theorem exec_windowOpSend (die : Nat) (s : State) : exec (.windowOpSend die) s = execWindowOpSend die s := rfl
theorem exec_ringNeighbourConfirm (ring : Nat) (prev : RingPeer) (next : RingPeer) (s : State) : exec (.ringNeighbourConfirm ring prev next) s = execRingNeighbourConfirm ring prev next s := rfl
theorem exec_ringGrant (ring : Nat) (k : Nat) (mine : Bool) (s : State) : exec (.ringGrant ring k mine) s = execRingGrant ring k mine s := rfl
theorem exec_ringTransmit (ring : Nat) (s : State) : exec (.ringTransmit ring) s = execRingTransmit ring s := rfl
theorem exec_ringArrival (ring : Nat) (e : RingInbound) (s : State) : exec (.ringArrival ring e) s = execRingArrival ring e s := rfl
theorem exec_ringBreakNotice (ring : Nat) (cause : BitVec 8) (s : State) : exec (.ringBreakNotice ring cause) s = execRingBreakNotice ring cause s := rfl
theorem exec_powerOn (boot : Boot) (s : State) : exec (.powerOn boot) s = execPowerOn boot s := rfl
theorem exec_warmReset (boot : Boot) (s : State) : exec (.warmReset boot) s = execWarmReset boot s := rfl
theorem exec_rstctl (value : Word) (boot : Boot) (s : State) : exec (.rstctl value boot) s = execRstctl value boot s := rfl
theorem exec_blockThrottle (block : Block) (s : State) : exec (.blockThrottle block) s = execBlockThrottle block s := rfl
theorem exec_thermalStop (block : Block) (s : State) : exec (.thermalStop block) s = execThermalStop block s := rfl
theorem exec_powerRefresh (blocks : List Nat) (s : State) : exec (.powerRefresh blocks) s = execPowerRefresh blocks s := rfl
theorem exec_pldmUpdate (digest : BitVec 256) (s : State) : exec (.pldmUpdate digest) s = execPldmUpdate digest s := rfl
theorem exec_attestationRequest (nonce : BitVec 256) (s : State) : exec (.attestationRequest nonce) s = execAttestationRequest nonce s := rfl
theorem exec_managementReset (boot : Boot) (s : State) : exec (.managementReset boot) s = execManagementReset boot s := rfl
theorem exec_managementReading  (s : State) : exec (.managementReading) s = execManagementReading s := rfl
theorem exec_bar0NarrowWrite (offset : Nat) (size : Nat) (s : State) : exec (.bar0NarrowWrite offset size) s = execBar0NarrowWrite offset size s := rfl
theorem exec_bar2Access (write : Bool) (offset : Nat) (data : List Byte) (s : State) : exec (.bar2Access write offset data) s = execBar2Access write offset data s := rfl
theorem exec_registerWrite (offset : Nat) (value : Word) (s : State) : exec (.registerWrite offset value) s = execRegisterWrite offset value s := rfl
theorem exec_undefInstruction (tval : Word) (s : State) : exec (.undefInstruction tval) s = execUndefInstruction tval s := rfl
theorem exec_instructionFetchFault (cause : BitVec 8) (addr : Word) (s : State) : exec (.instructionFetchFault cause addr) s = execInstructionFetchFault cause addr s := rfl
theorem exec_debuggerResume (core : Nat) (pc : Word) (s : State) : exec (.debuggerResume core pc) s = execDebuggerResume core pc s := rfl
theorem exec_firmwareTimer (die : Nat) (s : State) : exec (.firmwareTimer die) s = execFirmwareTimer die s := rfl
theorem exec_atsTranslationCompletion (asid : Nat) (addr : Nat) (dst : Nat) (s : State) : exec (.atsTranslationCompletion asid addr dst) s = execAtsTranslationCompletion asid addr dst s := rfl
theorem exec_inputPowerLoss  (s : State) : exec (.inputPowerLoss) s = execInputPowerLoss s := rfl
theorem exec_throttleRecovery (block : Block) (s : State) : exec (.throttleRecovery block) s = execThrottleRecovery block s := rfl

end Sys2Proof.Machine
end

