-- ==== Sys2Proof/Laws/Memory.lean ====
section
/-! SUPPORT. Maps and memory: reading after a write, and that every write keeps the canonical form. -/

namespace Sys2Proof.Machine

set_option Elab.async false

section maps
variable {α : Type} (m : SMap α) (k j : Nat) (v d : α)

@[simp] theorem mfind_nil : mfind ([] : SMap α) k = none := rfl
theorem mfind_mset : mfind (mset m k v) j = if j = k then some v else mfind m j := by
  induction m with
  | nil => simp only [mset, mfind]; split <;> split <;> simp_all
  | cons x m ih =>
    obtain ⟨y, w⟩ := x
    simp only [mset]
    split
    · subst y; simp only [mfind, eq_comm (a := j)]; split <;> rfl
    · split
      · simp only [mfind, eq_comm (a := j)]
      · simp only [mfind, ih]
        by_cases hy : y = j
        · subst hy; simp [*]
        · simp only [if_neg hy]
@[simp] theorem mfind_mset_same : mfind (mset m k v) k = some v := by rw [mfind_mset, if_pos rfl]
theorem mfind_mset_other (h : j ≠ k) : mfind (mset m k v) j = mfind m j := by rw [mfind_mset, if_neg h]
theorem mfind_mdel : mfind (mdel m k) j = if j = k then none else mfind m j := by
  induction m with
  | nil => simp [mdel]
  | cons x m ih =>
    obtain ⟨y, w⟩ := x
    simp only [mdel]
    split
    · rw [ih]; subst y; simp only [mfind]; split <;> simp_all [eq_comm]
    · simp only [mfind, ih]; split <;> split <;> simp_all
@[simp] theorem mget_nil : mget ([] : SMap α) k d = d := rfl
theorem mget_mset : mget (mset m k v) j d = if j = k then v else mget m j d := by
  rw [mget, mfind_mset]; split <;> rfl
@[simp] theorem mget_mset_same : mget (mset m k v) k d = v := by rw [mget_mset, if_pos rfl]
theorem mget_mset_other (h : j ≠ k) : mget (mset m k v) j d = mget m j d := by rw [mget_mset, if_neg h]
theorem mget_mdel : mget (mdel m k) j d = if j = k then d else mget m j d := by
  rw [mget, mfind_mdel]; split <;> rfl
@[simp] theorem mget_mdel_same : mget (mdel m k) k d = d := by rw [mget_mdel, if_pos rfl]
theorem mget_mdel_other (h : j ≠ k) : mget (mdel m k) j d = mget m j d := by rw [mget_mdel, if_neg h]
/-- A second write to a number replaces the first. -/
@[simp] theorem mset_mset : mset (mset m k v) k d = mset m k d := by
  induction m with
  | nil => simp [mset]
  | cons x m ih =>
    obtain ⟨y, w⟩ := x
    simp only [mset]
    split
    · simp [mset]
    · split
      · simp [mset]
      · simp only [mset, ih]; rw [if_neg (by assumption), if_neg (by assumption)]
end maps

/-- One byte after a write of one. -/
theorem memByte_memSet (m : List Host.Cell) (a x : Nat) (b : Byte) :
    memByte (memSet m a b) x = if x = a then b else memByte m x := by
  simp only [memByte, memSet]
  split
  · rename_i h; subst h; rw [mget_mdel]
  · rw [mget_mset]

/-- A byte outside n written bytes reads as before, and one inside as written. -/
theorem memByte_memPut_outside (n : Nat) : ∀ (m : List Host.Cell) (a x b : Nat), b < a ∨ a + n ≤ b →
    memByte (memPut m a n x) b = memByte m b := by
  induction n with
  | zero => intros; rfl
  | succ n ih =>
    intro m a x b h
    rw [memPut, ih _ _ _ _ (by omega), memByte_memSet, if_neg (by omega)]
theorem memByte_memPut_inside (n : Nat) : ∀ (m : List Host.Cell) (a x i : Nat), i < n →
    memByte (memPut m a n x) (a + i) = BitVec.ofNat 8 (x / 256 ^ i) := by
  induction n with
  | zero => intros; omega
  | succ n ih =>
    intro m a x i h
    rw [memPut]
    cases i with
    | zero => rw [memByte_memPut_outside _ _ _ _ _ (by omega), memByte_memSet, Nat.add_zero, if_pos rfl]; simp
    | succ i =>
      rw [show a + (i + 1) = a + 1 + i by omega, ih _ _ _ _ (by omega), Nat.div_div_eq_div_mul, Nat.pow_succ, Nat.mul_comm]
theorem memByte_memPutList_outside (bs : List Byte) : ∀ (m : List Host.Cell) (a b : Nat),
    b < a ∨ a + bs.length ≤ b → memByte (memPutList m a bs) b = memByte m b := by
  induction bs with
  | nil => intros; rfl
  | cons c bs ih =>
    intro m a b h
    rw [List.length_cons] at h
    rw [memPutList, ih _ _ _ (by omega), memByte_memSet, if_neg (by omega)]
theorem memByte_memPutList_inside (bs : List Byte) : ∀ (m : List Host.Cell) (a i : Nat) (h : i < bs.length),
    memByte (memPutList m a bs) (a + i) = bs[i] := by
  induction bs with
  | nil => intro m a i h; exact absurd h (Nat.not_lt_zero _)
  | cons c bs ih =>
    intro m a i h
    rw [memPutList]
    cases i with
    | zero => rw [memByte_memPutList_outside _ _ _ _ (by omega), memByte_memSet, Nat.add_zero, if_pos rfl]; rfl
    | succ i => rw [show a + (i + 1) = a + 1 + i by omega, ih _ _ _ (by simpa using h)]; rfl
theorem memByte_memPutMask_outside (bs : List (Byte × Bool)) : ∀ (m : List Host.Cell) (a b : Nat),
    b < a ∨ a + bs.length ≤ b → memByte (memPutMask m a bs) b = memByte m b := by
  induction bs with
  | nil => intros; rfl
  | cons c bs ih =>
    intro m a b h
    obtain ⟨c, w⟩ := c
    rw [List.length_cons] at h
    rw [memPutMask, ih _ _ _ (by omega)]
    split
    · rw [memByte_memSet, if_neg (by omega)]
    · rfl

/-! The canonical form. -/

theorem risingAbove_lower {lo lo' : Nat} (h : lo' ≤ lo) : ∀ {m : List Host.Cell},
    risingAbove lo m = true → risingAbove lo' m = true
  | [], _ => rfl
  | (a, _) :: m, hm => by
    simp only [risingAbove, Bool.and_eq_true, decide_eq_true_eq] at hm ⊢
    exact ⟨by omega, hm.2⟩
theorem risingAbove_mset {lo k : Nat} (b : Byte) (h : lo < k) : ∀ {m : List Host.Cell},
    risingAbove lo m = true → risingAbove lo (mset m k b) = true := by
  intro m
  induction m generalizing lo with
  | nil => intro _; simpa [mset, risingAbove] using h
  | cons x m ih =>
    obtain ⟨a, c⟩ := x
    intro hm
    simp only [risingAbove, Bool.and_eq_true, decide_eq_true_eq] at hm
    simp only [mset]
    split
    · subst a; simp [risingAbove, h, hm.2]
    · split
      · rename_i hlt; simp [risingAbove, h, hlt, hm.2]
      · simp only [risingAbove, Bool.and_eq_true, decide_eq_true_eq]
        exact ⟨hm.1, ih (by omega) hm.2⟩
theorem risingAbove_filter {lo : Nat} (p : Host.Cell → Bool) : ∀ {m : List Host.Cell},
    risingAbove lo m = true → risingAbove lo (m.filter p) = true := by
  intro m
  induction m generalizing lo with
  | nil => exact id
  | cons x m ih =>
    obtain ⟨a, c⟩ := x
    intro hm
    simp only [risingAbove, Bool.and_eq_true, decide_eq_true_eq] at hm
    rw [List.filter_cons]
    split
    · simp only [risingAbove, Bool.and_eq_true, decide_eq_true_eq]; exact ⟨hm.1, ih hm.2⟩
    · exact ih (risingAbove_lower (by omega) hm.2)
theorem mdel_eq_filter {α : Type} (m : SMap α) (k : Nat) : mdel m k = m.filter (fun c => c.1 != k) := by
  induction m with
  | nil => rfl
  | cons x m ih =>
    obtain ⟨a, c⟩ := x
    simp only [mdel, List.filter_cons]
    split <;> simp_all

/-- Addresses strictly risingCells. -/
def risingCells : List Host.Cell → Bool
  | [] => true
  | (a, _) :: m => risingAbove a m
theorem wf_iff (m : List Host.Cell) : Memory.wf m = true ↔ risingCells m = true ∧ ∀ c ∈ m, c.2 ≠ memDefault := by
  cases m with
  | nil => simp [Memory.wf, risingCells]
  | cons x m => simp [Memory.wf, risingCells]
theorem wf_nil : Memory.wf [] = true := rfl
theorem risingCells_of_above {lo : Nat} : ∀ {m : List Host.Cell}, risingAbove lo m = true → risingCells m = true
  | [], _ => rfl
  | (a, _) :: m, h => by
    simp only [risingAbove, Bool.and_eq_true] at h; exact h.2
theorem risingCells_filter (p : Host.Cell → Bool) : ∀ {m : List Host.Cell}, risingCells m = true → risingCells (m.filter p) = true
  | [], _ => rfl
  | (a, c) :: m, h => by
    rw [List.filter_cons]
    split
    · exact risingAbove_filter p h
    · exact risingCells_of_above (risingAbove_filter p h)
theorem risingCells_mset (k : Nat) (b : Byte) : ∀ {m : List Host.Cell}, risingCells m = true → risingCells (mset m k b) = true
  | [], _ => rfl
  | (a, c) :: m, h => by
    simp only [mset]
    split
    · subst k; exact h
    · split
      · rename_i hlt
        show risingAbove k ((a, c) :: m) = true
        simp only [risingAbove, Bool.and_eq_true, decide_eq_true_eq]; exact ⟨hlt, h⟩
      · exact risingAbove_mset b (by omega) h
theorem mem_mset {α : Type} {m : SMap α} {k : Nat} {v : α} {c : Nat × α} (h : c ∈ mset m k v) : c = (k, v) ∨ c ∈ m := by
  induction m with
  | nil => simpa [mset] using h
  | cons x m ih =>
    obtain ⟨a, d⟩ := x
    simp only [mset] at h
    split at h
    · rcases List.mem_cons.1 h with h | h
      · exact .inl h
      · exact .inr (List.mem_cons_of_mem _ h)
    · split at h
      · rcases List.mem_cons.1 h with h | h
        · exact .inl h
        · exact .inr h
      · rcases List.mem_cons.1 h with h | h
        · exact .inr (h ▸ List.mem_cons_self)
        · exact (ih h).imp_right (List.mem_cons_of_mem _)

theorem wf_filter {m : List Host.Cell} (p : Host.Cell → Bool) (h : Memory.wf m = true) :
    Memory.wf (m.filter p) = true := by
  rw [wf_iff] at h ⊢
  exact ⟨risingCells_filter p h.1, fun c hc => h.2 c (List.mem_filter.1 hc).1⟩
/-- A write of one byte keeps the canonical form. -/
theorem wf_memSet {m : List Host.Cell} (a : Nat) (b : Byte) (h : Memory.wf m = true) :
    Memory.wf (memSet m a b) = true := by
  unfold memSet
  split
  · rw [mdel_eq_filter]; exact wf_filter _ h
  · rename_i hb
    rw [wf_iff] at h ⊢
    refine ⟨risingCells_mset a b h.1, fun c hc => ?_⟩
    rcases mem_mset hc with rfl | hc
    · exact hb
    · exact h.2 c hc
/-- A write of n bytes keeps the canonical form. -/
theorem wf_memPut (n : Nat) : ∀ {m : List Host.Cell} (a x : Nat), Memory.wf m = true → Memory.wf (memPut m a n x) = true := by
  induction n with
  | zero => intro m a x h; exact h
  | succ n ih => intro m a x h; exact ih _ _ (wf_memSet _ _ h)
/-- A write of a list of bytes keeps the canonical form. -/
theorem wf_memPutList (bs : List Byte) : ∀ {m : List Host.Cell} (a : Nat), Memory.wf m = true →
    Memory.wf (memPutList m a bs) = true := by
  induction bs with
  | nil => intro m a h; exact h
  | cons b bs ih => intro m a h; exact ih _ (wf_memSet _ _ h)
/-- A write of the selected bytes of a list keeps the canonical form. -/
theorem wf_memPutMask (bs : List (Byte × Bool)) : ∀ {m : List Host.Cell} (a : Nat), Memory.wf m = true →
    Memory.wf (memPutMask m a bs) = true := by
  induction bs with
  | nil => intro m a h; exact h
  | cons b bs ih =>
    obtain ⟨b, w⟩ := b
    intro m a h
    rw [memPutMask]
    split
    · exact ih _ (wf_memSet _ _ h)
    · exact ih _ h

end Sys2Proof.Machine
end

