-- ==== Sys2Proof/Laws/State.lean ====
section
/-! SUPPORT. What each update of the state leaves and writes, field by field, so that no proof unfolds a record update. -/

namespace Sys2Proof.Machine

set_option Elab.async false

section state
variable (s : State) (c d n : Nat) (x : Core) (t u : Strand) (l : Log) (e : Die) (w : Why)

@[simp] theorem setCore_sched : (s.setCore c x).sched = s.sched := rfl
@[simp] theorem setCore_cur : (s.setCore c x).cur = s.cur := rfl
@[simp] theorem setCore_curTable : (s.setCore c x).curTable = s.curTable := rfl
@[simp] theorem setCore_now : (s.setCore c x).now = s.now := rfl
@[simp] theorem setCore_freeCtr : (s.setCore c x).freeCtr = s.freeCtr := rfl
@[simp] theorem setCore_choice : (s.setCore c x).choice = s.choice := rfl
@[simp] theorem setCore_dies : (s.setCore c x).dies = s.dies := rfl
@[simp] theorem setCore_mem : (s.setCore c x).mem = s.mem := rfl
@[simp] theorem setCore_keys : (s.setCore c x).keys = s.keys := rfl
@[simp] theorem setCore_hist : (s.setCore c x).hist = s.hist := rfl
@[simp] theorem setCore_failed : (s.setCore c x).failed = s.failed := rfl
@[simp] theorem setCore_poison : (s.setCore c x).poison = s.poison := rfl
@[simp] theorem setCore_owned : (s.setCore c x).owned = s.owned := rfl
@[simp] theorem setCore_shfmt : (s.setCore c x).shfmt = s.shfmt := rfl
@[simp] theorem setCore_banks : (s.setCore c x).banks = s.banks := rfl
@[simp] theorem setCore_cells : (s.setCore c x).cells = s.cells := rfl
@[simp] theorem setCore_cellOwner : (s.setCore c x).cellOwner = s.cellOwner := rfl
@[simp] theorem setCore_tagOwner : (s.setCore c x).tagOwner = s.tagOwner := rfl
@[simp] theorem setCore_arrivals : (s.setCore c x).arrivals = s.arrivals := rfl
@[simp] theorem setCore_compl : (s.setCore c x).compl = s.compl := rfl
@[simp] theorem setCore_red : (s.setCore c x).red = s.red := rfl
@[simp] theorem setCore_redTurn : (s.setCore c x).redTurn = s.redTurn := rfl
@[simp] theorem setCore_ats : (s.setCore c x).ats = s.ats := rfl
@[simp] theorem setCore_atsReq : (s.setCore c x).atsReq = s.atsReq := rfl
@[simp] theorem setCore_pri : (s.setCore c x).pri = s.pri := rfl
@[simp] theorem setCore_priFail : (s.setCore c x).priFail = s.priFail := rfl
@[simp] theorem setCore_troot : (s.setCore c x).troot = s.troot := rfl
@[simp] theorem setCore_rsvg : (s.setCore c x).rsvg = s.rsvg := rfl
@[simp] theorem setCore_secmap : (s.setCore c x).secmap = s.secmap := rfl
@[simp] theorem setCore_resetDue : (s.setCore c x).resetDue = s.resetDue := rfl
@[simp] theorem setCore_floats : (s.setCore c x).floats = s.floats := rfl
@[simp] theorem setCore_nextId : (s.setCore c x).nextId = s.nextId := rfl
@[simp] theorem setCore_dieFlows : (s.setCore c x).dieFlows = s.dieFlows := rfl
@[simp] theorem setCore_links : (s.setCore c x).links = s.links := rfl
@[simp] theorem setCore_fabid : (s.setCore c x).fabid = s.fabid := rfl
@[simp] theorem setCore_wins : (s.setCore c x).wins = s.wins := rfl
@[simp] theorem setCore_recv : (s.setCore c x).recv = s.recv := rfl
@[simp] theorem setCore_rings : (s.setCore c x).rings = s.rings := rfl
@[simp] theorem setCore_ctxs : (s.setCore c x).ctxs = s.ctxs := rfl
@[simp] theorem setCore_carg0 : (s.setCore c x).carg0 = s.carg0 := rfl
@[simp] theorem setCore_carg1 : (s.setCore c x).carg1 = s.carg1 := rfl
@[simp] theorem setCore_cres : (s.setCore c x).cres = s.cres := rfl
@[simp] theorem setCore_ccmd : (s.setCore c x).ccmd = s.ccmd := rfl
@[simp] theorem setCore_cwait : (s.setCore c x).cwait = s.cwait := rfl
@[simp] theorem setCore_queues : (s.setCore c x).queues = s.queues := rfl
@[simp] theorem setCore_packets : (s.setCore c x).packets = s.packets := rfl
@[simp] theorem setCore_lastSlot : (s.setCore c x).lastSlot = s.lastSlot := rfl
@[simp] theorem setCore_runList : (s.setCore c x).runList = s.runList := rfl
@[simp] theorem setCore_turn : (s.setCore c x).turn = s.turn := rfl
@[simp] theorem setCore_kernels : (s.setCore c x).kernels = s.kernels := rfl
@[simp] theorem setCore_groups : (s.setCore c x).groups = s.groups := rfl
@[simp] theorem setCore_images : (s.setCore c x).images = s.images := rfl
@[simp] theorem setCore_replays : (s.setCore c x).replays = s.replays := rfl
@[simp] theorem setCore_msi : (s.setCore c x).msi = s.msi := rfl
@[simp] theorem setCore_leaves : (s.setCore c x).leaves = s.leaves := rfl
@[simp] theorem setCore_pageFloors : (s.setCore c x).pageFloors = s.pageFloors := rfl
@[simp] theorem setCore_notices : (s.setCore c x).notices = s.notices := rfl
@[simp] theorem setCore_master : (s.setCore c x).master = s.master := rfl
@[simp] theorem setCore_management : (s.setCore c x).management = s.management := rfl
@[simp] theorem setCore_basinFailed : (s.setCore c x).basinFailed = s.basinFailed := rfl
@[simp] theorem setCore_pending : (s.setCore c x).pending = s.pending := rfl
@[simp] theorem setCore_powered : (s.setCore c x).powered = s.powered := rfl
@[simp] theorem setCore_stage : (s.setCore c x).stage = s.stage := rfl
@[simp] theorem setCore_ready : (s.setCore c x).ready = s.ready := rfl
@[simp] theorem setCore_power : (s.setCore c x).power = s.power := rfl
@[simp] theorem setCore_throttled : (s.setCore c x).throttled = s.throttled := rfl
@[simp] theorem setCore_stopped : (s.setCore c x).stopped = s.stopped := rfl
@[simp] theorem setCore_digest : (s.setCore c x).digest = s.digest := rfl
@[simp] theorem setCore_update : (s.setCore c x).update = s.update := rfl
@[simp] theorem setCore_report : (s.setCore c x).report = s.report := rfl
@[simp] theorem setCore_output : (s.setCore c x).output = s.output := rfl
@[simp] theorem setCore_phase : (s.setCore c x).phase = s.phase := rfl
@[simp] theorem setCore_fmtDue : (s.setCore c x).fmtDue = s.fmtDue := rfl
@[simp] theorem setCore_cellDue : (s.setCore c x).cellDue = s.cellDue := rfl
@[simp] theorem setCore_readimg : (s.setCore c x).readimg = s.readimg := rfl
@[simp] theorem setCore_served : (s.setCore c x).served = s.served := rfl
@[simp] theorem setCore_killDue : (s.setCore c x).killDue = s.killDue := rfl

@[simp] theorem setStrand_sched : (s.setStrand c t).sched = s.sched := rfl
@[simp] theorem setStrand_cur : (s.setStrand c t).cur = s.cur := rfl
@[simp] theorem setStrand_curTable : (s.setStrand c t).curTable = s.curTable := rfl
@[simp] theorem setStrand_now : (s.setStrand c t).now = s.now := rfl
@[simp] theorem setStrand_freeCtr : (s.setStrand c t).freeCtr = s.freeCtr := rfl
@[simp] theorem setStrand_choice : (s.setStrand c t).choice = s.choice := rfl
@[simp] theorem setStrand_dies : (s.setStrand c t).dies = s.dies := rfl
@[simp] theorem setStrand_mem : (s.setStrand c t).mem = s.mem := rfl
@[simp] theorem setStrand_keys : (s.setStrand c t).keys = s.keys := rfl
@[simp] theorem setStrand_hist : (s.setStrand c t).hist = s.hist := rfl
@[simp] theorem setStrand_failed : (s.setStrand c t).failed = s.failed := rfl
@[simp] theorem setStrand_poison : (s.setStrand c t).poison = s.poison := rfl
@[simp] theorem setStrand_owned : (s.setStrand c t).owned = s.owned := rfl
@[simp] theorem setStrand_shfmt : (s.setStrand c t).shfmt = s.shfmt := rfl
@[simp] theorem setStrand_banks : (s.setStrand c t).banks = s.banks := rfl
@[simp] theorem setStrand_cells : (s.setStrand c t).cells = s.cells := rfl
@[simp] theorem setStrand_cellOwner : (s.setStrand c t).cellOwner = s.cellOwner := rfl
@[simp] theorem setStrand_tagOwner : (s.setStrand c t).tagOwner = s.tagOwner := rfl
@[simp] theorem setStrand_arrivals : (s.setStrand c t).arrivals = s.arrivals := rfl
@[simp] theorem setStrand_compl : (s.setStrand c t).compl = s.compl := rfl
@[simp] theorem setStrand_red : (s.setStrand c t).red = s.red := rfl
@[simp] theorem setStrand_redTurn : (s.setStrand c t).redTurn = s.redTurn := rfl
@[simp] theorem setStrand_ats : (s.setStrand c t).ats = s.ats := rfl
@[simp] theorem setStrand_atsReq : (s.setStrand c t).atsReq = s.atsReq := rfl
@[simp] theorem setStrand_pri : (s.setStrand c t).pri = s.pri := rfl
@[simp] theorem setStrand_priFail : (s.setStrand c t).priFail = s.priFail := rfl
@[simp] theorem setStrand_troot : (s.setStrand c t).troot = s.troot := rfl
@[simp] theorem setStrand_rsvg : (s.setStrand c t).rsvg = s.rsvg := rfl
@[simp] theorem setStrand_secmap : (s.setStrand c t).secmap = s.secmap := rfl
@[simp] theorem setStrand_resetDue : (s.setStrand c t).resetDue = s.resetDue := rfl
@[simp] theorem setStrand_floats : (s.setStrand c t).floats = s.floats := rfl
@[simp] theorem setStrand_nextId : (s.setStrand c t).nextId = s.nextId := rfl
@[simp] theorem setStrand_dieFlows : (s.setStrand c t).dieFlows = s.dieFlows := rfl
@[simp] theorem setStrand_links : (s.setStrand c t).links = s.links := rfl
@[simp] theorem setStrand_fabid : (s.setStrand c t).fabid = s.fabid := rfl
@[simp] theorem setStrand_wins : (s.setStrand c t).wins = s.wins := rfl
@[simp] theorem setStrand_recv : (s.setStrand c t).recv = s.recv := rfl
@[simp] theorem setStrand_rings : (s.setStrand c t).rings = s.rings := rfl
@[simp] theorem setStrand_ctxs : (s.setStrand c t).ctxs = s.ctxs := rfl
@[simp] theorem setStrand_carg0 : (s.setStrand c t).carg0 = s.carg0 := rfl
@[simp] theorem setStrand_carg1 : (s.setStrand c t).carg1 = s.carg1 := rfl
@[simp] theorem setStrand_cres : (s.setStrand c t).cres = s.cres := rfl
@[simp] theorem setStrand_ccmd : (s.setStrand c t).ccmd = s.ccmd := rfl
@[simp] theorem setStrand_cwait : (s.setStrand c t).cwait = s.cwait := rfl
@[simp] theorem setStrand_queues : (s.setStrand c t).queues = s.queues := rfl
@[simp] theorem setStrand_packets : (s.setStrand c t).packets = s.packets := rfl
@[simp] theorem setStrand_lastSlot : (s.setStrand c t).lastSlot = s.lastSlot := rfl
@[simp] theorem setStrand_runList : (s.setStrand c t).runList = s.runList := rfl
@[simp] theorem setStrand_turn : (s.setStrand c t).turn = s.turn := rfl
@[simp] theorem setStrand_kernels : (s.setStrand c t).kernels = s.kernels := rfl
@[simp] theorem setStrand_groups : (s.setStrand c t).groups = s.groups := rfl
@[simp] theorem setStrand_images : (s.setStrand c t).images = s.images := rfl
@[simp] theorem setStrand_replays : (s.setStrand c t).replays = s.replays := rfl
@[simp] theorem setStrand_msi : (s.setStrand c t).msi = s.msi := rfl
@[simp] theorem setStrand_leaves : (s.setStrand c t).leaves = s.leaves := rfl
@[simp] theorem setStrand_pageFloors : (s.setStrand c t).pageFloors = s.pageFloors := rfl
@[simp] theorem setStrand_notices : (s.setStrand c t).notices = s.notices := rfl
@[simp] theorem setStrand_master : (s.setStrand c t).master = s.master := rfl
@[simp] theorem setStrand_management : (s.setStrand c t).management = s.management := rfl
@[simp] theorem setStrand_basinFailed : (s.setStrand c t).basinFailed = s.basinFailed := rfl
@[simp] theorem setStrand_pending : (s.setStrand c t).pending = s.pending := rfl
@[simp] theorem setStrand_powered : (s.setStrand c t).powered = s.powered := rfl
@[simp] theorem setStrand_stage : (s.setStrand c t).stage = s.stage := rfl
@[simp] theorem setStrand_ready : (s.setStrand c t).ready = s.ready := rfl
@[simp] theorem setStrand_power : (s.setStrand c t).power = s.power := rfl
@[simp] theorem setStrand_throttled : (s.setStrand c t).throttled = s.throttled := rfl
@[simp] theorem setStrand_stopped : (s.setStrand c t).stopped = s.stopped := rfl
@[simp] theorem setStrand_digest : (s.setStrand c t).digest = s.digest := rfl
@[simp] theorem setStrand_update : (s.setStrand c t).update = s.update := rfl
@[simp] theorem setStrand_report : (s.setStrand c t).report = s.report := rfl
@[simp] theorem setStrand_output : (s.setStrand c t).output = s.output := rfl
@[simp] theorem setStrand_phase : (s.setStrand c t).phase = s.phase := rfl
@[simp] theorem setStrand_fmtDue : (s.setStrand c t).fmtDue = s.fmtDue := rfl
@[simp] theorem setStrand_cellDue : (s.setStrand c t).cellDue = s.cellDue := rfl
@[simp] theorem setStrand_readimg : (s.setStrand c t).readimg = s.readimg := rfl
@[simp] theorem setStrand_served : (s.setStrand c t).served = s.served := rfl
@[simp] theorem setStrand_killDue : (s.setStrand c t).killDue = s.killDue := rfl

@[simp] theorem setMe_sched : (s.setMe t).sched = s.sched := rfl
@[simp] theorem setMe_cur : (s.setMe t).cur = s.cur := rfl
@[simp] theorem setMe_curTable : (s.setMe t).curTable = s.curTable := rfl
@[simp] theorem setMe_now : (s.setMe t).now = s.now := rfl
@[simp] theorem setMe_freeCtr : (s.setMe t).freeCtr = s.freeCtr := rfl
@[simp] theorem setMe_choice : (s.setMe t).choice = s.choice := rfl
@[simp] theorem setMe_dies : (s.setMe t).dies = s.dies := rfl
@[simp] theorem setMe_mem : (s.setMe t).mem = s.mem := rfl
@[simp] theorem setMe_keys : (s.setMe t).keys = s.keys := rfl
@[simp] theorem setMe_hist : (s.setMe t).hist = s.hist := rfl
@[simp] theorem setMe_failed : (s.setMe t).failed = s.failed := rfl
@[simp] theorem setMe_poison : (s.setMe t).poison = s.poison := rfl
@[simp] theorem setMe_owned : (s.setMe t).owned = s.owned := rfl
@[simp] theorem setMe_shfmt : (s.setMe t).shfmt = s.shfmt := rfl
@[simp] theorem setMe_banks : (s.setMe t).banks = s.banks := rfl
@[simp] theorem setMe_cells : (s.setMe t).cells = s.cells := rfl
@[simp] theorem setMe_cellOwner : (s.setMe t).cellOwner = s.cellOwner := rfl
@[simp] theorem setMe_tagOwner : (s.setMe t).tagOwner = s.tagOwner := rfl
@[simp] theorem setMe_arrivals : (s.setMe t).arrivals = s.arrivals := rfl
@[simp] theorem setMe_compl : (s.setMe t).compl = s.compl := rfl
@[simp] theorem setMe_red : (s.setMe t).red = s.red := rfl
@[simp] theorem setMe_redTurn : (s.setMe t).redTurn = s.redTurn := rfl
@[simp] theorem setMe_ats : (s.setMe t).ats = s.ats := rfl
@[simp] theorem setMe_atsReq : (s.setMe t).atsReq = s.atsReq := rfl
@[simp] theorem setMe_pri : (s.setMe t).pri = s.pri := rfl
@[simp] theorem setMe_priFail : (s.setMe t).priFail = s.priFail := rfl
@[simp] theorem setMe_troot : (s.setMe t).troot = s.troot := rfl
@[simp] theorem setMe_rsvg : (s.setMe t).rsvg = s.rsvg := rfl
@[simp] theorem setMe_secmap : (s.setMe t).secmap = s.secmap := rfl
@[simp] theorem setMe_resetDue : (s.setMe t).resetDue = s.resetDue := rfl
@[simp] theorem setMe_floats : (s.setMe t).floats = s.floats := rfl
@[simp] theorem setMe_nextId : (s.setMe t).nextId = s.nextId := rfl
@[simp] theorem setMe_dieFlows : (s.setMe t).dieFlows = s.dieFlows := rfl
@[simp] theorem setMe_links : (s.setMe t).links = s.links := rfl
@[simp] theorem setMe_fabid : (s.setMe t).fabid = s.fabid := rfl
@[simp] theorem setMe_wins : (s.setMe t).wins = s.wins := rfl
@[simp] theorem setMe_recv : (s.setMe t).recv = s.recv := rfl
@[simp] theorem setMe_rings : (s.setMe t).rings = s.rings := rfl
@[simp] theorem setMe_ctxs : (s.setMe t).ctxs = s.ctxs := rfl
@[simp] theorem setMe_carg0 : (s.setMe t).carg0 = s.carg0 := rfl
@[simp] theorem setMe_carg1 : (s.setMe t).carg1 = s.carg1 := rfl
@[simp] theorem setMe_cres : (s.setMe t).cres = s.cres := rfl
@[simp] theorem setMe_ccmd : (s.setMe t).ccmd = s.ccmd := rfl
@[simp] theorem setMe_cwait : (s.setMe t).cwait = s.cwait := rfl
@[simp] theorem setMe_queues : (s.setMe t).queues = s.queues := rfl
@[simp] theorem setMe_packets : (s.setMe t).packets = s.packets := rfl
@[simp] theorem setMe_lastSlot : (s.setMe t).lastSlot = s.lastSlot := rfl
@[simp] theorem setMe_runList : (s.setMe t).runList = s.runList := rfl
@[simp] theorem setMe_turn : (s.setMe t).turn = s.turn := rfl
@[simp] theorem setMe_kernels : (s.setMe t).kernels = s.kernels := rfl
@[simp] theorem setMe_groups : (s.setMe t).groups = s.groups := rfl
@[simp] theorem setMe_images : (s.setMe t).images = s.images := rfl
@[simp] theorem setMe_replays : (s.setMe t).replays = s.replays := rfl
@[simp] theorem setMe_msi : (s.setMe t).msi = s.msi := rfl
@[simp] theorem setMe_leaves : (s.setMe t).leaves = s.leaves := rfl
@[simp] theorem setMe_pageFloors : (s.setMe t).pageFloors = s.pageFloors := rfl
@[simp] theorem setMe_notices : (s.setMe t).notices = s.notices := rfl
@[simp] theorem setMe_master : (s.setMe t).master = s.master := rfl
@[simp] theorem setMe_management : (s.setMe t).management = s.management := rfl
@[simp] theorem setMe_basinFailed : (s.setMe t).basinFailed = s.basinFailed := rfl
@[simp] theorem setMe_pending : (s.setMe t).pending = s.pending := rfl
@[simp] theorem setMe_powered : (s.setMe t).powered = s.powered := rfl
@[simp] theorem setMe_stage : (s.setMe t).stage = s.stage := rfl
@[simp] theorem setMe_ready : (s.setMe t).ready = s.ready := rfl
@[simp] theorem setMe_power : (s.setMe t).power = s.power := rfl
@[simp] theorem setMe_throttled : (s.setMe t).throttled = s.throttled := rfl
@[simp] theorem setMe_stopped : (s.setMe t).stopped = s.stopped := rfl
@[simp] theorem setMe_digest : (s.setMe t).digest = s.digest := rfl
@[simp] theorem setMe_update : (s.setMe t).update = s.update := rfl
@[simp] theorem setMe_report : (s.setMe t).report = s.report := rfl
@[simp] theorem setMe_output : (s.setMe t).output = s.output := rfl
@[simp] theorem setMe_phase : (s.setMe t).phase = s.phase := rfl
@[simp] theorem setMe_fmtDue : (s.setMe t).fmtDue = s.fmtDue := rfl
@[simp] theorem setMe_cellDue : (s.setMe t).cellDue = s.cellDue := rfl
@[simp] theorem setMe_readimg : (s.setMe t).readimg = s.readimg := rfl
@[simp] theorem setMe_served : (s.setMe t).served = s.served := rfl
@[simp] theorem setMe_killDue : (s.setMe t).killDue = s.killDue := rfl

@[simp] theorem setLog_sched : (s.setLog c l).sched = s.sched := rfl
@[simp] theorem setLog_cur : (s.setLog c l).cur = s.cur := rfl
@[simp] theorem setLog_curTable : (s.setLog c l).curTable = s.curTable := rfl
@[simp] theorem setLog_now : (s.setLog c l).now = s.now := rfl
@[simp] theorem setLog_freeCtr : (s.setLog c l).freeCtr = s.freeCtr := rfl
@[simp] theorem setLog_choice : (s.setLog c l).choice = s.choice := rfl
@[simp] theorem setLog_dies : (s.setLog c l).dies = s.dies := rfl
@[simp] theorem setLog_mem : (s.setLog c l).mem = s.mem := rfl
@[simp] theorem setLog_keys : (s.setLog c l).keys = s.keys := rfl
@[simp] theorem setLog_hist : (s.setLog c l).hist = s.hist := rfl
@[simp] theorem setLog_failed : (s.setLog c l).failed = s.failed := rfl
@[simp] theorem setLog_poison : (s.setLog c l).poison = s.poison := rfl
@[simp] theorem setLog_owned : (s.setLog c l).owned = s.owned := rfl
@[simp] theorem setLog_shfmt : (s.setLog c l).shfmt = s.shfmt := rfl
@[simp] theorem setLog_banks : (s.setLog c l).banks = s.banks := rfl
@[simp] theorem setLog_cells : (s.setLog c l).cells = s.cells := rfl
@[simp] theorem setLog_cellOwner : (s.setLog c l).cellOwner = s.cellOwner := rfl
@[simp] theorem setLog_tagOwner : (s.setLog c l).tagOwner = s.tagOwner := rfl
@[simp] theorem setLog_arrivals : (s.setLog c l).arrivals = s.arrivals := rfl
@[simp] theorem setLog_compl : (s.setLog c l).compl = s.compl := rfl
@[simp] theorem setLog_red : (s.setLog c l).red = s.red := rfl
@[simp] theorem setLog_redTurn : (s.setLog c l).redTurn = s.redTurn := rfl
@[simp] theorem setLog_ats : (s.setLog c l).ats = s.ats := rfl
@[simp] theorem setLog_atsReq : (s.setLog c l).atsReq = s.atsReq := rfl
@[simp] theorem setLog_pri : (s.setLog c l).pri = s.pri := rfl
@[simp] theorem setLog_priFail : (s.setLog c l).priFail = s.priFail := rfl
@[simp] theorem setLog_troot : (s.setLog c l).troot = s.troot := rfl
@[simp] theorem setLog_rsvg : (s.setLog c l).rsvg = s.rsvg := rfl
@[simp] theorem setLog_secmap : (s.setLog c l).secmap = s.secmap := rfl
@[simp] theorem setLog_resetDue : (s.setLog c l).resetDue = s.resetDue := rfl
@[simp] theorem setLog_floats : (s.setLog c l).floats = s.floats := rfl
@[simp] theorem setLog_nextId : (s.setLog c l).nextId = s.nextId := rfl
@[simp] theorem setLog_dieFlows : (s.setLog c l).dieFlows = s.dieFlows := rfl
@[simp] theorem setLog_links : (s.setLog c l).links = s.links := rfl
@[simp] theorem setLog_fabid : (s.setLog c l).fabid = s.fabid := rfl
@[simp] theorem setLog_wins : (s.setLog c l).wins = s.wins := rfl
@[simp] theorem setLog_recv : (s.setLog c l).recv = s.recv := rfl
@[simp] theorem setLog_rings : (s.setLog c l).rings = s.rings := rfl
@[simp] theorem setLog_ctxs : (s.setLog c l).ctxs = s.ctxs := rfl
@[simp] theorem setLog_carg0 : (s.setLog c l).carg0 = s.carg0 := rfl
@[simp] theorem setLog_carg1 : (s.setLog c l).carg1 = s.carg1 := rfl
@[simp] theorem setLog_cres : (s.setLog c l).cres = s.cres := rfl
@[simp] theorem setLog_ccmd : (s.setLog c l).ccmd = s.ccmd := rfl
@[simp] theorem setLog_cwait : (s.setLog c l).cwait = s.cwait := rfl
@[simp] theorem setLog_queues : (s.setLog c l).queues = s.queues := rfl
@[simp] theorem setLog_packets : (s.setLog c l).packets = s.packets := rfl
@[simp] theorem setLog_lastSlot : (s.setLog c l).lastSlot = s.lastSlot := rfl
@[simp] theorem setLog_runList : (s.setLog c l).runList = s.runList := rfl
@[simp] theorem setLog_turn : (s.setLog c l).turn = s.turn := rfl
@[simp] theorem setLog_kernels : (s.setLog c l).kernels = s.kernels := rfl
@[simp] theorem setLog_groups : (s.setLog c l).groups = s.groups := rfl
@[simp] theorem setLog_images : (s.setLog c l).images = s.images := rfl
@[simp] theorem setLog_replays : (s.setLog c l).replays = s.replays := rfl
@[simp] theorem setLog_msi : (s.setLog c l).msi = s.msi := rfl
@[simp] theorem setLog_leaves : (s.setLog c l).leaves = s.leaves := rfl
@[simp] theorem setLog_pageFloors : (s.setLog c l).pageFloors = s.pageFloors := rfl
@[simp] theorem setLog_notices : (s.setLog c l).notices = s.notices := rfl
@[simp] theorem setLog_master : (s.setLog c l).master = s.master := rfl
@[simp] theorem setLog_management : (s.setLog c l).management = s.management := rfl
@[simp] theorem setLog_basinFailed : (s.setLog c l).basinFailed = s.basinFailed := rfl
@[simp] theorem setLog_pending : (s.setLog c l).pending = s.pending := rfl
@[simp] theorem setLog_powered : (s.setLog c l).powered = s.powered := rfl
@[simp] theorem setLog_stage : (s.setLog c l).stage = s.stage := rfl
@[simp] theorem setLog_ready : (s.setLog c l).ready = s.ready := rfl
@[simp] theorem setLog_power : (s.setLog c l).power = s.power := rfl
@[simp] theorem setLog_throttled : (s.setLog c l).throttled = s.throttled := rfl
@[simp] theorem setLog_stopped : (s.setLog c l).stopped = s.stopped := rfl
@[simp] theorem setLog_digest : (s.setLog c l).digest = s.digest := rfl
@[simp] theorem setLog_update : (s.setLog c l).update = s.update := rfl
@[simp] theorem setLog_report : (s.setLog c l).report = s.report := rfl
@[simp] theorem setLog_output : (s.setLog c l).output = s.output := rfl
@[simp] theorem setLog_phase : (s.setLog c l).phase = s.phase := rfl
@[simp] theorem setLog_fmtDue : (s.setLog c l).fmtDue = s.fmtDue := rfl
@[simp] theorem setLog_cellDue : (s.setLog c l).cellDue = s.cellDue := rfl
@[simp] theorem setLog_readimg : (s.setLog c l).readimg = s.readimg := rfl
@[simp] theorem setLog_served : (s.setLog c l).served = s.served := rfl
@[simp] theorem setLog_killDue : (s.setLog c l).killDue = s.killDue := rfl

@[simp] theorem setDie_sched : (s.setDie d e).sched = s.sched := rfl
@[simp] theorem setDie_cur : (s.setDie d e).cur = s.cur := rfl
@[simp] theorem setDie_curTable : (s.setDie d e).curTable = s.curTable := rfl
@[simp] theorem setDie_now : (s.setDie d e).now = s.now := rfl
@[simp] theorem setDie_freeCtr : (s.setDie d e).freeCtr = s.freeCtr := rfl
@[simp] theorem setDie_choice : (s.setDie d e).choice = s.choice := rfl
@[simp] theorem setDie_cores : (s.setDie d e).cores = s.cores := rfl
@[simp] theorem setDie_mem : (s.setDie d e).mem = s.mem := rfl
@[simp] theorem setDie_keys : (s.setDie d e).keys = s.keys := rfl
@[simp] theorem setDie_hist : (s.setDie d e).hist = s.hist := rfl
@[simp] theorem setDie_failed : (s.setDie d e).failed = s.failed := rfl
@[simp] theorem setDie_poison : (s.setDie d e).poison = s.poison := rfl
@[simp] theorem setDie_owned : (s.setDie d e).owned = s.owned := rfl
@[simp] theorem setDie_shfmt : (s.setDie d e).shfmt = s.shfmt := rfl
@[simp] theorem setDie_banks : (s.setDie d e).banks = s.banks := rfl
@[simp] theorem setDie_cells : (s.setDie d e).cells = s.cells := rfl
@[simp] theorem setDie_cellOwner : (s.setDie d e).cellOwner = s.cellOwner := rfl
@[simp] theorem setDie_tagOwner : (s.setDie d e).tagOwner = s.tagOwner := rfl
@[simp] theorem setDie_arrivals : (s.setDie d e).arrivals = s.arrivals := rfl
@[simp] theorem setDie_compl : (s.setDie d e).compl = s.compl := rfl
@[simp] theorem setDie_red : (s.setDie d e).red = s.red := rfl
@[simp] theorem setDie_redTurn : (s.setDie d e).redTurn = s.redTurn := rfl
@[simp] theorem setDie_ats : (s.setDie d e).ats = s.ats := rfl
@[simp] theorem setDie_atsReq : (s.setDie d e).atsReq = s.atsReq := rfl
@[simp] theorem setDie_pri : (s.setDie d e).pri = s.pri := rfl
@[simp] theorem setDie_priFail : (s.setDie d e).priFail = s.priFail := rfl
@[simp] theorem setDie_troot : (s.setDie d e).troot = s.troot := rfl
@[simp] theorem setDie_rsvg : (s.setDie d e).rsvg = s.rsvg := rfl
@[simp] theorem setDie_secmap : (s.setDie d e).secmap = s.secmap := rfl
@[simp] theorem setDie_resetDue : (s.setDie d e).resetDue = s.resetDue := rfl
@[simp] theorem setDie_floats : (s.setDie d e).floats = s.floats := rfl
@[simp] theorem setDie_nextId : (s.setDie d e).nextId = s.nextId := rfl
@[simp] theorem setDie_dieFlows : (s.setDie d e).dieFlows = s.dieFlows := rfl
@[simp] theorem setDie_links : (s.setDie d e).links = s.links := rfl
@[simp] theorem setDie_fabid : (s.setDie d e).fabid = s.fabid := rfl
@[simp] theorem setDie_wins : (s.setDie d e).wins = s.wins := rfl
@[simp] theorem setDie_recv : (s.setDie d e).recv = s.recv := rfl
@[simp] theorem setDie_rings : (s.setDie d e).rings = s.rings := rfl
@[simp] theorem setDie_ctxs : (s.setDie d e).ctxs = s.ctxs := rfl
@[simp] theorem setDie_carg0 : (s.setDie d e).carg0 = s.carg0 := rfl
@[simp] theorem setDie_carg1 : (s.setDie d e).carg1 = s.carg1 := rfl
@[simp] theorem setDie_cres : (s.setDie d e).cres = s.cres := rfl
@[simp] theorem setDie_ccmd : (s.setDie d e).ccmd = s.ccmd := rfl
@[simp] theorem setDie_cwait : (s.setDie d e).cwait = s.cwait := rfl
@[simp] theorem setDie_queues : (s.setDie d e).queues = s.queues := rfl
@[simp] theorem setDie_packets : (s.setDie d e).packets = s.packets := rfl
@[simp] theorem setDie_lastSlot : (s.setDie d e).lastSlot = s.lastSlot := rfl
@[simp] theorem setDie_runList : (s.setDie d e).runList = s.runList := rfl
@[simp] theorem setDie_turn : (s.setDie d e).turn = s.turn := rfl
@[simp] theorem setDie_kernels : (s.setDie d e).kernels = s.kernels := rfl
@[simp] theorem setDie_groups : (s.setDie d e).groups = s.groups := rfl
@[simp] theorem setDie_images : (s.setDie d e).images = s.images := rfl
@[simp] theorem setDie_replays : (s.setDie d e).replays = s.replays := rfl
@[simp] theorem setDie_msi : (s.setDie d e).msi = s.msi := rfl
@[simp] theorem setDie_leaves : (s.setDie d e).leaves = s.leaves := rfl
@[simp] theorem setDie_pageFloors : (s.setDie d e).pageFloors = s.pageFloors := rfl
@[simp] theorem setDie_notices : (s.setDie d e).notices = s.notices := rfl
@[simp] theorem setDie_master : (s.setDie d e).master = s.master := rfl
@[simp] theorem setDie_management : (s.setDie d e).management = s.management := rfl
@[simp] theorem setDie_basinFailed : (s.setDie d e).basinFailed = s.basinFailed := rfl
@[simp] theorem setDie_pending : (s.setDie d e).pending = s.pending := rfl
@[simp] theorem setDie_powered : (s.setDie d e).powered = s.powered := rfl
@[simp] theorem setDie_stage : (s.setDie d e).stage = s.stage := rfl
@[simp] theorem setDie_ready : (s.setDie d e).ready = s.ready := rfl
@[simp] theorem setDie_power : (s.setDie d e).power = s.power := rfl
@[simp] theorem setDie_throttled : (s.setDie d e).throttled = s.throttled := rfl
@[simp] theorem setDie_stopped : (s.setDie d e).stopped = s.stopped := rfl
@[simp] theorem setDie_digest : (s.setDie d e).digest = s.digest := rfl
@[simp] theorem setDie_update : (s.setDie d e).update = s.update := rfl
@[simp] theorem setDie_report : (s.setDie d e).report = s.report := rfl
@[simp] theorem setDie_output : (s.setDie d e).output = s.output := rfl
@[simp] theorem setDie_phase : (s.setDie d e).phase = s.phase := rfl
@[simp] theorem setDie_fmtDue : (s.setDie d e).fmtDue = s.fmtDue := rfl
@[simp] theorem setDie_cellDue : (s.setDie d e).cellDue = s.cellDue := rfl
@[simp] theorem setDie_readimg : (s.setDie d e).readimg = s.readimg := rfl
@[simp] theorem setDie_served : (s.setDie d e).served = s.served := rfl
@[simp] theorem setDie_killDue : (s.setDie d e).killDue = s.killDue := rfl

@[simp] theorem stall_sched : (s.stall w).sched = s.sched := rfl
@[simp] theorem stall_cur : (s.stall w).cur = s.cur := rfl
@[simp] theorem stall_curTable : (s.stall w).curTable = s.curTable := rfl
@[simp] theorem stall_now : (s.stall w).now = s.now := rfl
@[simp] theorem stall_freeCtr : (s.stall w).freeCtr = s.freeCtr := rfl
@[simp] theorem stall_choice : (s.stall w).choice = s.choice := rfl
@[simp] theorem stall_dies : (s.stall w).dies = s.dies := rfl
@[simp] theorem stall_mem : (s.stall w).mem = s.mem := rfl
@[simp] theorem stall_keys : (s.stall w).keys = s.keys := rfl
@[simp] theorem stall_hist : (s.stall w).hist = s.hist := rfl
@[simp] theorem stall_failed : (s.stall w).failed = s.failed := rfl
@[simp] theorem stall_poison : (s.stall w).poison = s.poison := rfl
@[simp] theorem stall_owned : (s.stall w).owned = s.owned := rfl
@[simp] theorem stall_shfmt : (s.stall w).shfmt = s.shfmt := rfl
@[simp] theorem stall_banks : (s.stall w).banks = s.banks := rfl
@[simp] theorem stall_cells : (s.stall w).cells = s.cells := rfl
@[simp] theorem stall_cellOwner : (s.stall w).cellOwner = s.cellOwner := rfl
@[simp] theorem stall_tagOwner : (s.stall w).tagOwner = s.tagOwner := rfl
@[simp] theorem stall_arrivals : (s.stall w).arrivals = s.arrivals := rfl
@[simp] theorem stall_compl : (s.stall w).compl = s.compl := rfl
@[simp] theorem stall_red : (s.stall w).red = s.red := rfl
@[simp] theorem stall_redTurn : (s.stall w).redTurn = s.redTurn := rfl
@[simp] theorem stall_ats : (s.stall w).ats = s.ats := rfl
@[simp] theorem stall_atsReq : (s.stall w).atsReq = s.atsReq := rfl
@[simp] theorem stall_pri : (s.stall w).pri = s.pri := rfl
@[simp] theorem stall_priFail : (s.stall w).priFail = s.priFail := rfl
@[simp] theorem stall_troot : (s.stall w).troot = s.troot := rfl
@[simp] theorem stall_rsvg : (s.stall w).rsvg = s.rsvg := rfl
@[simp] theorem stall_secmap : (s.stall w).secmap = s.secmap := rfl
@[simp] theorem stall_resetDue : (s.stall w).resetDue = s.resetDue := rfl
@[simp] theorem stall_floats : (s.stall w).floats = s.floats := rfl
@[simp] theorem stall_nextId : (s.stall w).nextId = s.nextId := rfl
@[simp] theorem stall_dieFlows : (s.stall w).dieFlows = s.dieFlows := rfl
@[simp] theorem stall_links : (s.stall w).links = s.links := rfl
@[simp] theorem stall_fabid : (s.stall w).fabid = s.fabid := rfl
@[simp] theorem stall_wins : (s.stall w).wins = s.wins := rfl
@[simp] theorem stall_recv : (s.stall w).recv = s.recv := rfl
@[simp] theorem stall_rings : (s.stall w).rings = s.rings := rfl
@[simp] theorem stall_ctxs : (s.stall w).ctxs = s.ctxs := rfl
@[simp] theorem stall_carg0 : (s.stall w).carg0 = s.carg0 := rfl
@[simp] theorem stall_carg1 : (s.stall w).carg1 = s.carg1 := rfl
@[simp] theorem stall_cres : (s.stall w).cres = s.cres := rfl
@[simp] theorem stall_ccmd : (s.stall w).ccmd = s.ccmd := rfl
@[simp] theorem stall_cwait : (s.stall w).cwait = s.cwait := rfl
@[simp] theorem stall_queues : (s.stall w).queues = s.queues := rfl
@[simp] theorem stall_packets : (s.stall w).packets = s.packets := rfl
@[simp] theorem stall_lastSlot : (s.stall w).lastSlot = s.lastSlot := rfl
@[simp] theorem stall_runList : (s.stall w).runList = s.runList := rfl
@[simp] theorem stall_turn : (s.stall w).turn = s.turn := rfl
@[simp] theorem stall_kernels : (s.stall w).kernels = s.kernels := rfl
@[simp] theorem stall_groups : (s.stall w).groups = s.groups := rfl
@[simp] theorem stall_images : (s.stall w).images = s.images := rfl
@[simp] theorem stall_replays : (s.stall w).replays = s.replays := rfl
@[simp] theorem stall_msi : (s.stall w).msi = s.msi := rfl
@[simp] theorem stall_leaves : (s.stall w).leaves = s.leaves := rfl
@[simp] theorem stall_pageFloors : (s.stall w).pageFloors = s.pageFloors := rfl
@[simp] theorem stall_notices : (s.stall w).notices = s.notices := rfl
@[simp] theorem stall_master : (s.stall w).master = s.master := rfl
@[simp] theorem stall_management : (s.stall w).management = s.management := rfl
@[simp] theorem stall_basinFailed : (s.stall w).basinFailed = s.basinFailed := rfl
@[simp] theorem stall_pending : (s.stall w).pending = s.pending := rfl
@[simp] theorem stall_powered : (s.stall w).powered = s.powered := rfl
@[simp] theorem stall_stage : (s.stall w).stage = s.stage := rfl
@[simp] theorem stall_ready : (s.stall w).ready = s.ready := rfl
@[simp] theorem stall_power : (s.stall w).power = s.power := rfl
@[simp] theorem stall_throttled : (s.stall w).throttled = s.throttled := rfl
@[simp] theorem stall_stopped : (s.stall w).stopped = s.stopped := rfl
@[simp] theorem stall_digest : (s.stall w).digest = s.digest := rfl
@[simp] theorem stall_update : (s.stall w).update = s.update := rfl
@[simp] theorem stall_report : (s.stall w).report = s.report := rfl
@[simp] theorem stall_output : (s.stall w).output = s.output := rfl
@[simp] theorem stall_phase : (s.stall w).phase = s.phase := rfl
@[simp] theorem stall_fmtDue : (s.stall w).fmtDue = s.fmtDue := rfl
@[simp] theorem stall_cellDue : (s.stall w).cellDue = s.cellDue := rfl
@[simp] theorem stall_readimg : (s.stall w).readimg = s.readimg := rfl
@[simp] theorem stall_served : (s.stall w).served = s.served := rfl
@[simp] theorem stall_killDue : (s.stall w).killDue = s.killDue := rfl

/-! Reading back what was written. -/

@[simp] theorem core_setCore : (s.setCore c x).core c = x := by simp [State.core, State.setCore]
theorem core_setCore_other (h : d ≠ c) : (s.setCore c x).core d = s.core d := by
  simp [State.core, State.setCore, mget_mset_other _ _ _ _ _ h]
@[simp] theorem core_setStrand : (s.setStrand c t).core c = { s.core c with strand := t } := by
  simp [State.setStrand]
theorem core_setStrand_other (h : d ≠ c) : (s.setStrand c t).core d = s.core d := by
  simp [State.setStrand, core_setCore_other, h]
@[simp] theorem strand_setStrand : (s.setStrand c t).strand c = t := by simp [State.strand]
theorem strand_setStrand_other (h : d ≠ c) : (s.setStrand c t).strand d = s.strand d := by
  simp [State.strand, core_setStrand_other, h]
@[simp] theorem log_setStrand : (s.setStrand c t).log d = s.log d := by
  by_cases h : d = c
  · subst h; simp [State.log]
  · simp [State.log, core_setStrand_other, h]
@[simp] theorem me_setMe : (s.setMe t).me = t := by simp [State.me, State.setMe]
@[simp] theorem strand_setMe : (s.setMe t).strand s.cur = t := by simp [State.setMe]
theorem strand_setMe_other (h : d ≠ s.cur) : (s.setMe t).strand d = s.strand d := by
  simp [State.setMe, strand_setStrand_other, h]
@[simp] theorem log_setMe : (s.setMe t).log d = s.log d := by simp [State.setMe]
@[simp] theorem die_setStrand : (s.setStrand c t).die d = s.die d := rfl
@[simp] theorem die_setMe : (s.setMe t).die d = s.die d := rfl
@[simp] theorem die_setCore : (s.setCore c x).die d = s.die d := rfl
@[simp] theorem die_setLog : (s.setLog c l).die d = s.die d := rfl
@[simp] theorem die_setDie : (s.setDie d e).die d = e := by simp [State.die, State.setDie]
@[simp] theorem core_setDie : (s.setDie d e).core c = s.core c := rfl
@[simp] theorem strand_setDie : (s.setDie d e).strand c = s.strand c := rfl
@[simp] theorem log_setLog : (s.setLog c l).log c = l := by simp [State.log, State.setLog]
@[simp] theorem strand_setLog : (s.setLog c l).strand d = s.strand d := by
  by_cases h : d = c
  · subst h; simp [State.strand, State.setLog]
  · simp [State.strand, State.setLog, core_setCore_other, h]
@[simp] theorem setStrand_setStrand : (s.setStrand c t).setStrand c u = s.setStrand c u := by
  simp [State.setStrand, State.setCore, State.core]
@[simp] theorem setMe_setMe : (s.setMe t).setMe u = s.setMe u := by
  show (s.setStrand s.cur t).setStrand s.cur u = _
  simp [State.setMe]
/-- A strand in focus that is stalled: nothing of it changes but its state and what it waits for. -/
theorem me_stall : (s.stall w).me = { s.me with
    st := if s.me.st = .halting then .halting else .stalled, why := w,
    blocked := if !w.fullQueue then none else if s.me.why = w then some (s.me.blocked.getD s.now) else some s.now } := by
  simp [State.stall]
end state

section strand
variable (t : Strand) (r n : Nat) (x : Word) (f : FE) (p : Nat) (y : VReg) (k : PReg) (pc : Word)

@[simp] theorem setG_st : (t.setG r x).st = t.st := by unfold Strand.setG; split <;> rfl
@[simp] theorem setG_why : (t.setG r x).why = t.why := by unfold Strand.setG; split <;> rfl
@[simp] theorem setG_wait : (t.setG r x).wait = t.wait := by unfold Strand.setG; split <;> rfl
@[simp] theorem setG_pc : (t.setG r x).pc = t.pc := by unfold Strand.setG; split <;> rfl
@[simp] theorem setG_v : (t.setG r x).v = t.v := by unfold Strand.setG; split <;> rfl
@[simp] theorem setG_vfe : (t.setG r x).vfe = t.vfe := by unfold Strand.setG; split <;> rfl
@[simp] theorem setG_vbad : (t.setG r x).vbad = t.vbad := by unfold Strand.setG; split <;> rfl
@[simp] theorem setG_k : (t.setG r x).k = t.k := by unfold Strand.setG; split <;> rfl
@[simp] theorem setG_vq : (t.setG r x).vq = t.vq := by unfold Strand.setG; split <;> rfl
@[simp] theorem setG_vqweir : (t.setG r x).vqweir = t.vqweir := by unfold Strand.setG; split <;> rfl
@[simp] theorem setG_vcq : (t.setG r x).vcq = t.vcq := by unfold Strand.setG; split <;> rfl
@[simp] theorem setG_vweir : (t.setG r x).vweir = t.vweir := by unfold Strand.setG; split <;> rfl
@[simp] theorem setG_pend : (t.setG r x).pend = t.pend := by unfold Strand.setG; split <;> rfl
@[simp] theorem setG_fflags : (t.setG r x).fflags = t.fflags := by unfold Strand.setG; split <;> rfl
@[simp] theorem setG_frm : (t.setG r x).frm = t.frm := by unfold Strand.setG; split <;> rfl
@[simp] theorem setG_srstate : (t.setG r x).srstate = t.srstate := by unfold Strand.setG; split <;> rfl
@[simp] theorem setG_vrb : (t.setG r x).vrb = t.vrb := by unfold Strand.setG; split <;> rfl
@[simp] theorem setG_epc : (t.setG r x).epc = t.epc := by unfold Strand.setG; split <;> rfl
@[simp] theorem setG_found : (t.setG r x).found = t.found := by unfold Strand.setG; split <;> rfl
@[simp] theorem setG_cause : (t.setG r x).cause = t.cause := by unfold Strand.setG; split <;> rfl
@[simp] theorem setG_tval : (t.setG r x).tval = t.tval := by unfold Strand.setG; split <;> rfl
@[simp] theorem setG_tvec : (t.setG r x).tvec = t.tvec := by unfold Strand.setG; split <;> rfl
@[simp] theorem setG_ss : (t.setG r x).ss = t.ss := by unfold Strand.setG; split <;> rfl
@[simp] theorem setG_th : (t.setG r x).th = t.th := by unfold Strand.setG; split <;> rfl
@[simp] theorem setG_pmode : (t.setG r x).pmode = t.pmode := by unfold Strand.setG; split <;> rfl
@[simp] theorem setG_mode : (t.setG r x).mode = t.mode := by unfold Strand.setG; split <;> rfl
@[simp] theorem setG_deferred : (t.setG r x).deferred = t.deferred := by unfold Strand.setG; split <;> rfl
@[simp] theorem setG_due : (t.setG r x).due = t.due := by unfold Strand.setG; split <;> rfl
@[simp] theorem setG_decided : (t.setG r x).decided = t.decided := by unfold Strand.setG; split <;> rfl
@[simp] theorem setG_wake : (t.setG r x).wake = t.wake := by unfold Strand.setG; split <;> rfl
@[simp] theorem setG_deadline : (t.setG r x).deadline = t.deadline := by unfold Strand.setG; split <;> rfl
@[simp] theorem setG_arr : (t.setG r x).arr = t.arr := by unfold Strand.setG; split <;> rfl
@[simp] theorem setG_frag : (t.setG r x).frag = t.frag := by unfold Strand.setG; split <;> rfl
@[simp] theorem setG_chan : (t.setG r x).chan = t.chan := by unfold Strand.setG; split <;> rfl
@[simp] theorem setG_group : (t.setG r x).group = t.group := by unfold Strand.setG; split <;> rfl
@[simp] theorem setG_rank : (t.setG r x).rank = t.rank := by unfold Strand.setG; split <;> rfl
@[simp] theorem setG_asid : (t.setG r x).asid = t.asid := by unfold Strand.setG; split <;> rfl
@[simp] theorem setG_acq : (t.setG r x).acq = t.acq := by unfold Strand.setG; split <;> rfl
@[simp] theorem setG_floors : (t.setG r x).floors = t.floors := by unfold Strand.setG; split <;> rfl
@[simp] theorem setG_homeFloor : (t.setG r x).homeFloor = t.homeFloor := by unfold Strand.setG; split <;> rfl
@[simp] theorem setG_hostFloor : (t.setG r x).hostFloor = t.hostFloor := by unfold Strand.setG; split <;> rfl
@[simp] theorem setG_winFloors : (t.setG r x).winFloors = t.winFloors := by unfold Strand.setG; split <;> rfl
@[simp] theorem setG_seen : (t.setG r x).seen = t.seen := by unfold Strand.setG; split <;> rfl
@[simp] theorem setG_placed : (t.setG r x).placed = t.placed := by unfold Strand.setG; split <;> rfl
@[simp] theorem setG_holds : (t.setG r x).holds = t.holds := by unfold Strand.setG; split <;> rfl
@[simp] theorem setG_seq : (t.setG r x).seq = t.seq := by unfold Strand.setG; split <;> rfl
@[simp] theorem setG_retired : (t.setG r x).retired = t.retired := by unfold Strand.setG; split <;> rfl
@[simp] theorem setG_blocked : (t.setG r x).blocked = t.blocked := by unfold Strand.setG; split <;> rfl
@[simp] theorem setG_ctlTick : (t.setG r x).ctlTick = t.ctlTick := by unfold Strand.setG; split <;> rfl
@[simp] theorem setG_ctlApp : (t.setG r x).ctlApp = t.ctlApp := by unfold Strand.setG; split <;> rfl
@[simp] theorem setG_writes : (t.setG r x).writes = t.writes := by unfold Strand.setG; split <;> rfl
@[simp] theorem setG_gexit : (t.setG r x).gexit = t.gexit := by unfold Strand.setG; split <;> rfl

@[simp] theorem markG_st : (t.markG r f).st = t.st := by unfold Strand.markG; split <;> rfl
@[simp] theorem markG_why : (t.markG r f).why = t.why := by unfold Strand.markG; split <;> rfl
@[simp] theorem markG_wait : (t.markG r f).wait = t.wait := by unfold Strand.markG; split <;> rfl
@[simp] theorem markG_pc : (t.markG r f).pc = t.pc := by unfold Strand.markG; split <;> rfl
@[simp] theorem markG_g : (t.markG r f).g = t.g := by unfold Strand.markG; split <;> rfl
@[simp] theorem markG_v : (t.markG r f).v = t.v := by unfold Strand.markG; split <;> rfl
@[simp] theorem markG_vfe : (t.markG r f).vfe = t.vfe := by unfold Strand.markG; split <;> rfl
@[simp] theorem markG_vbad : (t.markG r f).vbad = t.vbad := by unfold Strand.markG; split <;> rfl
@[simp] theorem markG_k : (t.markG r f).k = t.k := by unfold Strand.markG; split <;> rfl
@[simp] theorem markG_vq : (t.markG r f).vq = t.vq := by unfold Strand.markG; split <;> rfl
@[simp] theorem markG_vqweir : (t.markG r f).vqweir = t.vqweir := by unfold Strand.markG; split <;> rfl
@[simp] theorem markG_vcq : (t.markG r f).vcq = t.vcq := by unfold Strand.markG; split <;> rfl
@[simp] theorem markG_vweir : (t.markG r f).vweir = t.vweir := by unfold Strand.markG; split <;> rfl
@[simp] theorem markG_pend : (t.markG r f).pend = t.pend := by unfold Strand.markG; split <;> rfl
@[simp] theorem markG_fflags : (t.markG r f).fflags = t.fflags := by unfold Strand.markG; split <;> rfl
@[simp] theorem markG_frm : (t.markG r f).frm = t.frm := by unfold Strand.markG; split <;> rfl
@[simp] theorem markG_srstate : (t.markG r f).srstate = t.srstate := by unfold Strand.markG; split <;> rfl
@[simp] theorem markG_vrb : (t.markG r f).vrb = t.vrb := by unfold Strand.markG; split <;> rfl
@[simp] theorem markG_epc : (t.markG r f).epc = t.epc := by unfold Strand.markG; split <;> rfl
@[simp] theorem markG_found : (t.markG r f).found = t.found := by unfold Strand.markG; split <;> rfl
@[simp] theorem markG_cause : (t.markG r f).cause = t.cause := by unfold Strand.markG; split <;> rfl
@[simp] theorem markG_tval : (t.markG r f).tval = t.tval := by unfold Strand.markG; split <;> rfl
@[simp] theorem markG_tvec : (t.markG r f).tvec = t.tvec := by unfold Strand.markG; split <;> rfl
@[simp] theorem markG_ss : (t.markG r f).ss = t.ss := by unfold Strand.markG; split <;> rfl
@[simp] theorem markG_th : (t.markG r f).th = t.th := by unfold Strand.markG; split <;> rfl
@[simp] theorem markG_pmode : (t.markG r f).pmode = t.pmode := by unfold Strand.markG; split <;> rfl
@[simp] theorem markG_mode : (t.markG r f).mode = t.mode := by unfold Strand.markG; split <;> rfl
@[simp] theorem markG_deferred : (t.markG r f).deferred = t.deferred := by unfold Strand.markG; split <;> rfl
@[simp] theorem markG_due : (t.markG r f).due = t.due := by unfold Strand.markG; split <;> rfl
@[simp] theorem markG_decided : (t.markG r f).decided = t.decided := by unfold Strand.markG; split <;> rfl
@[simp] theorem markG_wake : (t.markG r f).wake = t.wake := by unfold Strand.markG; split <;> rfl
@[simp] theorem markG_deadline : (t.markG r f).deadline = t.deadline := by unfold Strand.markG; split <;> rfl
@[simp] theorem markG_arr : (t.markG r f).arr = t.arr := by unfold Strand.markG; split <;> rfl
@[simp] theorem markG_frag : (t.markG r f).frag = t.frag := by unfold Strand.markG; split <;> rfl
@[simp] theorem markG_chan : (t.markG r f).chan = t.chan := by unfold Strand.markG; split <;> rfl
@[simp] theorem markG_group : (t.markG r f).group = t.group := by unfold Strand.markG; split <;> rfl
@[simp] theorem markG_rank : (t.markG r f).rank = t.rank := by unfold Strand.markG; split <;> rfl
@[simp] theorem markG_asid : (t.markG r f).asid = t.asid := by unfold Strand.markG; split <;> rfl
@[simp] theorem markG_acq : (t.markG r f).acq = t.acq := by unfold Strand.markG; split <;> rfl
@[simp] theorem markG_floors : (t.markG r f).floors = t.floors := by unfold Strand.markG; split <;> rfl
@[simp] theorem markG_homeFloor : (t.markG r f).homeFloor = t.homeFloor := by unfold Strand.markG; split <;> rfl
@[simp] theorem markG_hostFloor : (t.markG r f).hostFloor = t.hostFloor := by unfold Strand.markG; split <;> rfl
@[simp] theorem markG_winFloors : (t.markG r f).winFloors = t.winFloors := by unfold Strand.markG; split <;> rfl
@[simp] theorem markG_seen : (t.markG r f).seen = t.seen := by unfold Strand.markG; split <;> rfl
@[simp] theorem markG_placed : (t.markG r f).placed = t.placed := by unfold Strand.markG; split <;> rfl
@[simp] theorem markG_holds : (t.markG r f).holds = t.holds := by unfold Strand.markG; split <;> rfl
@[simp] theorem markG_seq : (t.markG r f).seq = t.seq := by unfold Strand.markG; split <;> rfl
@[simp] theorem markG_retired : (t.markG r f).retired = t.retired := by unfold Strand.markG; split <;> rfl
@[simp] theorem markG_blocked : (t.markG r f).blocked = t.blocked := by unfold Strand.markG; split <;> rfl
@[simp] theorem markG_ctlTick : (t.markG r f).ctlTick = t.ctlTick := by unfold Strand.markG; split <;> rfl
@[simp] theorem markG_ctlApp : (t.markG r f).ctlApp = t.ctlApp := by unfold Strand.markG; split <;> rfl
@[simp] theorem markG_writes : (t.markG r f).writes = t.writes := by unfold Strand.markG; split <;> rfl
@[simp] theorem markG_gexit : (t.markG r f).gexit = t.gexit := by unfold Strand.markG; split <;> rfl

@[simp] theorem setV_st : (t.setV p y).st = t.st := rfl
@[simp] theorem setV_why : (t.setV p y).why = t.why := rfl
@[simp] theorem setV_wait : (t.setV p y).wait = t.wait := rfl
@[simp] theorem setV_pc : (t.setV p y).pc = t.pc := rfl
@[simp] theorem setV_g : (t.setV p y).g = t.g := rfl
@[simp] theorem setV_gfe : (t.setV p y).gfe = t.gfe := rfl
@[simp] theorem setV_vbad : (t.setV p y).vbad = t.vbad := rfl
@[simp] theorem setV_k : (t.setV p y).k = t.k := rfl
@[simp] theorem setV_vq : (t.setV p y).vq = t.vq := rfl
@[simp] theorem setV_vqweir : (t.setV p y).vqweir = t.vqweir := rfl
@[simp] theorem setV_vcq : (t.setV p y).vcq = t.vcq := rfl
@[simp] theorem setV_vweir : (t.setV p y).vweir = t.vweir := rfl
@[simp] theorem setV_pend : (t.setV p y).pend = t.pend := rfl
@[simp] theorem setV_fflags : (t.setV p y).fflags = t.fflags := rfl
@[simp] theorem setV_frm : (t.setV p y).frm = t.frm := rfl
@[simp] theorem setV_srstate : (t.setV p y).srstate = t.srstate := rfl
@[simp] theorem setV_vrb : (t.setV p y).vrb = t.vrb := rfl
@[simp] theorem setV_epc : (t.setV p y).epc = t.epc := rfl
@[simp] theorem setV_found : (t.setV p y).found = t.found := rfl
@[simp] theorem setV_cause : (t.setV p y).cause = t.cause := rfl
@[simp] theorem setV_tval : (t.setV p y).tval = t.tval := rfl
@[simp] theorem setV_tvec : (t.setV p y).tvec = t.tvec := rfl
@[simp] theorem setV_ss : (t.setV p y).ss = t.ss := rfl
@[simp] theorem setV_th : (t.setV p y).th = t.th := rfl
@[simp] theorem setV_pmode : (t.setV p y).pmode = t.pmode := rfl
@[simp] theorem setV_mode : (t.setV p y).mode = t.mode := rfl
@[simp] theorem setV_deferred : (t.setV p y).deferred = t.deferred := rfl
@[simp] theorem setV_due : (t.setV p y).due = t.due := rfl
@[simp] theorem setV_decided : (t.setV p y).decided = t.decided := rfl
@[simp] theorem setV_wake : (t.setV p y).wake = t.wake := rfl
@[simp] theorem setV_deadline : (t.setV p y).deadline = t.deadline := rfl
@[simp] theorem setV_arr : (t.setV p y).arr = t.arr := rfl
@[simp] theorem setV_frag : (t.setV p y).frag = t.frag := rfl
@[simp] theorem setV_chan : (t.setV p y).chan = t.chan := rfl
@[simp] theorem setV_group : (t.setV p y).group = t.group := rfl
@[simp] theorem setV_rank : (t.setV p y).rank = t.rank := rfl
@[simp] theorem setV_asid : (t.setV p y).asid = t.asid := rfl
@[simp] theorem setV_acq : (t.setV p y).acq = t.acq := rfl
@[simp] theorem setV_floors : (t.setV p y).floors = t.floors := rfl
@[simp] theorem setV_homeFloor : (t.setV p y).homeFloor = t.homeFloor := rfl
@[simp] theorem setV_hostFloor : (t.setV p y).hostFloor = t.hostFloor := rfl
@[simp] theorem setV_winFloors : (t.setV p y).winFloors = t.winFloors := rfl
@[simp] theorem setV_seen : (t.setV p y).seen = t.seen := rfl
@[simp] theorem setV_placed : (t.setV p y).placed = t.placed := rfl
@[simp] theorem setV_holds : (t.setV p y).holds = t.holds := rfl
@[simp] theorem setV_seq : (t.setV p y).seq = t.seq := rfl
@[simp] theorem setV_retired : (t.setV p y).retired = t.retired := rfl
@[simp] theorem setV_blocked : (t.setV p y).blocked = t.blocked := rfl
@[simp] theorem setV_ctlTick : (t.setV p y).ctlTick = t.ctlTick := rfl
@[simp] theorem setV_ctlApp : (t.setV p y).ctlApp = t.ctlApp := rfl
@[simp] theorem setV_writes : (t.setV p y).writes = t.writes := rfl
@[simp] theorem setV_gexit : (t.setV p y).gexit = t.gexit := rfl

@[simp] theorem markV_st : (t.markV p f).st = t.st := rfl
@[simp] theorem markV_why : (t.markV p f).why = t.why := rfl
@[simp] theorem markV_wait : (t.markV p f).wait = t.wait := rfl
@[simp] theorem markV_pc : (t.markV p f).pc = t.pc := rfl
@[simp] theorem markV_g : (t.markV p f).g = t.g := rfl
@[simp] theorem markV_gfe : (t.markV p f).gfe = t.gfe := rfl
@[simp] theorem markV_v : (t.markV p f).v = t.v := rfl
@[simp] theorem markV_vbad : (t.markV p f).vbad = t.vbad := rfl
@[simp] theorem markV_k : (t.markV p f).k = t.k := rfl
@[simp] theorem markV_vq : (t.markV p f).vq = t.vq := rfl
@[simp] theorem markV_vqweir : (t.markV p f).vqweir = t.vqweir := rfl
@[simp] theorem markV_vcq : (t.markV p f).vcq = t.vcq := rfl
@[simp] theorem markV_vweir : (t.markV p f).vweir = t.vweir := rfl
@[simp] theorem markV_pend : (t.markV p f).pend = t.pend := rfl
@[simp] theorem markV_fflags : (t.markV p f).fflags = t.fflags := rfl
@[simp] theorem markV_frm : (t.markV p f).frm = t.frm := rfl
@[simp] theorem markV_srstate : (t.markV p f).srstate = t.srstate := rfl
@[simp] theorem markV_vrb : (t.markV p f).vrb = t.vrb := rfl
@[simp] theorem markV_epc : (t.markV p f).epc = t.epc := rfl
@[simp] theorem markV_found : (t.markV p f).found = t.found := rfl
@[simp] theorem markV_cause : (t.markV p f).cause = t.cause := rfl
@[simp] theorem markV_tval : (t.markV p f).tval = t.tval := rfl
@[simp] theorem markV_tvec : (t.markV p f).tvec = t.tvec := rfl
@[simp] theorem markV_ss : (t.markV p f).ss = t.ss := rfl
@[simp] theorem markV_th : (t.markV p f).th = t.th := rfl
@[simp] theorem markV_pmode : (t.markV p f).pmode = t.pmode := rfl
@[simp] theorem markV_mode : (t.markV p f).mode = t.mode := rfl
@[simp] theorem markV_deferred : (t.markV p f).deferred = t.deferred := rfl
@[simp] theorem markV_due : (t.markV p f).due = t.due := rfl
@[simp] theorem markV_decided : (t.markV p f).decided = t.decided := rfl
@[simp] theorem markV_wake : (t.markV p f).wake = t.wake := rfl
@[simp] theorem markV_deadline : (t.markV p f).deadline = t.deadline := rfl
@[simp] theorem markV_arr : (t.markV p f).arr = t.arr := rfl
@[simp] theorem markV_frag : (t.markV p f).frag = t.frag := rfl
@[simp] theorem markV_chan : (t.markV p f).chan = t.chan := rfl
@[simp] theorem markV_group : (t.markV p f).group = t.group := rfl
@[simp] theorem markV_rank : (t.markV p f).rank = t.rank := rfl
@[simp] theorem markV_asid : (t.markV p f).asid = t.asid := rfl
@[simp] theorem markV_acq : (t.markV p f).acq = t.acq := rfl
@[simp] theorem markV_floors : (t.markV p f).floors = t.floors := rfl
@[simp] theorem markV_homeFloor : (t.markV p f).homeFloor = t.homeFloor := rfl
@[simp] theorem markV_hostFloor : (t.markV p f).hostFloor = t.hostFloor := rfl
@[simp] theorem markV_winFloors : (t.markV p f).winFloors = t.winFloors := rfl
@[simp] theorem markV_seen : (t.markV p f).seen = t.seen := rfl
@[simp] theorem markV_placed : (t.markV p f).placed = t.placed := rfl
@[simp] theorem markV_holds : (t.markV p f).holds = t.holds := rfl
@[simp] theorem markV_seq : (t.markV p f).seq = t.seq := rfl
@[simp] theorem markV_retired : (t.markV p f).retired = t.retired := rfl
@[simp] theorem markV_blocked : (t.markV p f).blocked = t.blocked := rfl
@[simp] theorem markV_ctlTick : (t.markV p f).ctlTick = t.ctlTick := rfl
@[simp] theorem markV_ctlApp : (t.markV p f).ctlApp = t.ctlApp := rfl
@[simp] theorem markV_writes : (t.markV p f).writes = t.writes := rfl
@[simp] theorem markV_gexit : (t.markV p f).gexit = t.gexit := rfl

@[simp] theorem setK_st : (t.setK p k).st = t.st := by unfold Strand.setK; split <;> rfl
@[simp] theorem setK_why : (t.setK p k).why = t.why := by unfold Strand.setK; split <;> rfl
@[simp] theorem setK_wait : (t.setK p k).wait = t.wait := by unfold Strand.setK; split <;> rfl
@[simp] theorem setK_pc : (t.setK p k).pc = t.pc := by unfold Strand.setK; split <;> rfl
@[simp] theorem setK_g : (t.setK p k).g = t.g := by unfold Strand.setK; split <;> rfl
@[simp] theorem setK_gfe : (t.setK p k).gfe = t.gfe := by unfold Strand.setK; split <;> rfl
@[simp] theorem setK_v : (t.setK p k).v = t.v := by unfold Strand.setK; split <;> rfl
@[simp] theorem setK_vfe : (t.setK p k).vfe = t.vfe := by unfold Strand.setK; split <;> rfl
@[simp] theorem setK_vbad : (t.setK p k).vbad = t.vbad := by unfold Strand.setK; split <;> rfl
@[simp] theorem setK_vq : (t.setK p k).vq = t.vq := by unfold Strand.setK; split <;> rfl
@[simp] theorem setK_vqweir : (t.setK p k).vqweir = t.vqweir := by unfold Strand.setK; split <;> rfl
@[simp] theorem setK_vcq : (t.setK p k).vcq = t.vcq := by unfold Strand.setK; split <;> rfl
@[simp] theorem setK_vweir : (t.setK p k).vweir = t.vweir := by unfold Strand.setK; split <;> rfl
@[simp] theorem setK_pend : (t.setK p k).pend = t.pend := by unfold Strand.setK; split <;> rfl
@[simp] theorem setK_fflags : (t.setK p k).fflags = t.fflags := by unfold Strand.setK; split <;> rfl
@[simp] theorem setK_frm : (t.setK p k).frm = t.frm := by unfold Strand.setK; split <;> rfl
@[simp] theorem setK_srstate : (t.setK p k).srstate = t.srstate := by unfold Strand.setK; split <;> rfl
@[simp] theorem setK_vrb : (t.setK p k).vrb = t.vrb := by unfold Strand.setK; split <;> rfl
@[simp] theorem setK_epc : (t.setK p k).epc = t.epc := by unfold Strand.setK; split <;> rfl
@[simp] theorem setK_found : (t.setK p k).found = t.found := by unfold Strand.setK; split <;> rfl
@[simp] theorem setK_cause : (t.setK p k).cause = t.cause := by unfold Strand.setK; split <;> rfl
@[simp] theorem setK_tval : (t.setK p k).tval = t.tval := by unfold Strand.setK; split <;> rfl
@[simp] theorem setK_tvec : (t.setK p k).tvec = t.tvec := by unfold Strand.setK; split <;> rfl
@[simp] theorem setK_ss : (t.setK p k).ss = t.ss := by unfold Strand.setK; split <;> rfl
@[simp] theorem setK_th : (t.setK p k).th = t.th := by unfold Strand.setK; split <;> rfl
@[simp] theorem setK_pmode : (t.setK p k).pmode = t.pmode := by unfold Strand.setK; split <;> rfl
@[simp] theorem setK_mode : (t.setK p k).mode = t.mode := by unfold Strand.setK; split <;> rfl
@[simp] theorem setK_deferred : (t.setK p k).deferred = t.deferred := by unfold Strand.setK; split <;> rfl
@[simp] theorem setK_due : (t.setK p k).due = t.due := by unfold Strand.setK; split <;> rfl
@[simp] theorem setK_decided : (t.setK p k).decided = t.decided := by unfold Strand.setK; split <;> rfl
@[simp] theorem setK_wake : (t.setK p k).wake = t.wake := by unfold Strand.setK; split <;> rfl
@[simp] theorem setK_deadline : (t.setK p k).deadline = t.deadline := by unfold Strand.setK; split <;> rfl
@[simp] theorem setK_arr : (t.setK p k).arr = t.arr := by unfold Strand.setK; split <;> rfl
@[simp] theorem setK_frag : (t.setK p k).frag = t.frag := by unfold Strand.setK; split <;> rfl
@[simp] theorem setK_chan : (t.setK p k).chan = t.chan := by unfold Strand.setK; split <;> rfl
@[simp] theorem setK_group : (t.setK p k).group = t.group := by unfold Strand.setK; split <;> rfl
@[simp] theorem setK_rank : (t.setK p k).rank = t.rank := by unfold Strand.setK; split <;> rfl
@[simp] theorem setK_asid : (t.setK p k).asid = t.asid := by unfold Strand.setK; split <;> rfl
@[simp] theorem setK_acq : (t.setK p k).acq = t.acq := by unfold Strand.setK; split <;> rfl
@[simp] theorem setK_floors : (t.setK p k).floors = t.floors := by unfold Strand.setK; split <;> rfl
@[simp] theorem setK_homeFloor : (t.setK p k).homeFloor = t.homeFloor := by unfold Strand.setK; split <;> rfl
@[simp] theorem setK_hostFloor : (t.setK p k).hostFloor = t.hostFloor := by unfold Strand.setK; split <;> rfl
@[simp] theorem setK_winFloors : (t.setK p k).winFloors = t.winFloors := by unfold Strand.setK; split <;> rfl
@[simp] theorem setK_seen : (t.setK p k).seen = t.seen := by unfold Strand.setK; split <;> rfl
@[simp] theorem setK_placed : (t.setK p k).placed = t.placed := by unfold Strand.setK; split <;> rfl
@[simp] theorem setK_holds : (t.setK p k).holds = t.holds := by unfold Strand.setK; split <;> rfl
@[simp] theorem setK_seq : (t.setK p k).seq = t.seq := by unfold Strand.setK; split <;> rfl
@[simp] theorem setK_retired : (t.setK p k).retired = t.retired := by unfold Strand.setK; split <;> rfl
@[simp] theorem setK_blocked : (t.setK p k).blocked = t.blocked := by unfold Strand.setK; split <;> rfl
@[simp] theorem setK_ctlTick : (t.setK p k).ctlTick = t.ctlTick := by unfold Strand.setK; split <;> rfl
@[simp] theorem setK_ctlApp : (t.setK p k).ctlApp = t.ctlApp := by unfold Strand.setK; split <;> rfl
@[simp] theorem setK_writes : (t.setK p k).writes = t.writes := by unfold Strand.setK; split <;> rfl
@[simp] theorem setK_gexit : (t.setK p k).gexit = t.gexit := by unfold Strand.setK; split <;> rfl

@[simp] theorem finish_g : (t.finish pc).g = t.g := rfl
@[simp] theorem finish_gfe : (t.finish pc).gfe = t.gfe := rfl
@[simp] theorem finish_v : (t.finish pc).v = t.v := rfl
@[simp] theorem finish_vfe : (t.finish pc).vfe = t.vfe := rfl
@[simp] theorem finish_vbad : (t.finish pc).vbad = t.vbad := rfl
@[simp] theorem finish_k : (t.finish pc).k = t.k := rfl
@[simp] theorem finish_vq : (t.finish pc).vq = t.vq := rfl
@[simp] theorem finish_vqweir : (t.finish pc).vqweir = t.vqweir := rfl
@[simp] theorem finish_vcq : (t.finish pc).vcq = t.vcq := rfl
@[simp] theorem finish_vweir : (t.finish pc).vweir = t.vweir := rfl
@[simp] theorem finish_pend : (t.finish pc).pend = t.pend := rfl
@[simp] theorem finish_fflags : (t.finish pc).fflags = t.fflags := rfl
@[simp] theorem finish_frm : (t.finish pc).frm = t.frm := rfl
@[simp] theorem finish_srstate : (t.finish pc).srstate = t.srstate := rfl
@[simp] theorem finish_vrb : (t.finish pc).vrb = t.vrb := rfl
@[simp] theorem finish_epc : (t.finish pc).epc = t.epc := rfl
@[simp] theorem finish_found : (t.finish pc).found = t.found := rfl
@[simp] theorem finish_cause : (t.finish pc).cause = t.cause := rfl
@[simp] theorem finish_tval : (t.finish pc).tval = t.tval := rfl
@[simp] theorem finish_tvec : (t.finish pc).tvec = t.tvec := rfl
@[simp] theorem finish_ss : (t.finish pc).ss = t.ss := rfl
@[simp] theorem finish_th : (t.finish pc).th = t.th := rfl
@[simp] theorem finish_pmode : (t.finish pc).pmode = t.pmode := rfl
@[simp] theorem finish_mode : (t.finish pc).mode = t.mode := rfl
@[simp] theorem finish_deferred : (t.finish pc).deferred = t.deferred := rfl
@[simp] theorem finish_due : (t.finish pc).due = t.due := rfl
@[simp] theorem finish_decided : (t.finish pc).decided = t.decided := rfl
@[simp] theorem finish_wake : (t.finish pc).wake = t.wake := rfl
@[simp] theorem finish_deadline : (t.finish pc).deadline = t.deadline := rfl
@[simp] theorem finish_arr : (t.finish pc).arr = t.arr := rfl
@[simp] theorem finish_frag : (t.finish pc).frag = t.frag := rfl
@[simp] theorem finish_chan : (t.finish pc).chan = t.chan := rfl
@[simp] theorem finish_group : (t.finish pc).group = t.group := rfl
@[simp] theorem finish_rank : (t.finish pc).rank = t.rank := rfl
@[simp] theorem finish_asid : (t.finish pc).asid = t.asid := rfl
@[simp] theorem finish_acq : (t.finish pc).acq = t.acq := rfl
@[simp] theorem finish_floors : (t.finish pc).floors = t.floors := rfl
@[simp] theorem finish_homeFloor : (t.finish pc).homeFloor = t.homeFloor := rfl
@[simp] theorem finish_hostFloor : (t.finish pc).hostFloor = t.hostFloor := rfl
@[simp] theorem finish_winFloors : (t.finish pc).winFloors = t.winFloors := rfl
@[simp] theorem finish_seen : (t.finish pc).seen = t.seen := rfl
@[simp] theorem finish_placed : (t.finish pc).placed = t.placed := rfl
@[simp] theorem finish_holds : (t.finish pc).holds = t.holds := rfl
@[simp] theorem finish_ctlTick : (t.finish pc).ctlTick = t.ctlTick := rfl
@[simp] theorem finish_ctlApp : (t.finish pc).ctlApp = t.ctlApp := rfl
@[simp] theorem finish_writes : (t.finish pc).writes = t.writes := rfl
@[simp] theorem finish_gexit : (t.finish pc).gexit = t.gexit := rfl

@[simp] theorem finish_pc : (t.finish pc).pc = pc := rfl
@[simp] theorem finish_st : (t.finish pc).st = .running := rfl
@[simp] theorem finish_seq : (t.finish pc).seq = t.seq + 1 := rfl
@[simp] theorem finish_retired : (t.finish pc).retired = t.retired + 1 := rfl
@[simp] theorem finish_wait : (t.finish pc).wait = none := rfl

/-! Registers (R55, R63). -/

@[simp] theorem gval_zero : t.gval 0 = 0 := rfl
@[simp] theorem gst_zero : t.gst 0 = .full := rfl
theorem gval_setG : (t.setG r x).gval n = if n = r ∧ r ≠ 0 then x else t.gval n := by
  unfold Strand.gval Strand.setG
  by_cases h : r = 0
  · subst h; simp
  · by_cases hn : n = r
    · subst hn; simp [h]
    · simp only [if_neg h, hn, false_and, if_false, mget_mset_other _ _ _ _ _ hn]
theorem gst_setG : (t.setG r x).gst n = if n = r then .full else t.gst n := by
  unfold Strand.gst Strand.setG
  by_cases h : r = 0
  · subst h; split <;> simp_all
  · by_cases hn : n = r
    · subst hn; simp [h]
    · simp only [if_neg h, hn, if_false, mget_mdel_other _ _ _ _ hn]
theorem gst_markG : (t.markG r f).gst n = if n = r ∧ r ≠ 0 then f else t.gst n := by
  unfold Strand.gst Strand.markG
  by_cases h : r = 0
  · subst h; simp
  · by_cases hn : n = r
    · subst hn; simp [h]
    · simp only [if_neg h, hn, false_and, if_false, mget_mset_other _ _ _ _ _ hn]
@[simp] theorem gval_markG : (t.markG r f).gval n = t.gval n := by
  unfold Strand.gval; rw [markG_g]
@[simp] theorem gval_finish : (t.finish pc).gval n = t.gval n := rfl
@[simp] theorem gst_finish : (t.finish pc).gst n = t.gst n := rfl
theorem vval_setV : (t.setV p y).vval n = if n = p then y else t.vval n := by
  unfold Strand.vval Strand.setV; rw [mget_mset]
theorem vst_setV : (t.setV p y).vst n = if n = p then .full else t.vst n := by
  unfold Strand.vst Strand.setV; rw [mget_mdel]
theorem vst_markV : (t.markV p f).vst n = if n = p then f else t.vst n := by
  unfold Strand.vst Strand.markV; rw [mget_mset]
@[simp] theorem vval_markV : (t.markV p f).vval n = t.vval n := rfl
@[simp] theorem kval_zero : t.kval 0 = BitVec.allOnes 1024 := rfl
theorem kval_setK : (t.setK p k).kval n = if n = p ∧ p ≠ 0 then k else t.kval n := by
  unfold Strand.kval Strand.setK
  by_cases h : p = 0
  · subst h; simp
  · by_cases hn : n = p
    · subst hn; simp [h]
    · simp only [if_neg h, hn, false_and, if_false, mget_mset_other _ _ _ _ _ hn]
end strand

end Sys2Proof.Machine
end

