-- ==== Sys2Proof/Laws/Front.lean ====
section
/-! SUPPORT. What the writes of a front end's core leave: a page that its TLB maps to host memory takes every line of an
image (R440, R446, R549). -/

namespace Sys2Proof.Machine

set_option Elab.async false

/-- What pressing a record leaves of the core whose log it was in, and of the package. -/
structure State.Quiet (s t : State) (f : Nat) : Prop where
  dies : t.dies = s.dies
  ctxs : t.ctxs = s.ctxs
  tlb : (t.core f).tlb = (s.core f).tlb
  lclk : (t.core f).lclk = (s.core f).lclk
  recs : (t.log f).recs = (s.log f).recs

theorem State.Quiet.trans {s t u : State} {f : Nat} (h : s.Quiet t f) (k : t.Quiet u f) : s.Quiet u f :=
  ⟨k.dies.trans h.dies, k.ctxs.trans h.ctxs, k.tlb.trans h.tlb, k.lclk.trans h.lclk, k.recs.trans h.recs⟩

theorem mfind_mapEntry {α : Type} (g : Nat → α → α) (k : Nat) (m : SMap α) :
    mfind (m.map fun c => (c.1, g c.1 c.2)) k = (mfind m k).map (g k) := by
  induction m with
  | nil => rfl
  | cons e m ih =>
    simp only [List.map, mfind]
    split
    · rename_i h; subst h; rfl
    · exact ih

theorem raiseFloors_quiet (s : State) (f line : Nat) (r : Rec) : s.Quiet (s.raiseFloors f r line) f := by
  have h : (s.raiseFloors f r line).core f = { s.core f with
      log := { s.log f with past := (r.idx, line, s.now) :: (s.log f).past }
      strand := (s.core f).strand.pressed f f s.now r line } := by
    refine (congrArg (Option.getD · _) (mfind_mapEntry
      (fun c (x : Core) => { x with strand := x.strand.pressed c f s.now r line }) f _)).trans ?_
    simp only [State.setLog, State.setCore, State.core, mfind_mset_same]
    rfl
  exact ⟨rfl, rfl, by rw [h], by rw [h], by simp only [State.log, h]⟩

theorem pressPart_quiet (s : State) (f : Nat) (r : Rec) (p : Part) (h : r.poison = none) :
    s.Quiet (s.pressPart f r p) f := by
  simp only [State.pressPart, h, State.repair, State.putHome, State.noteHome, Option.isSome_none, Bool.false_eq_true, if_false]
  repeat' split
  all_goals exact ⟨rfl, rfl, rfl, rfl, rfl⟩

theorem pressParts_quiet (f : Nat) (r : Rec) (h : r.poison = none) (ps : List Part) (s : State) :
    s.Quiet (s.pressParts f r ps) f := by
  induction ps generalizing s with
  | nil => exact ⟨rfl, rfl, rfl, rfl, rfl⟩
  | cons p ps ih => exact ((raiseFloors_quiet s f p.line r).trans (pressPart_quiet _ f r p h)).trans (ih _)

theorem enterFlow_quiet (s : State) (f core path pa : Nat) (d : List (Byte × Bool)) (u : FlowUse) :
    s.Quiet (s.enterFlow core path pa d u) f := by
  unfold State.enterFlow
  repeat' split
  all_goals exact ⟨rfl, rfl, rfl, rfl, rfl⟩

/-- Writes that enter their flows change nothing else that a front end's core sees. -/
theorem enterWrites_quiet (f core path : Nat) (u : FlowUse) (l : List (Nat × List (Byte × Bool))) (s : State) :
    s.Quiet (s.enterWrites core path u l) f := by
  induction l generalizing s with
  | nil => exact ⟨rfl, rfl, rfl, rfl, rfl⟩
  | cons p l ih => exact (enterFlow_quiet s f core path p.1 p.2 u).trans (ih _)

theorem pressRec_clean (s : State) (f : Nat) (r : Rec) (h : r.poison = none) (k : r.badHeader = false)
    (one : (s.log f).recs = [r]) :
    let t := s.pressRec f r
    t.dies = s.dies ∧ t.ctxs = s.ctxs ∧ (t.core f).tlb = (s.core f).tlb ∧ (t.core f).lclk = (s.core f).lclk ∧
      (t.log f).recs = [] := by
  have q := (enterWrites_quiet f f 0 .write (r.parts.map Part.bytes) s).trans (pressParts_quiet f r h r.parts _)
  simp only [State.pressRec, State.reportHeader, k, Bool.false_eq_true, if_false]
  generalize (s.enterWrites f 0 .write (r.parts.map Part.bytes)).pressParts f r r.parts = t at q
  refine ⟨q.dies, q.ctxs, ?_, ?_, ?_⟩
  · simpa [State.setLog] using q.tlb
  · simpa [State.setLog] using q.lclk
  · have e : (t.core f).log.recs = [r] := q.recs.trans one
    simp [State.log, State.setLog, Log.remove, e]

/-- A publication well below the rebase threshold. -/
theorem publish_clean (s : State) (f : Nat) (h : (s.core f).lclk + 1 < 2 ^ 48 - 2 ^ 40) :
    s.publish f = s.setCore f { s.core f with
      lclk := (s.core f).lclk + 1
      log := { s.log f with
        pub := (s.log f).app, stamp := ⟨(s.core f).lclk + 1, f⟩, pubs := (s.log f).pubs + 1
        points := (s.log f).points ++ [⟨(s.log f).pubs + 1, (s.log f).app, ⟨(s.core f).lclk + 1, f⟩, s.now, []⟩] } } := by
  have m : min ((s.core f).lclk + 1) timeTop = (s.core f).lclk + 1 := by simp only [timeTop]; omega
  have g : decide (2 ^ 48 - 2 ^ 40 ≤ (s.core f).lclk + 1) = false := decide_eq_false (by omega)
  simp only [State.publish, State.setTime, m, g, Bool.and_false, Bool.false_eq_true, if_false, State.setLog, core_setCore,
    State.log]
  simp [State.setCore]

/-- A front end whose core translates through one leaf, with an empty log and a clock far below its threshold. -/
structure State.Sends (s : State) (f : Nat) (x : Leaf) (n : Nat) : Prop where
  front : s.front = f
  tlb : (s.core f).tlb = [x]
  recs : (s.log f).recs = []
  clock : (s.core f).lclk + n < 2 ^ 48 - 2 ^ 40

/-- A page of a context's, in host memory, that takes writes from address 0. -/
structure Leaf.TakesHost (x : Leaf) (a : Nat) : Prop where
  asid : x.asid = a
  va : x.va = 0
  tier : x.tier = 2
  world : x.sec = false
  w : x.w = true
  ats : x.ats = false
  size : x.size ≤ 2 ^ 56
  pa : x.pa + x.size < 2 ^ 60

theorem front_congr {s t : State} (h : t.dies = s.dies) : t.front = s.front := by
  have e : t.present = s.present := by funext d; simp only [State.present, State.die, h]
  simp only [State.front, e]

/-- A publication and its pressing empty a log of one clean record. -/
theorem flush_clean (s : State) (f n : Nat) (x : Leaf) (r : Rec) (front : s.front = f) (tlb : (s.core f).tlb = [x])
    (h : r.poison = none) (k : r.badHeader = false) (one : (s.log f).recs = [r]) (idx : r.idx < (s.log f).app)
    (clock : (s.core f).lclk + (n + 1) < 2 ^ 48 - 2 ^ 40) : (s.flushLog f).Sends f x n := by
  have p := publish_clean s f (by omega)
  have c := pressRec_clean (s.publish f) f r h k (by simp [p, State.log, ← one])
  have e : s.flushLog f = (s.publish f).pressRec f r := by
    have u : (((s.publish f).log f).recs.filter fun r => decide (r.idx < ((s.publish f).log f).pub)) = [r] := by
      simp only [p, State.log, core_setCore]
      simp only [State.log] at one idx
      simp [one, idx]
    simp only [State.flushLog, State.pressPublished, u, List.foldl]
  rw [e]
  obtain ⟨d, _, t, l, r0⟩ := c
  refine ⟨?_, ?_, r0, ?_⟩
  · exact (front_congr (d.trans (by rw [p, setCore_dies]))).trans front
  · rw [t, p, core_setCore]; exact tlb
  · rw [l, p, core_setCore]; simp only; omega

/-- An append of a small record to an empty log. -/
theorem append_light (s : State) (f units : Nat) (parts : List Part) (h : (s.log f).recs = [])
    (k : units < Config.logPressure) :
    s.append f units parts = s.setLog f { s.log f with
      recs := [⟨(s.log f).app, units, parts, ⟨(s.core f).lclk, f⟩, (s.strand f).asid, (s.strand f).group, none, false⟩]
      app := (s.log f).app + 1 } := by
  simp only [State.log] at h
  have n : ¬ Config.logPressure ≤ units := by omega
  simp [State.append, State.log, State.setLog, State.strand, Log.occ, h, n]

/-- A front end's write of a line to such a page is taken, and its record sent. -/
theorem frontWriteLine_clean (s : State) (f a n va : Nat) (x : Leaf) (bs : List Byte) (h : s.Sends f x (n + 1))
    (hx : x.TakesHost a) (hv : va < x.size) :
    ∃ w, s.frontWriteLine a va bs = .ok w [] ∧ (w.flushLog w.front).Sends f x n := by
  have find (b : Nat) (hb : b < x.size) : tlbFind (s.core f).tlb x.asid b = some x := by
    simp [h.tlb, tlbFind, hx.va, hb]
  have look : s.look f a va = .leaf x := by
    have e := find va hv
    rw [hx.asid] at e
    simp only [State.look, e]
  have z := hx.size
  have y := hx.pa
  have low : ¬ 2 ^ 56 ≤ va := by omega
  have touch : s.frontTouch a va = s := by
    have e := find x.va (by rw [hx.va]; omega)
    rw [State.frontTouch, if_neg low]
    simp [h.front, look, State.cacheLeaf, e, hx.ats]
  have place : s.frontPlace a va bs.length .write = .at (hostBase + (x.pa + va)) := by
    have p : s.leafPlace x va bs.length .write (s.ctx a).secure = .at (hostBase + (x.pa + va)) := by
      simp [State.leafPlace, hx.tier, permitted, hx.world, hx.w, hx.ats, hx.va]
    have b : isBarrier (hostBase + (x.pa + va)) = false := by
      show decide (2 ^ 64 ≤ 2 ^ 60 + (x.pa + va)) = false
      exact decide_eq_false (by omega)
    rw [State.frontPlace, if_neg low]
    simp [h.front, look, p, b]
  have bar : isBarrier (hostBase + (x.pa + va)) = false := by
    show decide (2 ^ 64 ≤ 2 ^ 60 + (x.pa + va)) = false
    exact decide_eq_false (by omega)
  have units (p : Part) : partUnits p ≤ 2 := by simp only [partUnits]; split <;> decide
  generalize hp : partOf (hostBase + (x.pa + va)) (allBytes bs) = p
  have whole : recordUnits [p] = partUnits p := rfl
  have fits : (s.log f).fits (partUnits p) = true := by
    have u := units p
    simp only [Log.fits, Log.occ, h.recs, List.map, List.sum_nil, Config.logUnits]; simp; omega
  have light (u : State) (e : (u.log f).recs = []) := append_light u f (partUnits p) [p] e (by
    have u := units p
    simp only [Config.logPressure]; omega)
  have write : s.frontWriteLine a va bs =
      .ok ((s.setLog f { s.log f with held := false }).append f (partUnits p) [p]) [] := by
    simp [State.frontWriteLine, State.frontWrite, touch, place, hp, h.front, fits, bar, whole]
  have e := light (s.setLog f { s.log f with held := false }) (by simpa [State.log, State.setLog] using h.recs)
  refine ⟨_, write, ?_⟩
  rw [e]
  have front (l m : Log) : ((s.setLog f l).setLog f m).front = f := (front_congr (s := s) rfl).trans h.front
  rw [front]
  refine flush_clean _ f n x _ (front _ _) ?_ ?_ ?_ (congrArg Log.recs (log_setLog ..)) ?_ ?_
  · simpa [State.setLog] using h.tlb
  · rfl
  · rfl
  · simp only [log_setLog]; exact Nat.lt_succ_self _
  · simpa [State.setLog] using h.clock

/-- A save image is copied whole to such a page (R440). -/
theorem writeImage_clean (a f dst core n l : Nat) (x : Leaf) (i : Image) (byte : Nat → Byte) (s : State)
    (h : s.Sends f x n) (hx : x.TakesHost a) (fits : dst + 64 * (l + n) ≤ x.size) :
    ∃ w bs, s.writeImage a dst core i byte l n = .ok w bs := by
  induction n generalizing s l with
  | zero => exact ⟨_, _, rfl⟩
  | succ n ih =>
    obtain ⟨w, e, k⟩ := frontWriteLine_clean s f a n (dst + 64 * l) x
      ((List.range 64).map fun k => byte (64 * l + k)) h hx (by omega)
    simp only [State.writeImage, e]
    exact ih (l + 1) _ k (by omega)

end Sys2Proof.Machine
end

