-- ==== Sys2Proof/Laws/Ops.lean ====
section
/-! SUPPORT. What the shared operations of a strand can do: one lemma for each outcome. -/

namespace Sys2Proof.Machine

set_option Elab.async false

section reads
variable (s : State) (t : Strand) (a b c d : Reg) (p q r : Bool) (x : Word) (k0 : Result State)

/-- Reading a register that is Full succeeds under both policies (R63, R65). -/
theorem readG_full (h : t.gst a.toNat = .full) : t.readG a p = .ok := by simp only [Strand.readG, h]
theorem readG_pending (h : t.gst a.toNat = .pending) :
    t.readG a p = if p then .empty (emptyTval false a.toNat) else .wait (.reg false a.toNat) := by
  simp only [Strand.readG, h]
theorem readG_idle (h : t.gst a.toNat = .idle) : t.readG a p = .empty (emptyTval false a.toNat) := by
  simp only [Strand.readG, h]

theorem src1_full (k : Word → Result State) (h : s.me.gst a.toNat = .full) :
    s.src1 a p k = k (s.me.gval a.toNat) := by
  simp only [State.src1, State.gate, readG_full _ _ _ h, firstEmpty, firstWait]
theorem src2_full (k : Word → Word → Result State) (h : s.me.gst a.toNat = .full) (h' : s.me.gst b.toNat = .full) :
    s.src2 a p b q k = k (s.me.gval a.toNat) (s.me.gval b.toNat) := by
  simp only [State.src2, State.gate, readG_full _ _ _ h, readG_full _ _ _ h', firstEmpty, firstWait]
theorem src3_full (k : Word → Word → Word → Result State) (h : s.me.gst a.toNat = .full)
    (h' : s.me.gst b.toNat = .full) (h'' : s.me.gst c.toNat = .full) :
    s.src3 a p b q c r k = k (s.me.gval a.toNat) (s.me.gval b.toNat) (s.me.gval c.toNat) := by
  simp only [State.src3, State.gate, readG_full _ _ _ h, readG_full _ _ _ h', readG_full _ _ _ h'', firstEmpty,
    firstWait]
/-- A block read of a Pending register stalls the strand there (R65). -/
theorem src1_block (k : Word → Result State) (h : s.me.gst a.toNat = .pending) :
    s.src1 a false k = .next (s.stall (.reg false a.toNat)) := by
  rw [State.src1, State.gate, readG_pending _ _ _ h]; rfl
/-- A trap read of a Pending register, and every read of an Idle one, traps with EMPTY_READ (R65). -/
theorem src1_empty (k : Word → Result State) (h : s.me.gst a.toNat = .idle ∨ s.me.gst a.toNat = .pending ∧ p = true) :
    s.src1 a p k = s.trap cEMPTY_READ (emptyTval false a.toNat) := by
  rcases h with h | ⟨h, rfl⟩
  · rw [State.src1, State.gate, readG_idle _ _ _ h]; rfl
  · rw [State.src1, State.gate, readG_pending _ _ _ h]; rfl
/-- Everything that the reading of one source can come to. -/
theorem src1_cases (k : Word → Result State) :
    s.src1 a p k = k (s.me.gval a.toNat) ∨ s.src1 a p k = .next (s.stall (.reg false a.toNat)) ∨
      s.src1 a p k = s.trap cEMPTY_READ (emptyTval false a.toNat) := by
  cases h : s.me.gst a.toNat with
  | full => exact .inl (src1_full s a p k h)
  | idle => exact .inr (.inr (src1_empty s a p k (.inl h)))
  | pending =>
    cases p with
    | true => exact .inr (.inr (src1_empty s a true k (.inr ⟨h, rfl⟩)))
    | false => exact .inr (.inl (src1_block s a k h))
/-- Everything that the reading of some sources can come to. -/
theorem gate_cases (l : List Src1) :
    s.gate l k0 = k0 ∨ (∃ w, s.gate l k0 = .next (s.stall w)) ∨ ∃ tv, s.gate l k0 = s.trap cEMPTY_READ tv := by
  unfold State.gate
  split
  · exact .inr (.inr ⟨_, rfl⟩)
  · split
    · exact .inr (.inl ⟨_, rfl⟩)
    · exact .inl rfl

/-- A destination that is not Pending lets its instruction go on (R66). -/
theorem dest_ready (h : s.me.gst d.toNat ≠ .pending) : s.dest d k0 = k0 := if_neg h
theorem dest_pending (h : s.me.gst d.toNat = .pending) : s.dest d k0 = .next (s.stall (.reg false d.toNat)) := if_pos h
theorem write_ready (h : s.me.gst d.toNat ≠ .pending) :
    s.write d x = .next (s.setMe ((s.me.setG d.toNat x).finish (s.me.pc + 4))) := by
  rw [State.write, dest_ready _ _ _ h, State.endWith, setG_pc]
theorem produce_ready (src : Src) (h : s.me.gst d.toNat ≠ .pending) :
    s.produce d src = .next (s.setMe
      (({ s.me.markG d.toNat .pending with
          pend := s.me.pend ++ [⟨.g d.toNat, src, s.me.seq, [], none⟩] } : Strand).finish (s.me.pc + 4))) := by
  rw [State.produce, dest_ready _ _ _ h, State.endWith, markG_pc]
end reads

section traps
variable (s : State) (t : Strand) (c : Nat) (d : TrapDue) (e : Bool) (cause : Cause) (tval : Word)

/-- In user mode a trap leaves the strand Trapped with its registers set, and reports it to firmware (R122). -/
theorem takeTrap_user (h : (s.strand c).mode = false) :
    s.takeTrap c d e = (s.setStrand c { (s.strand c).record d e with st := .trapped, decided := false }).post
      (dieOf c) 2 (BitVec.ofNat 64 c) (causeWord d.handle d.step e d.code d.cause) := by
  have : ((s.strand c).record d e).mode = false := h
  simp only [State.takeTrap, this]; rfl
/-- In F mode a trap enters the handler on the same core (R124). -/
theorem takeTrap_firmware (h : (s.strand c).mode = true) (h' : (s.strand c).th = false) :
    s.takeTrap c d e = s.setStrand c ((s.strand c).record d e).enterHandler := by
  have m : ((s.strand c).record d e).mode = true := h
  have n : ((s.strand c).record d e).th = false := h'
  simp only [State.takeTrap, m, n]; rfl
/-- A trap inside a handler stops the core and asks for a warm reset (R124). -/
theorem takeTrap_handler (h : (s.strand c).mode = true) (h' : (s.strand c).th = true) :
    s.takeTrap c d e = (s.setStrand c { (s.strand c).record d e with st := .done }).wantReset := by
  have m : ((s.strand c).record d e).mode = true := h
  have n : ((s.strand c).record d e).th = true := h'
  simp only [State.takeTrap, m, n]; rfl
@[simp] theorem strand_answered (n : Nat) : (s.answered n).strand c = s.strand c := rfl
@[simp] theorem latch_due (w : Word) : (t.latch d w).due = some d := rfl
@[simp] theorem latch_deferred (w : Word) : (t.latch d w).deferred = t.deferred := rfl
@[simp] theorem latch_mode (w : Word) : (t.latch d w).mode = t.mode := rfl
@[simp] theorem latch_th (w : Word) : (t.latch d w).th = t.th := rfl
@[simp] theorem latch_tvec (w : Word) : (t.latch d w).tvec = t.tvec := rfl
@[simp] theorem latch_drained (w : Word) : (t.latch d w).drained = t.drained := rfl
@[simp] theorem latch_record (w : Word) : (t.latch d w).record d e = { t.record d e with found := w } := rfl
/-- A trap of a strand that nothing holds back, and that owes no deferred one, is taken at once (R117). -/
theorem raiseDue_drained (h : (s.strand c).drained = true) (h' : (s.strand c).deferred = []) :
    s.raiseDue c d = ((s.setStrand c ((s.strand c).latch d (s.ptime c))).answered c).takeTrap c d false := by
  rw [State.raiseDue]
  simp only [latch_drained, h, if_true]
  rw [State.takeDue]
  simp only [strand_answered, strand_setStrand, latch_deferred, h', latch_due]
@[simp] theorem latch_st (w : Word) : (t.latch d w).st = t.st := rfl
/-- Until then it is latched, and the strand is Stalled, or goes on Halting (R104, R117). -/
theorem raiseDue_waits (h : (s.strand c).drained = false) :
    s.raiseDue c d = (s.setStrand c { (s.strand c).latch d (s.ptime c) with
      st := if (s.strand c).st = .halting then .halting else .stalled, why := .drain }).answered c := by
  rw [State.raiseDue]
  simp only [latch_drained, h, Bool.false_eq_true, if_false]; rfl
end traps

end Sys2Proof.Machine
end

