-- ==== Sys2Proof/Laws/PerInstr.lean ====
section
/-! SUPPORT. The words of every instruction are read back as that instruction: one lemma per constructor. -/

set_option linter.unusedSimpArgs false
set_option linter.unusedVariables false

namespace Sys2Proof.Laws

set_option Elab.async false

/-- The words of an instruction name it again in each code space it belongs to. -/
def ReadBack.Statement (i : Instr) : Prop :=
  (i.isStrand = true → readStrand ((encode i).headD 0) ((encode i).getD 1 0) = some i) ∧
    (i.isMatrix = true → readMatrix ((encode i).headD 0) ((encode i).getD 1 0) = some i) ∧
    (i.isCopy = true → readCopy ((encode i).headD 0) = some i)

theorem ReadBack.add (o : OpA) : ReadBack.Statement (.add o) :=
  ⟨fun _ => by
    show readStrand (encA 0x01 o 0x000) _ = _
    rw [readStrand_01 (major_encA ..), readInteger]
    rw [fn_encA, fields_encA]; rfl, (nomatch ·), (nomatch ·)⟩
theorem ReadBack.addW (o : OpA) : ReadBack.Statement (.addW o) :=
  ⟨fun _ => by
    show readStrand (encA 0x01 o 0x100) _ = _
    rw [readStrand_01 (major_encA ..), readInteger]
    rw [fn_encA, fields_encA]; rfl, (nomatch ·), (nomatch ·)⟩
theorem ReadBack.sub (o : OpA) : ReadBack.Statement (.sub o) :=
  ⟨fun _ => by
    show readStrand (encA 0x01 o 0x001) _ = _
    rw [readStrand_01 (major_encA ..), readInteger]
    rw [fn_encA, fields_encA]; rfl, (nomatch ·), (nomatch ·)⟩
theorem ReadBack.subW (o : OpA) : ReadBack.Statement (.subW o) :=
  ⟨fun _ => by
    show readStrand (encA 0x01 o 0x101) _ = _
    rw [readStrand_01 (major_encA ..), readInteger]
    rw [fn_encA, fields_encA]; rfl, (nomatch ·), (nomatch ·)⟩
theorem ReadBack.and (o : OpA) : ReadBack.Statement (.and o) :=
  ⟨fun _ => by
    show readStrand (encA 0x01 o 0x002) _ = _
    rw [readStrand_01 (major_encA ..), readInteger]
    rw [fn_encA, fields_encA]; rfl, (nomatch ·), (nomatch ·)⟩
theorem ReadBack.andW (o : OpA) : ReadBack.Statement (.andW o) :=
  ⟨fun _ => by
    show readStrand (encA 0x01 o 0x102) _ = _
    rw [readStrand_01 (major_encA ..), readInteger]
    rw [fn_encA, fields_encA]; rfl, (nomatch ·), (nomatch ·)⟩
theorem ReadBack.or (o : OpA) : ReadBack.Statement (.or o) :=
  ⟨fun _ => by
    show readStrand (encA 0x01 o 0x003) _ = _
    rw [readStrand_01 (major_encA ..), readInteger]
    rw [fn_encA, fields_encA]; rfl, (nomatch ·), (nomatch ·)⟩
theorem ReadBack.orW (o : OpA) : ReadBack.Statement (.orW o) :=
  ⟨fun _ => by
    show readStrand (encA 0x01 o 0x103) _ = _
    rw [readStrand_01 (major_encA ..), readInteger]
    rw [fn_encA, fields_encA]; rfl, (nomatch ·), (nomatch ·)⟩
theorem ReadBack.xor (o : OpA) : ReadBack.Statement (.xor o) :=
  ⟨fun _ => by
    show readStrand (encA 0x01 o 0x004) _ = _
    rw [readStrand_01 (major_encA ..), readInteger]
    rw [fn_encA, fields_encA]; rfl, (nomatch ·), (nomatch ·)⟩
theorem ReadBack.xorW (o : OpA) : ReadBack.Statement (.xorW o) :=
  ⟨fun _ => by
    show readStrand (encA 0x01 o 0x104) _ = _
    rw [readStrand_01 (major_encA ..), readInteger]
    rw [fn_encA, fields_encA]; rfl, (nomatch ·), (nomatch ·)⟩
theorem ReadBack.andn (o : OpA) : ReadBack.Statement (.andn o) :=
  ⟨fun _ => by
    show readStrand (encA 0x01 o 0x005) _ = _
    rw [readStrand_01 (major_encA ..), readInteger]
    rw [fn_encA, fields_encA]; rfl, (nomatch ·), (nomatch ·)⟩
theorem ReadBack.andnW (o : OpA) : ReadBack.Statement (.andnW o) :=
  ⟨fun _ => by
    show readStrand (encA 0x01 o 0x105) _ = _
    rw [readStrand_01 (major_encA ..), readInteger]
    rw [fn_encA, fields_encA]; rfl, (nomatch ·), (nomatch ·)⟩
theorem ReadBack.shl (o : OpA) : ReadBack.Statement (.shl o) :=
  ⟨fun _ => by
    show readStrand (encA 0x01 o 0x006) _ = _
    rw [readStrand_01 (major_encA ..), readInteger]
    rw [fn_encA, fields_encA]; rfl, (nomatch ·), (nomatch ·)⟩
theorem ReadBack.shlW (o : OpA) : ReadBack.Statement (.shlW o) :=
  ⟨fun _ => by
    show readStrand (encA 0x01 o 0x106) _ = _
    rw [readStrand_01 (major_encA ..), readInteger]
    rw [fn_encA, fields_encA]; rfl, (nomatch ·), (nomatch ·)⟩
theorem ReadBack.shr (o : OpA) : ReadBack.Statement (.shr o) :=
  ⟨fun _ => by
    show readStrand (encA 0x01 o 0x007) _ = _
    rw [readStrand_01 (major_encA ..), readInteger]
    rw [fn_encA, fields_encA]; rfl, (nomatch ·), (nomatch ·)⟩
theorem ReadBack.shrW (o : OpA) : ReadBack.Statement (.shrW o) :=
  ⟨fun _ => by
    show readStrand (encA 0x01 o 0x107) _ = _
    rw [readStrand_01 (major_encA ..), readInteger]
    rw [fn_encA, fields_encA]; rfl, (nomatch ·), (nomatch ·)⟩
theorem ReadBack.sar (o : OpA) : ReadBack.Statement (.sar o) :=
  ⟨fun _ => by
    show readStrand (encA 0x01 o 0x008) _ = _
    rw [readStrand_01 (major_encA ..), readInteger]
    rw [fn_encA, fields_encA]; rfl, (nomatch ·), (nomatch ·)⟩
theorem ReadBack.sarW (o : OpA) : ReadBack.Statement (.sarW o) :=
  ⟨fun _ => by
    show readStrand (encA 0x01 o 0x108) _ = _
    rw [readStrand_01 (major_encA ..), readInteger]
    rw [fn_encA, fields_encA]; rfl, (nomatch ·), (nomatch ·)⟩
theorem ReadBack.rol (o : OpA) : ReadBack.Statement (.rol o) :=
  ⟨fun _ => by
    show readStrand (encA 0x01 o 0x009) _ = _
    rw [readStrand_01 (major_encA ..), readInteger]
    rw [fn_encA, fields_encA]; rfl, (nomatch ·), (nomatch ·)⟩
theorem ReadBack.rolW (o : OpA) : ReadBack.Statement (.rolW o) :=
  ⟨fun _ => by
    show readStrand (encA 0x01 o 0x109) _ = _
    rw [readStrand_01 (major_encA ..), readInteger]
    rw [fn_encA, fields_encA]; rfl, (nomatch ·), (nomatch ·)⟩
theorem ReadBack.ror (o : OpA) : ReadBack.Statement (.ror o) :=
  ⟨fun _ => by
    show readStrand (encA 0x01 o 0x00A) _ = _
    rw [readStrand_01 (major_encA ..), readInteger]
    rw [fn_encA, fields_encA]; rfl, (nomatch ·), (nomatch ·)⟩
theorem ReadBack.rorW (o : OpA) : ReadBack.Statement (.rorW o) :=
  ⟨fun _ => by
    show readStrand (encA 0x01 o 0x10A) _ = _
    rw [readStrand_01 (major_encA ..), readInteger]
    rw [fn_encA, fields_encA]; rfl, (nomatch ·), (nomatch ·)⟩
theorem ReadBack.min (o : OpA) : ReadBack.Statement (.min o) :=
  ⟨fun _ => by
    show readStrand (encA 0x01 o 0x00B) _ = _
    rw [readStrand_01 (major_encA ..), readInteger]
    rw [fn_encA, fields_encA]; rfl, (nomatch ·), (nomatch ·)⟩
theorem ReadBack.minW (o : OpA) : ReadBack.Statement (.minW o) :=
  ⟨fun _ => by
    show readStrand (encA 0x01 o 0x10B) _ = _
    rw [readStrand_01 (major_encA ..), readInteger]
    rw [fn_encA, fields_encA]; rfl, (nomatch ·), (nomatch ·)⟩
theorem ReadBack.max (o : OpA) : ReadBack.Statement (.max o) :=
  ⟨fun _ => by
    show readStrand (encA 0x01 o 0x00C) _ = _
    rw [readStrand_01 (major_encA ..), readInteger]
    rw [fn_encA, fields_encA]; rfl, (nomatch ·), (nomatch ·)⟩
theorem ReadBack.maxW (o : OpA) : ReadBack.Statement (.maxW o) :=
  ⟨fun _ => by
    show readStrand (encA 0x01 o 0x10C) _ = _
    rw [readStrand_01 (major_encA ..), readInteger]
    rw [fn_encA, fields_encA]; rfl, (nomatch ·), (nomatch ·)⟩
theorem ReadBack.minn (o : OpA) : ReadBack.Statement (.minn o) :=
  ⟨fun _ => by
    show readStrand (encA 0x01 o 0x00D) _ = _
    rw [readStrand_01 (major_encA ..), readInteger]
    rw [fn_encA, fields_encA]; rfl, (nomatch ·), (nomatch ·)⟩
theorem ReadBack.minnW (o : OpA) : ReadBack.Statement (.minnW o) :=
  ⟨fun _ => by
    show readStrand (encA 0x01 o 0x10D) _ = _
    rw [readStrand_01 (major_encA ..), readInteger]
    rw [fn_encA, fields_encA]; rfl, (nomatch ·), (nomatch ·)⟩
theorem ReadBack.maxn (o : OpA) : ReadBack.Statement (.maxn o) :=
  ⟨fun _ => by
    show readStrand (encA 0x01 o 0x00E) _ = _
    rw [readStrand_01 (major_encA ..), readInteger]
    rw [fn_encA, fields_encA]; rfl, (nomatch ·), (nomatch ·)⟩
theorem ReadBack.maxnW (o : OpA) : ReadBack.Statement (.maxnW o) :=
  ⟨fun _ => by
    show readStrand (encA 0x01 o 0x10E) _ = _
    rw [readStrand_01 (major_encA ..), readInteger]
    rw [fn_encA, fields_encA]; rfl, (nomatch ·), (nomatch ·)⟩
theorem ReadBack.clz (o : OpA) : ReadBack.Statement (.clz o) :=
  ⟨fun _ => by
    show readStrand (encA 0x01 o 0x00F) _ = _
    rw [readStrand_01 (major_encA ..), readInteger]
    rw [fn_encA, fields_encA]; rfl, (nomatch ·), (nomatch ·)⟩
theorem ReadBack.clzW (o : OpA) : ReadBack.Statement (.clzW o) :=
  ⟨fun _ => by
    show readStrand (encA 0x01 o 0x10F) _ = _
    rw [readStrand_01 (major_encA ..), readInteger]
    rw [fn_encA, fields_encA]; rfl, (nomatch ·), (nomatch ·)⟩
theorem ReadBack.ctz (o : OpA) : ReadBack.Statement (.ctz o) :=
  ⟨fun _ => by
    show readStrand (encA 0x01 o 0x010) _ = _
    rw [readStrand_01 (major_encA ..), readInteger]
    rw [fn_encA, fields_encA]; rfl, (nomatch ·), (nomatch ·)⟩
theorem ReadBack.ctzW (o : OpA) : ReadBack.Statement (.ctzW o) :=
  ⟨fun _ => by
    show readStrand (encA 0x01 o 0x110) _ = _
    rw [readStrand_01 (major_encA ..), readInteger]
    rw [fn_encA, fields_encA]; rfl, (nomatch ·), (nomatch ·)⟩
theorem ReadBack.popc (o : OpA) : ReadBack.Statement (.popc o) :=
  ⟨fun _ => by
    show readStrand (encA 0x01 o 0x011) _ = _
    rw [readStrand_01 (major_encA ..), readInteger]
    rw [fn_encA, fields_encA]; rfl, (nomatch ·), (nomatch ·)⟩
theorem ReadBack.popcW (o : OpA) : ReadBack.Statement (.popcW o) :=
  ⟨fun _ => by
    show readStrand (encA 0x01 o 0x111) _ = _
    rw [readStrand_01 (major_encA ..), readInteger]
    rw [fn_encA, fields_encA]; rfl, (nomatch ·), (nomatch ·)⟩
theorem ReadBack.bswap (o : OpA) : ReadBack.Statement (.bswap o) :=
  ⟨fun _ => by
    show readStrand (encA 0x01 o 0x012) _ = _
    rw [readStrand_01 (major_encA ..), readInteger]
    rw [fn_encA, fields_encA]; rfl, (nomatch ·), (nomatch ·)⟩
theorem ReadBack.bswapW (o : OpA) : ReadBack.Statement (.bswapW o) :=
  ⟨fun _ => by
    show readStrand (encA 0x01 o 0x112) _ = _
    rw [readStrand_01 (major_encA ..), readInteger]
    rw [fn_encA, fields_encA]; rfl, (nomatch ·), (nomatch ·)⟩
theorem ReadBack.addi (o : OpI) : ReadBack.Statement (.addi o) :=
  ⟨fun _ => by
    show readStrand (encI 0x02 o) _ = _
    rw [readStrand_02 (major_encI ..), fields_encI], (nomatch ·), (nomatch ·)⟩
theorem ReadBack.addiW (o : OpI) : ReadBack.Statement (.addiW o) :=
  ⟨fun _ => by
    show readStrand (encI 0x03 o) _ = _
    rw [readStrand_03 (major_encI ..), fields_encI], (nomatch ·), (nomatch ·)⟩
theorem ReadBack.andi (o : OpI13) : ReadBack.Statement (.andi o) :=
  ⟨fun _ => by
    show readStrand (encI13 0x04 0 o) _ = _
    rw [readStrand_04 (major_encI13 ..), readLogic]
    rw [sel_encI13, fields_encI13]; rfl, (nomatch ·), (nomatch ·)⟩
theorem ReadBack.ori (o : OpI13) : ReadBack.Statement (.ori o) :=
  ⟨fun _ => by
    show readStrand (encI13 0x04 1 o) _ = _
    rw [readStrand_04 (major_encI13 ..), readLogic]
    rw [sel_encI13, fields_encI13]; rfl, (nomatch ·), (nomatch ·)⟩
theorem ReadBack.xori (o : OpI13) : ReadBack.Statement (.xori o) :=
  ⟨fun _ => by
    show readStrand (encI13 0x04 2 o) _ = _
    rw [readStrand_04 (major_encI13 ..), readLogic]
    rw [sel_encI13, fields_encI13]; rfl, (nomatch ·), (nomatch ·)⟩
theorem ReadBack.andni (o : OpI13) : ReadBack.Statement (.andni o) :=
  ⟨fun _ => by
    show readStrand (encI13 0x04 3 o) _ = _
    rw [readStrand_04 (major_encI13 ..), readLogic]
    rw [sel_encI13, fields_encI13]; rfl, (nomatch ·), (nomatch ·)⟩
theorem ReadBack.shli (o : OpSh) : ReadBack.Statement (.shli o) :=
  ⟨fun _ => by
    show readStrand (encSh 0 false o) _ = _
    rw [readStrand_05 (major_encSh ..), readShift]
    rw [fields_encSh, sel_encSh]; rfl, (nomatch ·), (nomatch ·)⟩
theorem ReadBack.shliW (o : OpSh) : ReadBack.Statement (.shliW o) :=
  ⟨fun _ => by
    show readStrand (encSh 0 true o) _ = _
    rw [readStrand_05 (major_encSh ..), readShift]
    rw [fields_encSh, sel_encSh]; rfl, (nomatch ·), (nomatch ·)⟩
theorem ReadBack.shri (o : OpSh) : ReadBack.Statement (.shri o) :=
  ⟨fun _ => by
    show readStrand (encSh 1 false o) _ = _
    rw [readStrand_05 (major_encSh ..), readShift]
    rw [fields_encSh, sel_encSh]; rfl, (nomatch ·), (nomatch ·)⟩
theorem ReadBack.shriW (o : OpSh) : ReadBack.Statement (.shriW o) :=
  ⟨fun _ => by
    show readStrand (encSh 1 true o) _ = _
    rw [readStrand_05 (major_encSh ..), readShift]
    rw [fields_encSh, sel_encSh]; rfl, (nomatch ·), (nomatch ·)⟩
theorem ReadBack.sari (o : OpSh) : ReadBack.Statement (.sari o) :=
  ⟨fun _ => by
    show readStrand (encSh 2 false o) _ = _
    rw [readStrand_05 (major_encSh ..), readShift]
    rw [fields_encSh, sel_encSh]; rfl, (nomatch ·), (nomatch ·)⟩
theorem ReadBack.sariW (o : OpSh) : ReadBack.Statement (.sariW o) :=
  ⟨fun _ => by
    show readStrand (encSh 2 true o) _ = _
    rw [readStrand_05 (major_encSh ..), readShift]
    rw [fields_encSh, sel_encSh]; rfl, (nomatch ·), (nomatch ·)⟩
theorem ReadBack.roli (o : OpSh) : ReadBack.Statement (.roli o) :=
  ⟨fun _ => by
    show readStrand (encSh 3 false o) _ = _
    rw [readStrand_05 (major_encSh ..), readShift]
    rw [fields_encSh, sel_encSh]; rfl, (nomatch ·), (nomatch ·)⟩
theorem ReadBack.roliW (o : OpSh) : ReadBack.Statement (.roliW o) :=
  ⟨fun _ => by
    show readStrand (encSh 3 true o) _ = _
    rw [readStrand_05 (major_encSh ..), readShift]
    rw [fields_encSh, sel_encSh]; rfl, (nomatch ·), (nomatch ·)⟩
theorem ReadBack.rori (o : OpSh) : ReadBack.Statement (.rori o) :=
  ⟨fun _ => by
    show readStrand (encSh 4 false o) _ = _
    rw [readStrand_05 (major_encSh ..), readShift]
    rw [fields_encSh, sel_encSh]; rfl, (nomatch ·), (nomatch ·)⟩
theorem ReadBack.roriW (o : OpSh) : ReadBack.Statement (.roriW o) :=
  ⟨fun _ => by
    show readStrand (encSh 4 true o) _ = _
    rw [readStrand_05 (major_encSh ..), readShift]
    rw [fields_encSh, sel_encSh]; rfl, (nomatch ·), (nomatch ·)⟩
theorem ReadBack.slti (o : OpI13) : ReadBack.Statement (.slti o) :=
  ⟨fun _ => by
    show readStrand (encI13 0x06 0 o) _ = _
    rw [readStrand_06 (major_encI13 ..), readCompare]
    rw [sel_encI13, fields_encI13]; rfl, (nomatch ·), (nomatch ·)⟩
theorem ReadBack.sltni (o : OpI13) : ReadBack.Statement (.sltni o) :=
  ⟨fun _ => by
    show readStrand (encI13 0x06 1 o) _ = _
    rw [readStrand_06 (major_encI13 ..), readCompare]
    rw [sel_encI13, fields_encI13]; rfl, (nomatch ·), (nomatch ·)⟩
theorem ReadBack.seqi (o : OpI13) : ReadBack.Statement (.seqi o) :=
  ⟨fun _ => by
    show readStrand (encI13 0x06 2 o) _ = _
    rw [readStrand_06 (major_encI13 ..), readCompare]
    rw [sel_encI13, fields_encI13]; rfl, (nomatch ·), (nomatch ·)⟩
theorem ReadBack.snei (o : OpI13) : ReadBack.Statement (.snei o) :=
  ⟨fun _ => by
    show readStrand (encI13 0x06 3 o) _ = _
    rw [readStrand_06 (major_encI13 ..), readCompare]
    rw [sel_encI13, fields_encI13]; rfl, (nomatch ·), (nomatch ·)⟩
theorem ReadBack.mini (o : OpI13) : ReadBack.Statement (.mini o) :=
  ⟨fun _ => by
    show readStrand (encI13 0x07 0 o) _ = _
    rw [readStrand_07 (major_encI13 ..), readMinMax]
    rw [sel_encI13, fields_encI13]; rfl, (nomatch ·), (nomatch ·)⟩
theorem ReadBack.maxi (o : OpI13) : ReadBack.Statement (.maxi o) :=
  ⟨fun _ => by
    show readStrand (encI13 0x07 1 o) _ = _
    rw [readStrand_07 (major_encI13 ..), readMinMax]
    rw [sel_encI13, fields_encI13]; rfl, (nomatch ·), (nomatch ·)⟩
theorem ReadBack.minni (o : OpI13) : ReadBack.Statement (.minni o) :=
  ⟨fun _ => by
    show readStrand (encI13 0x07 2 o) _ = _
    rw [readStrand_07 (major_encI13 ..), readMinMax]
    rw [sel_encI13, fields_encI13]; rfl, (nomatch ·), (nomatch ·)⟩
theorem ReadBack.maxni (o : OpI13) : ReadBack.Statement (.maxni o) :=
  ⟨fun _ => by
    show readStrand (encI13 0x07 3 o) _ = _
    rw [readStrand_07 (major_encI13 ..), readMinMax]
    rw [sel_encI13, fields_encI13]; rfl, (nomatch ·), (nomatch ·)⟩
theorem ReadBack.lui (d : Reg) (imm : BitVec 21) : ReadBack.Statement (.lui d imm) :=
  ⟨fun _ => by
    show readStrand (0x08#6 ++ d ++ imm) _ = _
    rw [readStrand_08 (by simp (disch := decide) only [fMajor, fD, fA, fB, fBit, extract_high, extract_low, bit_high, bit_low, bit_zero, extract_whole, Nat.reduceSub, Nat.sub_zero, Nat.sub_self]; rfl)]
    simp (disch := decide) only [fMajor, fD, fA, fB, fBit, extract_high, extract_low, bit_high, bit_low, bit_zero, extract_whole, Nat.reduceSub, Nat.sub_zero, Nat.sub_self], (nomatch ·), (nomatch ·)⟩
theorem ReadBack.bfx (o : OpF) : ReadBack.Statement (.bfx o) :=
  ⟨fun _ => by
    show readStrand (encF 0 o) _ = _
    rw [readStrand_09 (major_encF ..), readBitField]
    rw [sel_encF, fields_encF]; rfl, (nomatch ·), (nomatch ·)⟩
theorem ReadBack.bfxn (o : OpF) : ReadBack.Statement (.bfxn o) :=
  ⟨fun _ => by
    show readStrand (encF 1 o) _ = _
    rw [readStrand_09 (major_encF ..), readBitField]
    rw [sel_encF, fields_encF]; rfl, (nomatch ·), (nomatch ·)⟩
theorem ReadBack.bfi (o : OpF) : ReadBack.Statement (.bfi o) :=
  ⟨fun _ => by
    show readStrand (encF 2 o) _ = _
    rw [readStrand_09 (major_encF ..), readBitField]
    rw [sel_encF, fields_encF]; rfl, (nomatch ·), (nomatch ·)⟩
theorem ReadBack.bfxReg (o : OpFR) : ReadBack.Statement (.bfxReg o) :=
  ⟨fun _ => by
    show readStrand (encFR 0 o) _ = _
    rw [readStrand_09 (major_encFR ..), readBitField]
    rw [sel_encFR, fields_encFR]
    simp (disch := decide) only [encFR, fMajor, fD, fA, fB, fBit, extract_high, extract_low, bit_high, bit_low, bit_zero, extract_whole, Nat.reduceSub, Nat.sub_zero, Nat.sub_self]; rfl, (nomatch ·), (nomatch ·)⟩
theorem ReadBack.bfxnReg (o : OpFR) : ReadBack.Statement (.bfxnReg o) :=
  ⟨fun _ => by
    show readStrand (encFR 1 o) _ = _
    rw [readStrand_09 (major_encFR ..), readBitField]
    rw [sel_encFR, fields_encFR]
    simp (disch := decide) only [encFR, fMajor, fD, fA, fB, fBit, extract_high, extract_low, bit_high, bit_low, bit_zero, extract_whole, Nat.reduceSub, Nat.sub_zero, Nat.sub_self]; rfl, (nomatch ·), (nomatch ·)⟩
theorem ReadBack.bfiReg (o : OpFR) : ReadBack.Statement (.bfiReg o) :=
  ⟨fun _ => by
    show readStrand (encFR 2 o) _ = _
    rw [readStrand_09 (major_encFR ..), readBitField]
    rw [sel_encFR, fields_encFR]
    simp (disch := decide) only [encFR, fMajor, fD, fA, fB, fBit, extract_high, extract_low, bit_high, bit_low, bit_zero, extract_whole, Nat.reduceSub, Nat.sub_zero, Nat.sub_self]; rfl, (nomatch ·), (nomatch ·)⟩
theorem ReadBack.mul (o : OpA) : ReadBack.Statement (.mul o) :=
  ⟨fun _ => by
    show readStrand (encA 0x0A o 0x000) _ = _
    rw [readStrand_0A (major_encA ..), readMulDiv]
    rw [fn_encA, fields_encA]; rfl, (nomatch ·), (nomatch ·)⟩
theorem ReadBack.mulW (o : OpA) : ReadBack.Statement (.mulW o) :=
  ⟨fun _ => by
    show readStrand (encA 0x0A o 0x100) _ = _
    rw [readStrand_0A (major_encA ..), readMulDiv]
    rw [fn_encA, fields_encA]; rfl, (nomatch ·), (nomatch ·)⟩
theorem ReadBack.mulh (o : OpA) : ReadBack.Statement (.mulh o) :=
  ⟨fun _ => by
    show readStrand (encA 0x0A o 0x001) _ = _
    rw [readStrand_0A (major_encA ..), readMulDiv]
    rw [fn_encA, fields_encA]; rfl, (nomatch ·), (nomatch ·)⟩
theorem ReadBack.mulhW (o : OpA) : ReadBack.Statement (.mulhW o) :=
  ⟨fun _ => by
    show readStrand (encA 0x0A o 0x101) _ = _
    rw [readStrand_0A (major_encA ..), readMulDiv]
    rw [fn_encA, fields_encA]; rfl, (nomatch ·), (nomatch ·)⟩
theorem ReadBack.mulhn (o : OpA) : ReadBack.Statement (.mulhn o) :=
  ⟨fun _ => by
    show readStrand (encA 0x0A o 0x002) _ = _
    rw [readStrand_0A (major_encA ..), readMulDiv]
    rw [fn_encA, fields_encA]; rfl, (nomatch ·), (nomatch ·)⟩
theorem ReadBack.mulhnW (o : OpA) : ReadBack.Statement (.mulhnW o) :=
  ⟨fun _ => by
    show readStrand (encA 0x0A o 0x102) _ = _
    rw [readStrand_0A (major_encA ..), readMulDiv]
    rw [fn_encA, fields_encA]; rfl, (nomatch ·), (nomatch ·)⟩
theorem ReadBack.div (o : OpA) : ReadBack.Statement (.div o) :=
  ⟨fun _ => by
    show readStrand (encA 0x0A o 0x003) _ = _
    rw [readStrand_0A (major_encA ..), readMulDiv]
    rw [fn_encA, fields_encA]; rfl, (nomatch ·), (nomatch ·)⟩
theorem ReadBack.divW (o : OpA) : ReadBack.Statement (.divW o) :=
  ⟨fun _ => by
    show readStrand (encA 0x0A o 0x103) _ = _
    rw [readStrand_0A (major_encA ..), readMulDiv]
    rw [fn_encA, fields_encA]; rfl, (nomatch ·), (nomatch ·)⟩
theorem ReadBack.divn (o : OpA) : ReadBack.Statement (.divn o) :=
  ⟨fun _ => by
    show readStrand (encA 0x0A o 0x004) _ = _
    rw [readStrand_0A (major_encA ..), readMulDiv]
    rw [fn_encA, fields_encA]; rfl, (nomatch ·), (nomatch ·)⟩
theorem ReadBack.divnW (o : OpA) : ReadBack.Statement (.divnW o) :=
  ⟨fun _ => by
    show readStrand (encA 0x0A o 0x104) _ = _
    rw [readStrand_0A (major_encA ..), readMulDiv]
    rw [fn_encA, fields_encA]; rfl, (nomatch ·), (nomatch ·)⟩
theorem ReadBack.rem (o : OpA) : ReadBack.Statement (.rem o) :=
  ⟨fun _ => by
    show readStrand (encA 0x0A o 0x005) _ = _
    rw [readStrand_0A (major_encA ..), readMulDiv]
    rw [fn_encA, fields_encA]; rfl, (nomatch ·), (nomatch ·)⟩
theorem ReadBack.remW (o : OpA) : ReadBack.Statement (.remW o) :=
  ⟨fun _ => by
    show readStrand (encA 0x0A o 0x105) _ = _
    rw [readStrand_0A (major_encA ..), readMulDiv]
    rw [fn_encA, fields_encA]; rfl, (nomatch ·), (nomatch ·)⟩
theorem ReadBack.remn (o : OpA) : ReadBack.Statement (.remn o) :=
  ⟨fun _ => by
    show readStrand (encA 0x0A o 0x006) _ = _
    rw [readStrand_0A (major_encA ..), readMulDiv]
    rw [fn_encA, fields_encA]; rfl, (nomatch ·), (nomatch ·)⟩
theorem ReadBack.remnW (o : OpA) : ReadBack.Statement (.remnW o) :=
  ⟨fun _ => by
    show readStrand (encA 0x0A o 0x106) _ = _
    rw [readStrand_0A (major_encA ..), readMulDiv]
    rw [fn_encA, fields_encA]; rfl, (nomatch ·), (nomatch ·)⟩
theorem ReadBack.lea (o : OpA) (v_s : BitVec 3) : ReadBack.Statement (.lea o v_s) :=
  ⟨fun _ => by
    show readStrand (encA 0x0B o (0#6 ++ v_s)) _ = _
    rw [readStrand_0B (major_encA ..), fields_encA]
    simp (disch := decide) only [encA, fMajor, fD, fA, fB, fBit, extract_high, extract_low, bit_high, bit_low, bit_zero, extract_whole, Nat.reduceSub, Nat.sub_zero, Nat.sub_self], (nomatch ·), (nomatch ·)⟩
theorem ReadBack.slt (o : OpA) : ReadBack.Statement (.slt o) :=
  ⟨fun _ => by
    show readStrand (encA 0x0C o 0x000) _ = _
    rw [readStrand_0C (major_encA ..), readCmpSel]
    rw [fn_encA, fields_encA]; rfl, (nomatch ·), (nomatch ·)⟩
theorem ReadBack.sltW (o : OpA) : ReadBack.Statement (.sltW o) :=
  ⟨fun _ => by
    show readStrand (encA 0x0C o 0x100) _ = _
    rw [readStrand_0C (major_encA ..), readCmpSel]
    rw [fn_encA, fields_encA]; rfl, (nomatch ·), (nomatch ·)⟩
theorem ReadBack.sltn (o : OpA) : ReadBack.Statement (.sltn o) :=
  ⟨fun _ => by
    show readStrand (encA 0x0C o 0x001) _ = _
    rw [readStrand_0C (major_encA ..), readCmpSel]
    rw [fn_encA, fields_encA]; rfl, (nomatch ·), (nomatch ·)⟩
theorem ReadBack.sltnW (o : OpA) : ReadBack.Statement (.sltnW o) :=
  ⟨fun _ => by
    show readStrand (encA 0x0C o 0x101) _ = _
    rw [readStrand_0C (major_encA ..), readCmpSel]
    rw [fn_encA, fields_encA]; rfl, (nomatch ·), (nomatch ·)⟩
theorem ReadBack.seq (o : OpA) : ReadBack.Statement (.seq o) :=
  ⟨fun _ => by
    show readStrand (encA 0x0C o 0x002) _ = _
    rw [readStrand_0C (major_encA ..), readCmpSel]
    rw [fn_encA, fields_encA]; rfl, (nomatch ·), (nomatch ·)⟩
theorem ReadBack.seqW (o : OpA) : ReadBack.Statement (.seqW o) :=
  ⟨fun _ => by
    show readStrand (encA 0x0C o 0x102) _ = _
    rw [readStrand_0C (major_encA ..), readCmpSel]
    rw [fn_encA, fields_encA]; rfl, (nomatch ·), (nomatch ·)⟩
theorem ReadBack.sne (o : OpA) : ReadBack.Statement (.sne o) :=
  ⟨fun _ => by
    show readStrand (encA 0x0C o 0x003) _ = _
    rw [readStrand_0C (major_encA ..), readCmpSel]
    rw [fn_encA, fields_encA]; rfl, (nomatch ·), (nomatch ·)⟩
theorem ReadBack.sneW (o : OpA) : ReadBack.Statement (.sneW o) :=
  ⟨fun _ => by
    show readStrand (encA 0x0C o 0x103) _ = _
    rw [readStrand_0C (major_encA ..), readCmpSel]
    rw [fn_encA, fields_encA]; rfl, (nomatch ·), (nomatch ·)⟩
theorem ReadBack.sel (o : OpA) : ReadBack.Statement (.sel o) :=
  ⟨fun _ => by
    show readStrand (encA 0x0C o 0x004) _ = _
    rw [readStrand_0C (major_encA ..), readCmpSel]
    rw [fn_encA, fields_encA]; rfl, (nomatch ·), (nomatch ·)⟩
theorem ReadBack.beq (o : OpB) : ReadBack.Statement (.beq o) :=
  ⟨fun _ => by
    show readStrand (encB 0x10 o) _ = _
    rw [readStrand_10 (major_encB ..), fields_encB], (nomatch ·), (nomatch ·)⟩
theorem ReadBack.bne (o : OpB) : ReadBack.Statement (.bne o) :=
  ⟨fun _ => by
    show readStrand (encB 0x11 o) _ = _
    rw [readStrand_11 (major_encB ..), fields_encB], (nomatch ·), (nomatch ·)⟩
theorem ReadBack.blt (o : OpB) : ReadBack.Statement (.blt o) :=
  ⟨fun _ => by
    show readStrand (encB 0x12 o) _ = _
    rw [readStrand_12 (major_encB ..), fields_encB], (nomatch ·), (nomatch ·)⟩
theorem ReadBack.bge (o : OpB) : ReadBack.Statement (.bge o) :=
  ⟨fun _ => by
    show readStrand (encB 0x13 o) _ = _
    rw [readStrand_13 (major_encB ..), fields_encB], (nomatch ·), (nomatch ·)⟩
theorem ReadBack.bltn (o : OpB) : ReadBack.Statement (.bltn o) :=
  ⟨fun _ => by
    show readStrand (encB 0x14 o) _ = _
    rw [readStrand_14 (major_encB ..), fields_encB], (nomatch ·), (nomatch ·)⟩
theorem ReadBack.bgen (o : OpB) : ReadBack.Statement (.bgen o) :=
  ⟨fun _ => by
    show readStrand (encB 0x15 o) _ = _
    rw [readStrand_15 (major_encB ..), fields_encB], (nomatch ·), (nomatch ·)⟩
theorem ReadBack.j (off : BitVec 26) : ReadBack.Statement (.j off) :=
  ⟨fun _ => by
    show readStrand (encJ 0x16 off) _ = _
    rw [readStrand_16 (major_encJ ..)]
    simp (disch := decide) only [encJ, fMajor, fD, fA, fB, fBit, extract_high, extract_low, bit_high, bit_low, bit_zero, extract_whole, Nat.reduceSub, Nat.sub_zero, Nat.sub_self], (nomatch ·), (nomatch ·)⟩
theorem ReadBack.jal (off : BitVec 26) : ReadBack.Statement (.jal off) :=
  ⟨fun _ => by
    show readStrand (encJ 0x17 off) _ = _
    rw [readStrand_17 (major_encJ ..)]
    simp (disch := decide) only [encJ, fMajor, fD, fA, fB, fBit, extract_high, extract_low, bit_high, bit_low, bit_zero, extract_whole, Nat.reduceSub, Nat.sub_zero, Nat.sub_self], (nomatch ·), (nomatch ·)⟩
theorem ReadBack.jr (o : OpA) : ReadBack.Statement (.jr o) :=
  ⟨fun _ => by
    show readStrand (encA 0x18 o 0x000) _ = _
    rw [readStrand_18 (major_encA ..), readJump]
    rw [fn_encA, fields_encA]; rfl, (nomatch ·), (nomatch ·)⟩
theorem ReadBack.jalr (o : OpA) : ReadBack.Statement (.jalr o) :=
  ⟨fun _ => by
    show readStrand (encA 0x18 o 0x001) _ = _
    rw [readStrand_18 (major_encA ..), readJump]
    rw [fn_encA, fields_encA]; rfl, (nomatch ·), (nomatch ·)⟩
theorem ReadBack.loop (o : OpB) : ReadBack.Statement (.loop o) :=
  ⟨fun _ => by
    show readStrand (encB 0x19 o) _ = _
    rw [readStrand_19 (major_encB ..), fields_encB], (nomatch ·), (nomatch ·)⟩
theorem ReadBack.ld (o : OpM) : ReadBack.Statement (.ld o) :=
  ⟨fun _ => by
    show readStrand (encM 0x1A o) _ = _
    rw [readStrand_1A (major_encM ..), fields_encM], (nomatch ·), (nomatch ·)⟩
theorem ReadBack.st (o : OpM) : ReadBack.Statement (.st o) :=
  ⟨fun _ => by
    show readStrand (encM 0x1B o) _ = _
    rw [readStrand_1B (major_encM ..), fields_encM], (nomatch ·), (nomatch ·)⟩
theorem ReadBack.atom (o : OpX) : ReadBack.Statement (.atom o) :=
  ⟨fun _ => by
    show readStrand (encX o) _ = _
    rw [readStrand_1C (major_encX ..), fields_encX], (nomatch ·), (nomatch ·)⟩
theorem ReadBack.femark (file : Bool) (o : OpA) : ReadBack.Statement (.femark file o) :=
  ⟨fun _ => by
    show readStrand (encA 0x1D o (bit file ++ 0#8)) _ = _
    rw [readStrand_1D (major_encA ..), readFullEmpty]
    rw [fields_encA]
    simp (disch := decide) only [encA, fMajor, fD, fA, fB, fBit, extract_high, extract_low, bit_high, bit_low, bit_zero, extract_whole, Nat.reduceSub, Nat.sub_zero, Nat.sub_self]; rfl, (nomatch ·), (nomatch ·)⟩
theorem ReadBack.fetest (file : Bool) (o : OpA) : ReadBack.Statement (.fetest file o) :=
  ⟨fun _ => by
    show readStrand (encA 0x1D o (bit file ++ 1#8)) _ = _
    rw [readStrand_1D (major_encA ..), readFullEmpty]
    rw [fields_encA]
    simp (disch := decide) only [encA, fMajor, fD, fA, fB, fBit, extract_high, extract_low, bit_high, bit_low, bit_zero, extract_whole, Nat.reduceSub, Nat.sub_zero, Nat.sub_self]; rfl, (nomatch ·), (nomatch ·)⟩
theorem ReadBack.fewait (file : Bool) (o : OpA) : ReadBack.Statement (.fewait file o) :=
  ⟨fun _ => by
    show readStrand (encA 0x1D o (bit file ++ 2#8)) _ = _
    rw [readStrand_1D (major_encA ..), readFullEmpty]
    rw [fields_encA]
    simp (disch := decide) only [encA, fMajor, fD, fA, fB, fBit, extract_high, extract_low, bit_high, bit_low, bit_zero, extract_whole, Nat.reduceSub, Nat.sub_zero, Nat.sub_self]; rfl, (nomatch ·), (nomatch ·)⟩
theorem ReadBack.vadd (o : OpV) : ReadBack.Statement (.vadd o) :=
  ⟨fun _ => (readStrand_20 (major_encV ..)).trans (readVector_encV _ _ _ .vadd rfl), (nomatch ·), (nomatch ·)⟩
theorem ReadBack.vsub (o : OpV) : ReadBack.Statement (.vsub o) :=
  ⟨fun _ => (readStrand_20 (major_encV ..)).trans (readVector_encV _ _ _ .vsub rfl), (nomatch ·), (nomatch ·)⟩
theorem ReadBack.vmul (o : OpV) : ReadBack.Statement (.vmul o) :=
  ⟨fun _ => (readStrand_20 (major_encV ..)).trans (readVector_encV _ _ _ .vmul rfl), (nomatch ·), (nomatch ·)⟩
theorem ReadBack.vmulh (o : OpV) : ReadBack.Statement (.vmulh o) :=
  ⟨fun _ => (readStrand_20 (major_encV ..)).trans (readVector_encV _ _ _ .vmulh rfl), (nomatch ·), (nomatch ·)⟩
theorem ReadBack.vimin (o : OpV) : ReadBack.Statement (.vimin o) :=
  ⟨fun _ => (readStrand_20 (major_encV ..)).trans (readVector_encV _ _ _ .vimin rfl), (nomatch ·), (nomatch ·)⟩
theorem ReadBack.vimax (o : OpV) : ReadBack.Statement (.vimax o) :=
  ⟨fun _ => (readStrand_20 (major_encV ..)).trans (readVector_encV _ _ _ .vimax rfl), (nomatch ·), (nomatch ·)⟩
theorem ReadBack.vand (o : OpV) : ReadBack.Statement (.vand o) :=
  ⟨fun _ => (readStrand_20 (major_encV ..)).trans (readVector_encV _ _ _ .vand rfl), (nomatch ·), (nomatch ·)⟩
theorem ReadBack.vor (o : OpV) : ReadBack.Statement (.vor o) :=
  ⟨fun _ => (readStrand_20 (major_encV ..)).trans (readVector_encV _ _ _ .vor rfl), (nomatch ·), (nomatch ·)⟩
theorem ReadBack.vxor (o : OpV) : ReadBack.Statement (.vxor o) :=
  ⟨fun _ => (readStrand_20 (major_encV ..)).trans (readVector_encV _ _ _ .vxor rfl), (nomatch ·), (nomatch ·)⟩
theorem ReadBack.vshl (o : OpV) : ReadBack.Statement (.vshl o) :=
  ⟨fun _ => (readStrand_20 (major_encV ..)).trans (readVector_encV _ _ _ .vshl rfl), (nomatch ·), (nomatch ·)⟩
theorem ReadBack.vshr (o : OpV) : ReadBack.Statement (.vshr o) :=
  ⟨fun _ => (readStrand_20 (major_encV ..)).trans (readVector_encV _ _ _ .vshr rfl), (nomatch ·), (nomatch ·)⟩
theorem ReadBack.vsar (o : OpV) : ReadBack.Statement (.vsar o) :=
  ⟨fun _ => (readStrand_20 (major_encV ..)).trans (readVector_encV _ _ _ .vsar rfl), (nomatch ·), (nomatch ·)⟩
theorem ReadBack.vabs (o : OpV) : ReadBack.Statement (.vabs o) :=
  ⟨fun _ => (readStrand_20 (major_encV ..)).trans (readVector_encV _ _ _ .vabs rfl), (nomatch ·), (nomatch ·)⟩
theorem ReadBack.vfadd (o : OpV) : ReadBack.Statement (.vfadd o) :=
  ⟨fun _ => (readStrand_21 (major_encV ..)).trans (readVector_encV _ _ _ .vfadd rfl), (nomatch ·), (nomatch ·)⟩
theorem ReadBack.vfsub (o : OpV) : ReadBack.Statement (.vfsub o) :=
  ⟨fun _ => (readStrand_21 (major_encV ..)).trans (readVector_encV _ _ _ .vfsub rfl), (nomatch ·), (nomatch ·)⟩
theorem ReadBack.vfmul (o : OpV) : ReadBack.Statement (.vfmul o) :=
  ⟨fun _ => (readStrand_21 (major_encV ..)).trans (readVector_encV _ _ _ .vfmul rfl), (nomatch ·), (nomatch ·)⟩
theorem ReadBack.vfma (o : OpV) : ReadBack.Statement (.vfma o) :=
  ⟨fun _ => (readStrand_21 (major_encV ..)).trans (readVector_encV _ _ _ .vfma rfl), (nomatch ·), (nomatch ·)⟩
theorem ReadBack.vfms (o : OpV) : ReadBack.Statement (.vfms o) :=
  ⟨fun _ => (readStrand_21 (major_encV ..)).trans (readVector_encV _ _ _ .vfms rfl), (nomatch ·), (nomatch ·)⟩
theorem ReadBack.vdiv (o : OpV) : ReadBack.Statement (.vdiv o) :=
  ⟨fun _ => (readStrand_21 (major_encV ..)).trans (readVector_encV _ _ _ .vdiv rfl), (nomatch ·), (nomatch ·)⟩
theorem ReadBack.vsqrt (o : OpV) : ReadBack.Statement (.vsqrt o) :=
  ⟨fun _ => (readStrand_21 (major_encV ..)).trans (readVector_encV _ _ _ .vsqrt rfl), (nomatch ·), (nomatch ·)⟩
theorem ReadBack.vmin (o : OpV) : ReadBack.Statement (.vmin o) :=
  ⟨fun _ => (readStrand_21 (major_encV ..)).trans (readVector_encV _ _ _ .vmin rfl), (nomatch ·), (nomatch ·)⟩
theorem ReadBack.vmax (o : OpV) : ReadBack.Statement (.vmax o) :=
  ⟨fun _ => (readStrand_21 (major_encV ..)).trans (readVector_encV _ _ _ .vmax rfl), (nomatch ·), (nomatch ·)⟩
theorem ReadBack.vminn (o : OpV) : ReadBack.Statement (.vminn o) :=
  ⟨fun _ => (readStrand_21 (major_encV ..)).trans (readVector_encV _ _ _ .vminn rfl), (nomatch ·), (nomatch ·)⟩
theorem ReadBack.vmaxn (o : OpV) : ReadBack.Statement (.vmaxn o) :=
  ⟨fun _ => (readStrand_21 (major_encV ..)).trans (readVector_encV _ _ _ .vmaxn rfl), (nomatch ·), (nomatch ·)⟩
theorem ReadBack.vfabs (o : OpV) : ReadBack.Statement (.vfabs o) :=
  ⟨fun _ => (readStrand_21 (major_encV ..)).trans (readVector_encV _ _ _ .vfabs rfl), (nomatch ·), (nomatch ·)⟩
theorem ReadBack.vfneg (o : OpV) : ReadBack.Statement (.vfneg o) :=
  ⟨fun _ => (readStrand_21 (major_encV ..)).trans (readVector_encV _ _ _ .vfneg rfl), (nomatch ·), (nomatch ·)⟩
theorem ReadBack.vcvt (o : OpV) : ReadBack.Statement (.vcvt o) :=
  ⟨fun _ => (readStrand_22 (major_encV ..)).trans (readVector_encV _ _ _ .vcvt rfl), (nomatch ·), (nomatch ·)⟩
theorem ReadBack.vcvtw (o : OpV) : ReadBack.Statement (.vcvtw o) :=
  ⟨fun _ => (readStrand_22 (major_encV ..)).trans (readVector_encV _ _ _ .vcvtw rfl), (nomatch ·), (nomatch ·)⟩
theorem ReadBack.vcvtn (o : OpV) : ReadBack.Statement (.vcvtn o) :=
  ⟨fun _ => (readStrand_22 (major_encV ..)).trans (readVector_encV _ _ _ .vcvtn rfl), (nomatch ·), (nomatch ·)⟩
theorem ReadBack.venc4 (o : OpV) : ReadBack.Statement (.venc4 o) :=
  ⟨fun _ => (readStrand_22 (major_encV ..)).trans (readVector_encV _ _ _ .venc4 rfl), (nomatch ·), (nomatch ·)⟩
theorem ReadBack.vdec4 (o : OpV) : ReadBack.Statement (.vdec4 o) :=
  ⟨fun _ => (readStrand_22 (major_encV ..)).trans (readVector_encV _ _ _ .vdec4 rfl), (nomatch ·), (nomatch ·)⟩
theorem ReadBack.vmov (o : OpV) : ReadBack.Statement (.vmov o) :=
  ⟨fun _ => (readStrand_22 (major_encV ..)).trans (readVector_encV _ _ _ .vmov rfl), (nomatch ·), (nomatch ·)⟩
theorem ReadBack.vsplat (o : OpV) : ReadBack.Statement (.vsplat o) :=
  ⟨fun _ => (readStrand_22 (major_encV ..)).trans (readVector_encV _ _ _ .vsplat rfl), (nomatch ·), (nomatch ·)⟩
theorem ReadBack.viota (o : OpV) : ReadBack.Statement (.viota o) :=
  ⟨fun _ => (readStrand_22 (major_encV ..)).trans (readVector_encV _ _ _ .viota rfl), (nomatch ·), (nomatch ·)⟩
theorem ReadBack.vget (o : OpV) : ReadBack.Statement (.vget o) :=
  ⟨fun _ => (readStrand_22 (major_encV ..)).trans (readVector_encV _ _ _ .vget rfl), (nomatch ·), (nomatch ·)⟩
theorem ReadBack.vset (o : OpV) : ReadBack.Statement (.vset o) :=
  ⟨fun _ => (readStrand_22 (major_encV ..)).trans (readVector_encV _ _ _ .vset rfl), (nomatch ·), (nomatch ·)⟩
theorem ReadBack.vperm (o : OpV) : ReadBack.Statement (.vperm o) :=
  ⟨fun _ => (readStrand_23 (major_encV ..)).trans (readVector_encV _ _ _ .vperm rfl), (nomatch ·), (nomatch ·)⟩
theorem ReadBack.vzip (o : OpV) : ReadBack.Statement (.vzip o) :=
  ⟨fun _ => (readStrand_23 (major_encV ..)).trans (readVector_encV _ _ _ .vzip rfl), (nomatch ·), (nomatch ·)⟩
theorem ReadBack.vunzip (o : OpV) : ReadBack.Statement (.vunzip o) :=
  ⟨fun _ => (readStrand_23 (major_encV ..)).trans (readVector_encV _ _ _ .vunzip rfl), (nomatch ·), (nomatch ·)⟩
theorem ReadBack.vrot (o : OpV) : ReadBack.Statement (.vrot o) :=
  ⟨fun _ => (readStrand_23 (major_encV ..)).trans (readVector_encV _ _ _ .vrot rfl), (nomatch ·), (nomatch ·)⟩
theorem ReadBack.vslideup (o : OpV) : ReadBack.Statement (.vslideup o) :=
  ⟨fun _ => (readStrand_23 (major_encV ..)).trans (readVector_encV _ _ _ .vslideup rfl), (nomatch ·), (nomatch ·)⟩
theorem ReadBack.vslidedn (o : OpV) : ReadBack.Statement (.vslidedn o) :=
  ⟨fun _ => (readStrand_23 (major_encV ..)).trans (readVector_encV _ _ _ .vslidedn rfl), (nomatch ·), (nomatch ·)⟩
theorem ReadBack.vcompress (o : OpV) : ReadBack.Statement (.vcompress o) :=
  ⟨fun _ => (readStrand_23 (major_encV ..)).trans (readVector_encV _ _ _ .vcompress rfl), (nomatch ·), (nomatch ·)⟩
theorem ReadBack.vexpand (o : OpV) : ReadBack.Statement (.vexpand o) :=
  ⟨fun _ => (readStrand_23 (major_encV ..)).trans (readVector_encV _ _ _ .vexpand rfl), (nomatch ·), (nomatch ·)⟩
theorem ReadBack.vrev (o : OpV) : ReadBack.Statement (.vrev o) :=
  ⟨fun _ => (readStrand_23 (major_encV ..)).trans (readVector_encV _ _ _ .vrev rfl), (nomatch ·), (nomatch ·)⟩
theorem ReadBack.vfcmp (o : OpV) : ReadBack.Statement (.vfcmp o) :=
  ⟨fun _ => (readStrand_24 (major_encV ..)).trans (readVector_encV _ _ _ .vfcmp rfl), (nomatch ·), (nomatch ·)⟩
theorem ReadBack.vicmp (o : OpV) : ReadBack.Statement (.vicmp o) :=
  ⟨fun _ => (readStrand_24 (major_encV ..)).trans (readVector_encV _ _ _ .vicmp rfl), (nomatch ·), (nomatch ·)⟩
theorem ReadBack.kand (o : OpV) : ReadBack.Statement (.kand o) :=
  ⟨fun _ => (readStrand_24 (major_encV ..)).trans (readVector_encV _ _ _ .kand rfl), (nomatch ·), (nomatch ·)⟩
theorem ReadBack.kor (o : OpV) : ReadBack.Statement (.kor o) :=
  ⟨fun _ => (readStrand_24 (major_encV ..)).trans (readVector_encV _ _ _ .kor rfl), (nomatch ·), (nomatch ·)⟩
theorem ReadBack.kxor (o : OpV) : ReadBack.Statement (.kxor o) :=
  ⟨fun _ => (readStrand_24 (major_encV ..)).trans (readVector_encV _ _ _ .kxor rfl), (nomatch ·), (nomatch ·)⟩
theorem ReadBack.kandn (o : OpV) : ReadBack.Statement (.kandn o) :=
  ⟨fun _ => (readStrand_24 (major_encV ..)).trans (readVector_encV _ _ _ .kandn rfl), (nomatch ·), (nomatch ·)⟩
theorem ReadBack.knot (o : OpV) : ReadBack.Statement (.knot o) :=
  ⟨fun _ => (readStrand_24 (major_encV ..)).trans (readVector_encV _ _ _ .knot rfl), (nomatch ·), (nomatch ·)⟩
theorem ReadBack.kpopc (o : OpV) : ReadBack.Statement (.kpopc o) :=
  ⟨fun _ => (readStrand_24 (major_encV ..)).trans (readVector_encV _ _ _ .kpopc rfl), (nomatch ·), (nomatch ·)⟩
theorem ReadBack.kfirst (o : OpV) : ReadBack.Statement (.kfirst o) :=
  ⟨fun _ => (readStrand_24 (major_encV ..)).trans (readVector_encV _ _ _ .kfirst rfl), (nomatch ·), (nomatch ·)⟩
theorem ReadBack.vexp2 (o : OpV) : ReadBack.Statement (.vexp2 o) :=
  ⟨fun _ => (readStrand_25 (major_encV ..)).trans (readVector_encV _ _ _ .vexp2 rfl), (nomatch ·), (nomatch ·)⟩
theorem ReadBack.vlog2 (o : OpV) : ReadBack.Statement (.vlog2 o) :=
  ⟨fun _ => (readStrand_25 (major_encV ..)).trans (readVector_encV _ _ _ .vlog2 rfl), (nomatch ·), (nomatch ·)⟩
theorem ReadBack.vrcp (o : OpV) : ReadBack.Statement (.vrcp o) :=
  ⟨fun _ => (readStrand_25 (major_encV ..)).trans (readVector_encV _ _ _ .vrcp rfl), (nomatch ·), (nomatch ·)⟩
theorem ReadBack.vrsqrt (o : OpV) : ReadBack.Statement (.vrsqrt o) :=
  ⟨fun _ => (readStrand_25 (major_encV ..)).trans (readVector_encV _ _ _ .vrsqrt rfl), (nomatch ·), (nomatch ·)⟩
theorem ReadBack.vtanh (o : OpV) : ReadBack.Statement (.vtanh o) :=
  ⟨fun _ => (readStrand_25 (major_encV ..)).trans (readVector_encV _ _ _ .vtanh rfl), (nomatch ·), (nomatch ·)⟩
theorem ReadBack.vsigm (o : OpV) : ReadBack.Statement (.vsigm o) :=
  ⟨fun _ => (readStrand_25 (major_encV ..)).trans (readVector_encV _ _ _ .vsigm rfl), (nomatch ·), (nomatch ·)⟩
theorem ReadBack.vsum (o : OpV) : ReadBack.Statement (.vsum o) :=
  ⟨fun _ => (readStrand_25 (major_encV ..)).trans (readVector_encV _ _ _ .vsum rfl), (nomatch ·), (nomatch ·)⟩
theorem ReadBack.vscan (o : OpV) : ReadBack.Statement (.vscan o) :=
  ⟨fun _ => (readStrand_25 (major_encV ..)).trans (readVector_encV _ _ _ .vscan rfl), (nomatch ·), (nomatch ·)⟩
theorem ReadBack.vrmax (o : OpV) : ReadBack.Statement (.vrmax o) :=
  ⟨fun _ => (readStrand_25 (major_encV ..)).trans (readVector_encV _ _ _ .vrmax rfl), (nomatch ·), (nomatch ·)⟩
theorem ReadBack.vrmin (o : OpV) : ReadBack.Statement (.vrmin o) :=
  ⟨fun _ => (readStrand_25 (major_encV ..)).trans (readVector_encV _ _ _ .vrmin rfl), (nomatch ·), (nomatch ·)⟩
theorem ReadBack.vld (o : OpV) : ReadBack.Statement (.vld o) :=
  ⟨fun _ => (readStrand_26 (major_encV ..)).trans (readVector_encV _ _ _ .vld rfl), (nomatch ·), (nomatch ·)⟩
theorem ReadBack.vst (o : OpV) : ReadBack.Statement (.vst o) :=
  ⟨fun _ => (readStrand_26 (major_encV ..)).trans (readVector_encV _ _ _ .vst rfl), (nomatch ·), (nomatch ·)⟩
theorem ReadBack.vlds (o : OpV) : ReadBack.Statement (.vlds o) :=
  ⟨fun _ => (readStrand_26 (major_encV ..)).trans (readVector_encV _ _ _ .vlds rfl), (nomatch ·), (nomatch ·)⟩
theorem ReadBack.vsts (o : OpV) : ReadBack.Statement (.vsts o) :=
  ⟨fun _ => (readStrand_26 (major_encV ..)).trans (readVector_encV _ _ _ .vsts rfl), (nomatch ·), (nomatch ·)⟩
theorem ReadBack.vldx (o : OpV) : ReadBack.Statement (.vldx o) :=
  ⟨fun _ => (readStrand_26 (major_encV ..)).trans (readVector_encV _ _ _ .vldx rfl), (nomatch ·), (nomatch ·)⟩
theorem ReadBack.vstx (o : OpV) : ReadBack.Statement (.vstx o) :=
  ⟨fun _ => (readStrand_26 (major_encV ..)).trans (readVector_encV _ _ _ .vstx rfl), (nomatch ·), (nomatch ·)⟩
theorem ReadBack.qld (o : OpV) : ReadBack.Statement (.qld o) :=
  ⟨fun _ => (readStrand_26 (major_encV ..)).trans (readVector_encV _ _ _ .qld rfl), (nomatch ·), (nomatch ·)⟩
theorem ReadBack.vlsld (o : OpV) : ReadBack.Statement (.vlsld o) :=
  ⟨fun _ => (readStrand_26 (major_encV ..)).trans (readVector_encV _ _ _ .vlsld rfl), (nomatch ·), (nomatch ·)⟩
theorem ReadBack.vlsst (o : OpV) : ReadBack.Statement (.vlsst o) :=
  ⟨fun _ => (readStrand_26 (major_encV ..)).trans (readVector_encV _ _ _ .vlsst rfl), (nomatch ·), (nomatch ·)⟩
theorem ReadBack.pq (p : Pre) (second : IWord) : ReadBack.Statement (.pq p second) :=
  ⟨fun _ => by
    show readStrand (encPq p) second = _
    rw [readStrand_27 (major_encPq ..), fields_encPq], (nomatch ·), (nomatch ·)⟩
theorem ReadBack.flease (o : OpE) : ReadBack.Statement (.flease o) :=
  ⟨fun _ => by
    show readStrand (encE 0x28 o 0 0) _ = _
    rw [readStrand_28 (major_encE ..), readFragment]
    rw [fn_encE, fields_encE, q_encE]; rfl, (nomatch ·), (nomatch ·)⟩
theorem ReadBack.fleaseFix (o : OpE) : ReadBack.Statement (.fleaseFix o) :=
  ⟨fun _ => by
    show readStrand (encE 0x28 o 0 1) _ = _
    rw [readStrand_28 (major_encE ..), readFragment]
    rw [fn_encE, fields_encE, q_encE]; rfl, (nomatch ·), (nomatch ·)⟩
theorem ReadBack.ffree (o : OpE) : ReadBack.Statement (.ffree o) :=
  ⟨fun _ => by
    show readStrand (encE 0x28 o 1 0) _ = _
    rw [readStrand_28 (major_encE ..), readFragment]
    rw [fn_encE, fields_encE]; rfl, (nomatch ·), (nomatch ·)⟩
theorem ReadBack.fsplit (o : OpE) : ReadBack.Statement (.fsplit o) :=
  ⟨fun _ => by
    show readStrand (encE 0x28 o 2 0) _ = _
    rw [readStrand_28 (major_encE ..), readFragment]
    rw [fn_encE, fields_encE, q_encE]; rfl, (nomatch ·), (nomatch ·)⟩
theorem ReadBack.fsplitDiscard (o : OpE) : ReadBack.Statement (.fsplitDiscard o) :=
  ⟨fun _ => by
    show readStrand (encE 0x28 o 2 1) _ = _
    rw [readStrand_28 (major_encE ..), readFragment]
    rw [fn_encE, fields_encE, q_encE]; rfl, (nomatch ·), (nomatch ·)⟩
theorem ReadBack.ffuse (o : OpE) : ReadBack.Statement (.ffuse o) :=
  ⟨fun _ => by
    show readStrand (encE 0x28 o 3 0) _ = _
    rw [readStrand_28 (major_encE ..), readFragment]
    rw [fn_encE, fields_encE, q_encE]; rfl, (nomatch ·), (nomatch ·)⟩
theorem ReadBack.ffuseDiscard (o : OpE) : ReadBack.Statement (.ffuseDiscard o) :=
  ⟨fun _ => by
    show readStrand (encE 0x28 o 3 1) _ = _
    rw [readStrand_28 (major_encE ..), readFragment]
    rw [fn_encE, fields_encE, q_encE]; rfl, (nomatch ·), (nomatch ·)⟩
theorem ReadBack.fchain (o : OpE) : ReadBack.Statement (.fchain o) :=
  ⟨fun _ => by
    show readStrand (encE 0x28 o 4 0) _ = _
    rw [readStrand_28 (major_encE ..), readFragment]
    rw [fn_encE, fields_encE]; rfl, (nomatch ·), (nomatch ·)⟩
theorem ReadBack.funchain (o : OpE) : ReadBack.Statement (.funchain o) :=
  ⟨fun _ => by
    show readStrand (encE 0x28 o 5 0) _ = _
    rw [readStrand_28 (major_encE ..), readFragment]
    rw [fn_encE, fields_encE]; rfl, (nomatch ·), (nomatch ·)⟩
theorem ReadBack.fquery (o : OpE) : ReadBack.Statement (.fquery o) :=
  ⟨fun _ => by
    show readStrand (encE 0x28 o 6 0) _ = _
    rw [readStrand_28 (major_encE ..), readFragment]
    rw [fn_encE, fields_encE]; rfl, (nomatch ·), (nomatch ·)⟩
theorem ReadBack.tload (o : OpE) : ReadBack.Statement (.tload o) :=
  ⟨fun _ => by
    show readStrand (encE 0x29 o 0 0) _ = _
    rw [readStrand_29 (major_encE ..), readTable]
    rw [fn_encE, fields_encE, q_encE]; rfl, (nomatch ·), (nomatch ·)⟩
theorem ReadBack.tloadKeep (o : OpE) : ReadBack.Statement (.tloadKeep o) :=
  ⟨fun _ => by
    show readStrand (encE 0x29 o 0 1) _ = _
    rw [readStrand_29 (major_encE ..), readTable]
    rw [fn_encE, fields_encE, q_encE]; rfl, (nomatch ·), (nomatch ·)⟩
theorem ReadBack.tnest (o : OpE) : ReadBack.Statement (.tnest o) :=
  ⟨fun _ => by
    show readStrand (encE 0x29 o 1 0) _ = _
    rw [readStrand_29 (major_encE ..), readTable]
    rw [fn_encE, fields_encE]; rfl, (nomatch ·), (nomatch ·)⟩
theorem ReadBack.tgo (o : OpE) : ReadBack.Statement (.tgo o) :=
  ⟨fun _ => by
    show readStrand (encE 0x29 o 2 0) _ = _
    rw [readStrand_29 (major_encE ..), readTable]
    rw [fn_encE, fields_encE]; rfl, (nomatch ·), (nomatch ·)⟩
theorem ReadBack.tstop (o : OpE) : ReadBack.Statement (.tstop o) :=
  ⟨fun _ => by
    show readStrand (encE 0x29 o 3 0) _ = _
    rw [readStrand_29 (major_encE ..), readTable]
    rw [fn_encE, fields_encE, q_encE]; rfl, (nomatch ·), (nomatch ·)⟩
theorem ReadBack.tstopMark (o : OpE) : ReadBack.Statement (.tstopMark o) :=
  ⟨fun _ => by
    show readStrand (encE 0x29 o 3 1) _ = _
    rw [readStrand_29 (major_encE ..), readTable]
    rw [fn_encE, fields_encE, q_encE]; rfl, (nomatch ·), (nomatch ·)⟩
theorem ReadBack.tbase (o : OpE) : ReadBack.Statement (.tbase o) :=
  ⟨fun _ => by
    show readStrand (encE 0x29 o 4 0) _ = _
    rw [readStrand_29 (major_encE ..), readTable]
    rw [fn_encE, fields_encE, q_encE]; rfl, (nomatch ·), (nomatch ·)⟩
theorem ReadBack.tbaseNow (o : OpE) : ReadBack.Statement (.tbaseNow o) :=
  ⟨fun _ => by
    show readStrand (encE 0x29 o 4 1) _ = _
    rw [readStrand_29 (major_encE ..), readTable]
    rw [fn_encE, fields_encE, q_encE]; rfl, (nomatch ·), (nomatch ·)⟩
theorem ReadBack.trestart (o : OpE) : ReadBack.Statement (.trestart o) :=
  ⟨fun _ => by
    show readStrand (encE 0x29 o 5 0) _ = _
    rw [readStrand_29 (major_encE ..), readTable]
    rw [fn_encE, fields_encE]; rfl, (nomatch ·), (nomatch ·)⟩
theorem ReadBack.tstat (o : OpE) : ReadBack.Statement (.tstat o) :=
  ⟨fun _ => by
    show readStrand (encE 0x29 o 6 0) _ = _
    rw [readStrand_29 (major_encE ..), readTable]
    rw [fn_encE, fields_encE, q_encE]; rfl, (nomatch ·), (nomatch ·)⟩
theorem ReadBack.tstatIdx0 (o : OpE) : ReadBack.Statement (.tstatIdx0 o) :=
  ⟨fun _ => by
    show readStrand (encE 0x29 o 6 1) _ = _
    rw [readStrand_29 (major_encE ..), readTable]
    rw [fn_encE, fields_encE, q_encE]; rfl, (nomatch ·), (nomatch ·)⟩
theorem ReadBack.tstatIdx4 (o : OpE) : ReadBack.Statement (.tstatIdx4 o) :=
  ⟨fun _ => by
    show readStrand (encE 0x29 o 6 2) _ = _
    rw [readStrand_29 (major_encE ..), readTable]
    rw [fn_encE, fields_encE, q_encE]; rfl, (nomatch ·), (nomatch ·)⟩
theorem ReadBack.tstatEseq (o : OpE) : ReadBack.Statement (.tstatEseq o) :=
  ⟨fun _ => by
    show readStrand (encE 0x29 o 6 3) _ = _
    rw [readStrand_29 (major_encE ..), readTable]
    rw [fn_encE, fields_encE, q_encE]; rfl, (nomatch ·), (nomatch ·)⟩
theorem ReadBack.tstatEhw (o : OpE) : ReadBack.Statement (.tstatEhw o) :=
  ⟨fun _ => by
    show readStrand (encE 0x29 o 6 4) _ = _
    rw [readStrand_29 (major_encE ..), readTable]
    rw [fn_encE, fields_encE, q_encE]; rfl, (nomatch ·), (nomatch ·)⟩
theorem ReadBack.tstatClr (o : OpE) : ReadBack.Statement (.tstatClr o) :=
  ⟨fun _ => by
    show readStrand (encE 0x29 o 6 8) _ = _
    rw [readStrand_29 (major_encE ..), readTable]
    rw [fn_encE, fields_encE, q_encE]; rfl, (nomatch ·), (nomatch ·)⟩
theorem ReadBack.chopen (o : OpE) : ReadBack.Statement (.chopen o) :=
  ⟨fun _ => by
    show readStrand (encE 0x2A o 0 0) _ = _
    rw [readStrand_2A (major_encE ..), readChannel]
    rw [fn_encE, fields_encE, q_encE]; rfl, (nomatch ·), (nomatch ·)⟩
theorem ReadBack.chopenRx (o : OpE) : ReadBack.Statement (.chopenRx o) :=
  ⟨fun _ => by
    show readStrand (encE 0x2A o 0 1) _ = _
    rw [readStrand_2A (major_encE ..), readChannel]
    rw [fn_encE, fields_encE, q_encE]; rfl, (nomatch ·), (nomatch ·)⟩
theorem ReadBack.cpy (o : OpE) (cb : Bool) (sum : BitVec 2) : ReadBack.Statement (.cpy o cb sum) :=
  ⟨fun _ => by
    show readStrand (encE 0x2A o 1 (0#1 ++ bit cb ++ sum)) _ = _
    rw [readStrand_2A (major_encE ..), readChannel]
    rw [fn_encE, fields_encE]
    simp (disch := decide) only [encE, fMajor, fD, fA, fB, fBit, extract_high, extract_low, bit_high, bit_low, bit_zero, extract_whole, Nat.reduceSub, Nat.sub_zero, Nat.sub_self]; rfl, (nomatch ·), (nomatch ·)⟩
theorem ReadBack.cpym (o : OpE) (sum : BitVec 2) : ReadBack.Statement (.cpym o sum) :=
  ⟨fun _ => by
    show readStrand (encE 0x2A o 2 (0#2 ++ sum)) _ = _
    rw [readStrand_2A (major_encE ..), readChannel]
    rw [fn_encE, fields_encE]
    simp (disch := decide) only [encE, fMajor, fD, fA, fB, fBit, extract_high, extract_low, bit_high, bit_low, bit_zero, extract_whole, Nat.reduceSub, Nat.sub_zero, Nat.sub_self]; rfl, (nomatch ·), (nomatch ·)⟩
theorem ReadBack.gth (o : OpE) (cb : Bool) (sum : BitVec 2) : ReadBack.Statement (.gth o cb sum) :=
  ⟨fun _ => by
    show readStrand (encE 0x2A o 3 (0#1 ++ bit cb ++ sum)) _ = _
    rw [readStrand_2A (major_encE ..), readChannel]
    rw [fn_encE, fields_encE]
    simp (disch := decide) only [encE, fMajor, fD, fA, fB, fBit, extract_high, extract_low, bit_high, bit_low, bit_zero, extract_whole, Nat.reduceSub, Nat.sub_zero, Nat.sub_self]; rfl, (nomatch ·), (nomatch ·)⟩
theorem ReadBack.chwm (o : OpE) : ReadBack.Statement (.chwm o) :=
  ⟨fun _ => by
    show readStrand (encE 0x2A o 4 0) _ = _
    rw [readStrand_2A (major_encE ..), readChannel]
    rw [fn_encE, fields_encE]; rfl, (nomatch ·), (nomatch ·)⟩
theorem ReadBack.chwait (o : OpE) : ReadBack.Statement (.chwait o) :=
  ⟨fun _ => by
    show readStrand (encE 0x2A o 5 0) _ = _
    rw [readStrand_2A (major_encE ..), readChannel]
    rw [fn_encE, fields_encE]; rfl, (nomatch ·), (nomatch ·)⟩
theorem ReadBack.chsum (o : OpE) : ReadBack.Statement (.chsum o) :=
  ⟨fun _ => by
    show readStrand (encE 0x2A o 6 0) _ = _
    rw [readStrand_2A (major_encE ..), readChannel]
    rw [fn_encE, fields_encE, q_encE]; rfl, (nomatch ·), (nomatch ·)⟩
theorem ReadBack.chsumExp (o : OpE) : ReadBack.Statement (.chsumExp o) :=
  ⟨fun _ => by
    show readStrand (encE 0x2A o 6 1) _ = _
    rw [readStrand_2A (major_encE ..), readChannel]
    rw [fn_encE, fields_encE, q_encE]; rfl, (nomatch ·), (nomatch ·)⟩
theorem ReadBack.chsumClr (o : OpE) : ReadBack.Statement (.chsumClr o) :=
  ⟨fun _ => by
    show readStrand (encE 0x2A o 6 2) _ = _
    rw [readStrand_2A (major_encE ..), readChannel]
    rw [fn_encE, fields_encE, q_encE]; rfl, (nomatch ·), (nomatch ·)⟩
theorem ReadBack.chsumStat (o : OpE) : ReadBack.Statement (.chsumStat o) :=
  ⟨fun _ => by
    show readStrand (encE 0x2A o 6 3) _ = _
    rw [readStrand_2A (major_encE ..), readChannel]
    rw [fn_encE, fields_encE, q_encE]; rfl, (nomatch ·), (nomatch ·)⟩
theorem ReadBack.chsumSlip (o : OpE) : ReadBack.Statement (.chsumSlip o) :=
  ⟨fun _ => by
    show readStrand (encE 0x2A o 6 4) _ = _
    rw [readStrand_2A (major_encE ..), readChannel]
    rw [fn_encE, fields_encE, q_encE]; rfl, (nomatch ·), (nomatch ·)⟩
theorem ReadBack.chsumSeq (o : OpE) : ReadBack.Statement (.chsumSeq o) :=
  ⟨fun _ => by
    show readStrand (encE 0x2A o 6 5) _ = _
    rw [readStrand_2A (major_encE ..), readChannel]
    rw [fn_encE, fields_encE, q_encE]; rfl, (nomatch ·), (nomatch ·)⟩
theorem ReadBack.chclose (o : OpE) : ReadBack.Statement (.chclose o) :=
  ⟨fun _ => by
    show readStrand (encE 0x2A o 7 0) _ = _
    rw [readStrand_2A (major_encE ..), readChannel]
    rw [fn_encE, fields_encE, q_encE]; rfl, (nomatch ·), (nomatch ·)⟩
theorem ReadBack.chcloseDiscard (o : OpE) : ReadBack.Statement (.chcloseDiscard o) :=
  ⟨fun _ => by
    show readStrand (encE 0x2A o 7 1) _ = _
    rw [readStrand_2A (major_encE ..), readChannel]
    rw [fn_encE, fields_encE, q_encE]; rfl, (nomatch ·), (nomatch ·)⟩
theorem ReadBack.cbcfg (o : OpE) : ReadBack.Statement (.cbcfg o) :=
  ⟨fun _ => by
    show readStrand (encE 0x2A o 8 0) _ = _
    rw [readStrand_2A (major_encE ..), readChannel]
    rw [fn_encE, fields_encE]; rfl, (nomatch ·), (nomatch ·)⟩
theorem ReadBack.cbpop (o : OpE) : ReadBack.Statement (.cbpop o) :=
  ⟨fun _ => by
    show readStrand (encE 0x2A o 9 0) _ = _
    rw [readStrand_2A (major_encE ..), readChannel]
    rw [fn_encE, fields_encE]; rfl, (nomatch ·), (nomatch ·)⟩
theorem ReadBack.wopenExp (o : OpE) : ReadBack.Statement (.wopenExp o) :=
  ⟨fun _ => by
    show readStrand (encE 0x2B o 0 0) _ = _
    rw [readStrand_2B (major_encE ..), readWindow]
    rw [fn_encE, fields_encE, q_encE]; rfl, (nomatch ·), (nomatch ·)⟩
theorem ReadBack.wopenImp (o : OpE) : ReadBack.Statement (.wopenImp o) :=
  ⟨fun _ => by
    show readStrand (encE 0x2B o 0 1) _ = _
    rw [readStrand_2B (major_encE ..), readWindow]
    rw [fn_encE, fields_encE, q_encE]; rfl, (nomatch ·), (nomatch ·)⟩
theorem ReadBack.wwr (o : OpE) (red : BitVec 2) : ReadBack.Statement (.wwr o red) :=
  ⟨fun _ => by
    show readStrand (encE 0x2B o 1 (0#2 ++ red)) _ = _
    rw [readStrand_2B (major_encE ..), readWindow]
    rw [fn_encE, fields_encE]
    simp (disch := decide) only [encE, fMajor, fD, fA, fB, fBit, extract_high, extract_low, bit_high, bit_low, bit_zero, extract_whole, Nat.reduceSub, Nat.sub_zero, Nat.sub_self]; rfl, (nomatch ·), (nomatch ·)⟩
theorem ReadBack.wwrs (o : OpE) (red : BitVec 2) : ReadBack.Statement (.wwrs o red) :=
  ⟨fun _ => by
    show readStrand (encE 0x2B o 2 (0#2 ++ red)) _ = _
    rw [readStrand_2B (major_encE ..), readWindow]
    rw [fn_encE, fields_encE]
    simp (disch := decide) only [encE, fMajor, fD, fA, fB, fBit, extract_high, extract_low, bit_high, bit_low, bit_zero, extract_whole, Nat.reduceSub, Nat.sub_zero, Nat.sub_self]; rfl, (nomatch ·), (nomatch ·)⟩
theorem ReadBack.watom (o : OpE) (wide : Bool) (op : BitVec 3) : ReadBack.Statement (.watom o wide op) :=
  ⟨fun _ => by
    show readStrand (encE 0x2B o 3 (bit wide ++ op)) _ = _
    rw [readStrand_2B (major_encE ..), readWindow]
    rw [fn_encE, fields_encE]
    simp (disch := decide) only [encE, fMajor, fD, fA, fB, fBit, extract_high, extract_low, bit_high, bit_low, bit_zero, extract_whole, Nat.reduceSub, Nat.sub_zero, Nat.sub_self]; rfl, (nomatch ·), (nomatch ·)⟩
theorem ReadBack.wcntSent (o : OpE) : ReadBack.Statement (.wcntSent o) :=
  ⟨fun _ => by
    show readStrand (encE 0x2B o 4 0) _ = _
    rw [readStrand_2B (major_encE ..), readWindow]
    rw [fn_encE, fields_encE, q_encE]; rfl, (nomatch ·), (nomatch ·)⟩
theorem ReadBack.wcntAckd (o : OpE) : ReadBack.Statement (.wcntAckd o) :=
  ⟨fun _ => by
    show readStrand (encE 0x2B o 4 1) _ = _
    rw [readStrand_2B (major_encE ..), readWindow]
    rw [fn_encE, fields_encE, q_encE]; rfl, (nomatch ·), (nomatch ·)⟩
theorem ReadBack.wcntRcvd (o : OpE) : ReadBack.Statement (.wcntRcvd o) :=
  ⟨fun _ => by
    show readStrand (encE 0x2B o 4 2) _ = _
    rw [readStrand_2B (major_encE ..), readWindow]
    rw [fn_encE, fields_encE, q_encE]; rfl, (nomatch ·), (nomatch ·)⟩
theorem ReadBack.wcntSig (o : OpE) : ReadBack.Statement (.wcntSig o) :=
  ⟨fun _ => by
    show readStrand (encE 0x2B o 4 3) _ = _
    rw [readStrand_2B (major_encE ..), readWindow]
    rw [fn_encE, fields_encE, q_encE]; rfl, (nomatch ·), (nomatch ·)⟩
theorem ReadBack.wcntStat (o : OpE) : ReadBack.Statement (.wcntStat o) :=
  ⟨fun _ => by
    show readStrand (encE 0x2B o 4 4) _ = _
    rw [readStrand_2B (major_encE ..), readWindow]
    rw [fn_encE, fields_encE, q_encE]; rfl, (nomatch ·), (nomatch ·)⟩
theorem ReadBack.wwaitAckd (o : OpE) : ReadBack.Statement (.wwaitAckd o) :=
  ⟨fun _ => by
    show readStrand (encE 0x2B o 5 1) _ = _
    rw [readStrand_2B (major_encE ..), readWindow]
    rw [fn_encE, fields_encE, q_encE]; rfl, (nomatch ·), (nomatch ·)⟩
theorem ReadBack.wwaitRcvd (o : OpE) : ReadBack.Statement (.wwaitRcvd o) :=
  ⟨fun _ => by
    show readStrand (encE 0x2B o 5 2) _ = _
    rw [readStrand_2B (major_encE ..), readWindow]
    rw [fn_encE, fields_encE, q_encE]; rfl, (nomatch ·), (nomatch ·)⟩
theorem ReadBack.wwaitSig (o : OpE) : ReadBack.Statement (.wwaitSig o) :=
  ⟨fun _ => by
    show readStrand (encE 0x2B o 5 3) _ = _
    rw [readStrand_2B (major_encE ..), readWindow]
    rw [fn_encE, fields_encE, q_encE]; rfl, (nomatch ·), (nomatch ·)⟩
theorem ReadBack.wclose (o : OpE) : ReadBack.Statement (.wclose o) :=
  ⟨fun _ => by
    show readStrand (encE 0x2B o 6 0) _ = _
    rw [readStrand_2B (major_encE ..), readWindow]
    rw [fn_encE, fields_encE]; rfl, (nomatch ·), (nomatch ·)⟩
theorem ReadBack.rngjoin (o : OpE) : ReadBack.Statement (.rngjoin o) :=
  ⟨fun _ => by
    show readStrand (encE 0x2C o 0 0) _ = _
    rw [readStrand_2C (major_encE ..), readRing]
    rw [fn_encE, fields_encE]; rfl, (nomatch ·), (nomatch ·)⟩
theorem ReadBack.rngsend (o : OpE) : ReadBack.Statement (.rngsend o) :=
  ⟨fun _ => by
    show readStrand (encE 0x2C o 1 0) _ = _
    rw [readStrand_2C (major_encE ..), readRing]
    rw [fn_encE, fields_encE]; rfl, (nomatch ·), (nomatch ·)⟩
theorem ReadBack.rngwait (o : OpE) : ReadBack.Statement (.rngwait o) :=
  ⟨fun _ => by
    show readStrand (encE 0x2C o 2 0) _ = _
    rw [readStrand_2C (major_encE ..), readRing]
    rw [fn_encE, fields_encE, q_encE]; rfl, (nomatch ·), (nomatch ·)⟩
theorem ReadBack.rngwaitOut (o : OpE) : ReadBack.Statement (.rngwaitOut o) :=
  ⟨fun _ => by
    show readStrand (encE 0x2C o 2 1) _ = _
    rw [readStrand_2C (major_encE ..), readRing]
    rw [fn_encE, fields_encE, q_encE]; rfl, (nomatch ·), (nomatch ·)⟩
theorem ReadBack.rngwaitStat (o : OpE) : ReadBack.Statement (.rngwaitStat o) :=
  ⟨fun _ => by
    show readStrand (encE 0x2C o 2 2) _ = _
    rw [readStrand_2C (major_encE ..), readRing]
    rw [fn_encE, fields_encE, q_encE]; rfl, (nomatch ·), (nomatch ·)⟩
theorem ReadBack.rngwaitOwn (o : OpE) : ReadBack.Statement (.rngwaitOwn o) :=
  ⟨fun _ => by
    show readStrand (encE 0x2C o 2 3) _ = _
    rw [readStrand_2C (major_encE ..), readRing]
    rw [fn_encE, fields_encE, q_encE]; rfl, (nomatch ·), (nomatch ·)⟩
theorem ReadBack.rngdone (o : OpE) : ReadBack.Statement (.rngdone o) :=
  ⟨fun _ => by
    show readStrand (encE 0x2C o 3 0) _ = _
    rw [readStrand_2C (major_encE ..), readRing]
    rw [fn_encE, fields_encE]; rfl, (nomatch ·), (nomatch ·)⟩
theorem ReadBack.rngleave (o : OpE) : ReadBack.Statement (.rngleave o) :=
  ⟨fun _ => by
    show readStrand (encE 0x2C o 4 0) _ = _
    rw [readStrand_2C (major_encE ..), readRing]
    rw [fn_encE, fields_encE]; rfl, (nomatch ·), (nomatch ·)⟩
theorem ReadBack.mfence (o : OpE) : ReadBack.Statement (.mfence o) :=
  ⟨fun _ => by
    show readStrand (encE 0x2D o 0 0) _ = _
    rw [readStrand_2D (major_encE ..), readOrder]
    rw [fn_encE, fields_encE]; rfl, (nomatch ·), (nomatch ·)⟩
theorem ReadBack.pfence (o : OpE) : ReadBack.Statement (.pfence o) :=
  ⟨fun _ => by
    show readStrand (encE 0x2D o 1 0) _ = _
    rw [readStrand_2D (major_encE ..), readOrder]
    rw [fn_encE, fields_encE]; rfl, (nomatch ·), (nomatch ·)⟩
theorem ReadBack.rel (scope : BitVec 3) : ReadBack.Statement (.rel scope) :=
  ⟨fun _ => by
    show readStrand (encE 0x2D ⟨0, 0, 0, false, false⟩ 2 (0#1 ++ scope)) _ = _
    rw [readStrand_2D (major_encE ..), readOrder]
    rw [fn_encE]
    simp (disch := decide) only [encE, fMajor, fD, fA, fB, fBit, extract_high, extract_low, bit_high, bit_low, bit_zero, extract_whole, Nat.reduceSub, Nat.sub_zero, Nat.sub_self]; rfl, (nomatch ·), (nomatch ·)⟩
theorem ReadBack.acq (o : OpE) (scope : BitVec 3) : ReadBack.Statement (.acq o scope) :=
  ⟨fun _ => by
    show readStrand (encE 0x2D o 3 (bit false ++ scope)) _ = _
    rw [readStrand_2D (major_encE ..), readOrder]
    rw [fn_encE, fields_encE]
    simp (disch := decide) only [encE, fMajor, fD, fA, fB, fBit, extract_high, extract_low, bit_high, bit_low, bit_zero, extract_whole, Nat.reduceSub, Nat.sub_zero, Nat.sub_self]; rfl, (nomatch ·), (nomatch ·)⟩
theorem ReadBack.acqH (o : OpE) (scope : BitVec 3) : ReadBack.Statement (.acqH o scope) :=
  ⟨fun _ => by
    show readStrand (encE 0x2D o 3 (bit true ++ scope)) _ = _
    rw [readStrand_2D (major_encE ..), readOrder]
    rw [fn_encE, fields_encE]
    simp (disch := decide) only [encE, fMajor, fD, fA, fB, fBit, extract_high, extract_low, bit_high, bit_low, bit_zero, extract_whole, Nat.reduceSub, Nat.sub_zero, Nat.sub_self]; rfl, (nomatch ·), (nomatch ·)⟩
theorem ReadBack.logq (o : OpE) : ReadBack.Statement (.logq o) :=
  ⟨fun _ => by
    show readStrand (encE 0x2D o 4 0) _ = _
    rw [readStrand_2D (major_encE ..), readOrder]
    rw [fn_encE, fields_encE]; rfl, (nomatch ·), (nomatch ·)⟩
theorem ReadBack.binit (o : OpE) : ReadBack.Statement (.binit o) :=
  ⟨fun _ => by
    show readStrand (encE 0x2E o 0 0) _ = _
    rw [readStrand_2E (major_encE ..), readBarrier]
    rw [fn_encE, fields_encE]; rfl, (nomatch ·), (nomatch ·)⟩
theorem ReadBack.barr (o : OpE) : ReadBack.Statement (.barr o) :=
  ⟨fun _ => by
    show readStrand (encE 0x2E o 1 0) _ = _
    rw [readStrand_2E (major_encE ..), readBarrier]
    rw [fn_encE, fields_encE]; rfl, (nomatch ·), (nomatch ·)⟩
theorem ReadBack.bwait (o : OpE) : ReadBack.Statement (.bwait o) :=
  ⟨fun _ => by
    show readStrand (encE 0x2E o 2 0) _ = _
    rw [readStrand_2E (major_encE ..), readBarrier]
    rw [fn_encE, fields_encE]; rfl, (nomatch ·), (nomatch ·)⟩
theorem ReadBack.barw (o : OpE) : ReadBack.Statement (.barw o) :=
  ⟨fun _ => by
    show readStrand (encE 0x2E o 3 0) _ = _
    rw [readStrand_2E (major_encE ..), readBarrier]
    rw [fn_encE, fields_encE]; rfl, (nomatch ·), (nomatch ·)⟩
theorem ReadBack.bmask (o : OpE) : ReadBack.Statement (.bmask o) :=
  ⟨fun _ => by
    show readStrand (encE 0x2E o 4 0) _ = _
    rw [readStrand_2E (major_encE ..), readBarrier]
    rw [fn_encE, fields_encE]; rfl, (nomatch ·), (nomatch ·)⟩
theorem ReadBack.bpend (o : OpE) : ReadBack.Statement (.bpend o) :=
  ⟨fun _ => by
    show readStrand (encE 0x2E o 5 0) _ = _
    rw [readStrand_2E (major_encE ..), readBarrier]
    rw [fn_encE, fields_encE]; rfl, (nomatch ·), (nomatch ·)⟩
theorem ReadBack.bq (o : OpE) : ReadBack.Statement (.bq o) :=
  ⟨fun _ => by
    show readStrand (encE 0x2E o 6 0) _ = _
    rw [readStrand_2E (major_encE ..), readBarrier]
    rw [fn_encE, fields_encE]; rfl, (nomatch ·), (nomatch ·)⟩
theorem ReadBack.fork (o : OpE) : ReadBack.Statement (.fork o) :=
  ⟨fun _ => by
    show readStrand (encE 0x2F o 0 0) _ = _
    rw [readStrand_2F (major_encE ..), readGroup]
    rw [fn_encE, fields_encE]; rfl, (nomatch ·), (nomatch ·)⟩
theorem ReadBack.rdv (o : OpE) : ReadBack.Statement (.rdv o) :=
  ⟨fun _ => by
    show readStrand (encE 0x2F o 1 0) _ = _
    rw [readStrand_2F (major_encE ..), readGroup]
    rw [fn_encE, fields_encE]; rfl, (nomatch ·), (nomatch ·)⟩
theorem ReadBack.fpop (o : OpE) : ReadBack.Statement (.fpop o) :=
  ⟨fun _ => by
    show readStrand (encE 0x2F o 2 0) _ = _
    rw [readStrand_2F (major_encE ..), readGroup]
    rw [fn_encE, fields_encE]; rfl, (nomatch ·), (nomatch ·)⟩
theorem ReadBack.grank (o : OpE) : ReadBack.Statement (.grank o) :=
  ⟨fun _ => by
    show readStrand (encE 0x2F o 3 0) _ = _
    rw [readStrand_2F (major_encE ..), readGroup]
    rw [fn_encE, fields_encE, q_encE]; rfl, (nomatch ·), (nomatch ·)⟩
theorem ReadBack.grankSize (o : OpE) : ReadBack.Statement (.grankSize o) :=
  ⟨fun _ => by
    show readStrand (encE 0x2F o 3 1) _ = _
    rw [readStrand_2F (major_encE ..), readGroup]
    rw [fn_encE, fields_encE, q_encE]; rfl, (nomatch ·), (nomatch ·)⟩
theorem ReadBack.grankNum (o : OpE) : ReadBack.Statement (.grankNum o) :=
  ⟨fun _ => by
    show readStrand (encE 0x2F o 3 2) _ = _
    rw [readStrand_2F (major_encE ..), readGroup]
    rw [fn_encE, fields_encE, q_encE]; rfl, (nomatch ·), (nomatch ·)⟩
theorem ReadBack.grankCores (o : OpE) : ReadBack.Statement (.grankCores o) :=
  ⟨fun _ => by
    show readStrand (encE 0x2F o 3 3) _ = _
    rw [readStrand_2F (major_encE ..), readGroup]
    rw [fn_encE, fields_encE, q_encE]; rfl, (nomatch ·), (nomatch ·)⟩
theorem ReadBack.grankDies (o : OpE) : ReadBack.Statement (.grankDies o) :=
  ⟨fun _ => by
    show readStrand (encE 0x2F o 3 4) _ = _
    rw [readStrand_2F (major_encE ..), readGroup]
    rw [fn_encE, fields_encE, q_encE]; rfl, (nomatch ·), (nomatch ·)⟩
theorem ReadBack.gexit : ReadBack.Statement .gexit :=
  ⟨fun _ => by
    show readStrand 0xBC000040 _ = _
    rw [readStrand_2F (by decide)]; rfl, (nomatch ·), (nomatch ·)⟩
theorem ReadBack.nop : ReadBack.Statement .nop :=
  ⟨fun _ => by
    show readStrand 0xC0000000 _ = _
    rw [readStrand_30 (by decide)]; rfl, (nomatch ·), (nomatch ·)⟩
theorem ReadBack.halt : ReadBack.Statement .halt :=
  ⟨fun _ => by
    show readStrand 0xC0000001 _ = _
    rw [readStrand_30 (by decide)]; rfl, (nomatch ·), (nomatch ·)⟩
theorem ReadBack.sleep (o : OpA) : ReadBack.Statement (.sleep o) :=
  ⟨fun _ => by
    show readStrand (encA 0x30 o 0x002) _ = _
    rw [readStrand_30 (major_encA ..), readSystem]
    rw [fn_encA, fields_encA]; rfl, (nomatch ·), (nomatch ·)⟩
theorem ReadBack.time (o : OpA) : ReadBack.Statement (.time o) :=
  ⟨fun _ => by
    show readStrand (encA 0x30 o 0x003) _ = _
    rw [readStrand_30 (major_encA ..), readSystem]
    rw [fn_encA, fields_encA]; rfl, (nomatch ·), (nomatch ·)⟩
theorem ReadBack.feat (o : OpA) : ReadBack.Statement (.feat o) :=
  ⟨fun _ => by
    show readStrand (encA 0x30 o 0x004) _ = _
    rw [readStrand_30 (major_encA ..), readSystem]
    rw [fn_encA, fields_encA]; rfl, (nomatch ·), (nomatch ·)⟩
theorem ReadBack.locq (o : OpA) : ReadBack.Statement (.locq o) :=
  ⟨fun _ => by
    show readStrand (encA 0x30 o 0x005) _ = _
    rw [readStrand_30 (major_encA ..), readSystem]
    rw [fn_encA, fields_encA]; rfl, (nomatch ·), (nomatch ·)⟩
theorem ReadBack.cget (o : OpA) : ReadBack.Statement (.cget o) :=
  ⟨fun _ => by
    show readStrand (encA 0x30 o 0x006) _ = _
    rw [readStrand_30 (major_encA ..), readSystem]
    rw [fn_encA, fields_encA]; rfl, (nomatch ·), (nomatch ·)⟩
theorem ReadBack.cset (o : OpA) : ReadBack.Statement (.cset o) :=
  ⟨fun _ => by
    show readStrand (encA 0x30 o 0x007) _ = _
    rw [readStrand_30 (major_encA ..), readSystem]
    rw [fn_encA, fields_encA]; rfl, (nomatch ·), (nomatch ·)⟩
theorem ReadBack.spfmt (o : OpA) : ReadBack.Statement (.spfmt o) :=
  ⟨fun _ => by
    show readStrand (encA 0x30 o 0x008) _ = _
    rw [readStrand_30 (major_encA ..), readSystem]
    rw [fn_encA, fields_encA]; rfl, (nomatch ·), (nomatch ·)⟩
theorem ReadBack.eret : ReadBack.Statement .eret :=
  ⟨fun _ => by
    show readStrand 0xC0000009 _ = _
    rw [readStrand_30 (by decide)]; rfl, (nomatch ·), (nomatch ·)⟩
theorem ReadBack.spfmtq (o : OpA) : ReadBack.Statement (.spfmtq o) :=
  ⟨fun _ => by
    show readStrand (encA 0x30 o 0x00A) _ = _
    rw [readStrand_30 (major_encA ..), readSystem]
    rw [fn_encA, fields_encA]; rfl, (nomatch ·), (nomatch ·)⟩
theorem ReadBack.trap (code : BitVec 12) : ReadBack.Statement (.trap code) :=
  ⟨fun _ => by
    show readStrand (0x31#6 ++ 0#11 ++ 0#3 ++ code) _ = _
    rw [readStrand_31 (by simp (disch := decide) only [fMajor, fD, fA, fB, fBit, extract_high, extract_low, bit_high, bit_low, bit_zero, extract_whole, Nat.reduceSub, Nat.sub_zero, Nat.sub_self]; rfl), readTrap]
    simp (disch := decide) only [fMajor, fD, fA, fB, fBit, extract_high, extract_low, bit_high, bit_low, bit_zero, extract_whole, Nat.reduceSub, Nat.sub_zero, Nat.sub_self]; rfl, (nomatch ·), (nomatch ·)⟩
theorem ReadBack.sysc (code : BitVec 12) : ReadBack.Statement (.sysc code) :=
  ⟨fun _ => by
    show readStrand (0x31#6 ++ 0#11 ++ 1#3 ++ code) _ = _
    rw [readStrand_31 (by simp (disch := decide) only [fMajor, fD, fA, fB, fBit, extract_high, extract_low, bit_high, bit_low, bit_zero, extract_whole, Nat.reduceSub, Nat.sub_zero, Nat.sub_self]; rfl), readTrap]
    simp (disch := decide) only [fMajor, fD, fA, fB, fBit, extract_high, extract_low, bit_high, bit_low, bit_zero, extract_whole, Nat.reduceSub, Nat.sub_zero, Nat.sub_self]; rfl, (nomatch ·), (nomatch ·)⟩
theorem ReadBack.brk (code : BitVec 12) : ReadBack.Statement (.brk code) :=
  ⟨fun _ => by
    show readStrand (0x31#6 ++ 0#11 ++ 2#3 ++ code) _ = _
    rw [readStrand_31 (by simp (disch := decide) only [fMajor, fD, fA, fB, fBit, extract_high, extract_low, bit_high, bit_low, bit_zero, extract_whole, Nat.reduceSub, Nat.sub_zero, Nat.sub_self]; rfl), readTrap]
    simp (disch := decide) only [fMajor, fD, fA, fB, fBit, extract_high, extract_low, bit_high, bit_low, bit_zero, extract_whole, Nat.reduceSub, Nat.sub_zero, Nat.sub_self]; rfl, (nomatch ·), (nomatch ·)⟩
theorem ReadBack.nopt (n : BitVec 10) : ReadBack.Statement (.nopt n) :=
  ⟨(nomatch ·), fun _ => by
    simp (disch := decide) only [encode, List.headD_cons, readMatrix, fMajor, fD, fA, fB, fBit, extract_high, extract_low, bit_high, bit_low, bit_zero, extract_whole, Nat.reduceSub, Nat.sub_zero, Nat.sub_self]; rfl, (nomatch ·)⟩
theorem ReadBack.wld (shape : BitVec 5) (ty : BitVec 3) (active : Bool) (gen : BitVec 2) (col : BitVec 4) : ReadBack.Statement (.wld shape ty active gen col) :=
  ⟨(nomatch ·), fun _ => by
    simp (disch := decide) only [encode, List.headD_cons, readMatrix, fMajor, fD, fA, fB, fBit, extract_high, extract_low, bit_high, bit_low, bit_zero, extract_whole, Nat.reduceSub, Nat.sub_zero, Nat.sub_self]; rfl, (nomatch ·)⟩
theorem ReadBack.wswap : ReadBack.Statement .wswap :=
  ⟨(nomatch ·), fun _ => by
    simp (disch := decide) only [encode, List.headD_cons, readMatrix, fMajor, fD, fA, fB, fBit, extract_high, extract_low, bit_high, bit_low, bit_zero, extract_whole, Nat.reduceSub, Nat.sub_zero, Nat.sub_self]; rfl, (nomatch ·)⟩
theorem ReadBack.mma (shape : BitVec 5) (ty : BitVec 3) (acc : BitVec 2) (gen : BitVec 2) (src : BitVec 2) (brow : BitVec 8) (bcol : BitVec 4) : ReadBack.Statement (.mma shape ty acc gen src brow bcol) :=
  ⟨(nomatch ·), fun _ => by
    simp (disch := decide) only [encode, List.headD_cons, readMatrix, fMajor, fD, fA, fB, fBit, extract_high, extract_low, bit_high, bit_low, bit_zero, extract_whole, Nat.reduceSub, Nat.sub_zero, Nat.sub_self]; rfl, (nomatch ·)⟩
theorem ReadBack.aclr (base : BitVec 9) (rows : BitVec 9) : ReadBack.Statement (.aclr base rows) :=
  ⟨(nomatch ·), fun _ => by
    simp (disch := decide) only [encode, List.headD_cons, readMatrix, fMajor, fD, fA, fB, fBit, extract_high, extract_low, bit_high, bit_low, bit_zero, extract_whole, Nat.reduceSub, Nat.sub_zero, Nat.sub_self]; rfl, (nomatch ·)⟩
theorem ReadBack.drain (gen : BitVec 2) (link : Bool) (ty : BitVec 3) (base : BitVec 9) (rows : BitVec 9) : ReadBack.Statement (.drain gen link ty base rows) :=
  ⟨(nomatch ·), fun _ => by
    simp (disch := decide) only [encode, List.headD_cons, readMatrix, fMajor, fD, fA, fB, fBit, extract_high, extract_low, bit_high, bit_low, bit_zero, extract_whole, Nat.reduceSub, Nat.sub_zero, Nat.sub_self]; rfl, (nomatch ·)⟩
theorem ReadBack.epi (act : BitVec 3) (bi : Bool) (sc : Bool) (bs : Bool) (rm : BitVec 3) (sat : Bool) (thr : BitVec 8) : ReadBack.Statement (.epi act bi sc bs rm sat thr) :=
  ⟨(nomatch ·), fun _ => by
    simp (disch := decide) only [encode, List.headD_cons, readMatrix, fMajor, fD, fA, fB, fBit, extract_high, extract_low, bit_high, bit_low, bit_zero, extract_whole, Nat.reduceSub, Nat.sub_zero, Nat.sub_self]; rfl, (nomatch ·)⟩
theorem ReadBack.tstart : ReadBack.Statement .tstart :=
  ⟨(nomatch ·), fun _ => by
    simp (disch := decide) only [encode, List.headD_cons, readMatrix, fMajor, fD, fA, fB, fBit, extract_high, extract_low, bit_high, bit_low, bit_zero, extract_whole, Nat.reduceSub, Nat.sub_zero, Nat.sub_self]; rfl, (nomatch ·)⟩
theorem ReadBack.proof (seed : BitVec 8) (bf : Bool) (literal : IWord) : ReadBack.Statement (.proof seed bf literal) :=
  ⟨(nomatch ·), fun _ => by
    simp (disch := decide) only [encode, List.headD_cons, readMatrix, fMajor, fD, fA, fB, fBit, extract_high, extract_low, bit_high, bit_low, bit_zero, extract_whole, Nat.reduceSub, Nat.sub_zero, Nat.sub_self]; rfl, (nomatch ·)⟩
theorem ReadBack.cbwait (ch : BitVec 3) (n : BitVec 8) : ReadBack.Statement (.cbwait ch n) :=
  ⟨(nomatch ·), fun _ => by
    simp (disch := decide) only [encode, List.headD_cons, readMatrix, fMajor, fD, fA, fB, fBit, extract_high, extract_low, bit_high, bit_low, bit_zero, extract_whole, Nat.reduceSub, Nat.sub_zero, Nat.sub_self]; rfl, (nomatch ·)⟩
theorem ReadBack.cbfree (ch : BitVec 3) (n : BitVec 8) : ReadBack.Statement (.cbfree ch n) :=
  ⟨(nomatch ·), fun _ => by
    simp (disch := decide) only [encode, List.headD_cons, readMatrix, fMajor, fD, fA, fB, fBit, extract_high, extract_low, bit_high, bit_low, bit_zero, extract_whole, Nat.reduceSub, Nat.sub_zero, Nat.sub_self]; rfl, (nomatch ·)⟩
theorem ReadBack.wmwait (ch : BitVec 3) (gen : BitVec 2) (l : BitVec 16) : ReadBack.Statement (.wmwait ch gen l) :=
  ⟨(nomatch ·), fun _ => by
    simp (disch := decide) only [encode, List.headD_cons, readMatrix, fMajor, fD, fA, fB, fBit, extract_high, extract_low, bit_high, bit_low, bit_zero, extract_whole, Nat.reduceSub, Nat.sub_zero, Nat.sub_self]; rfl, (nomatch ·)⟩
theorem ReadBack.sigb (cell : BitVec 9) : ReadBack.Statement (.sigb cell) :=
  ⟨(nomatch ·), fun _ => by
    simp (disch := decide) only [encode, List.headD_cons, readMatrix, fMajor, fD, fA, fB, fBit, extract_high, extract_low, bit_high, bit_low, bit_zero, extract_whole, Nat.reduceSub, Nat.sub_zero, Nat.sub_self]; rfl, fun _ => by
    simp (disch := decide) only [encode, List.headD_cons, readCopy, fMajor, fD, fA, fB, fBit, extract_high, extract_low, bit_high, bit_low, bit_zero, extract_whole, Nat.reduceSub, Nat.sub_zero, Nat.sub_self]; rfl⟩
theorem ReadBack.nest (level : BitVec 3) (target : BitVec 8) : ReadBack.Statement (.nest level target) :=
  ⟨(nomatch ·), fun _ => by
    simp (disch := decide) only [encode, List.headD_cons, readMatrix, fMajor, fD, fA, fB, fBit, extract_high, extract_low, bit_high, bit_low, bit_zero, extract_whole, Nat.reduceSub, Nat.sub_zero, Nat.sub_self]; rfl, fun _ => by
    simp (disch := decide) only [encode, List.headD_cons, readCopy, fMajor, fD, fA, fB, fBit, extract_high, extract_low, bit_high, bit_low, bit_zero, extract_whole, Nat.reduceSub, Nat.sub_zero, Nat.sub_self]; rfl⟩
theorem ReadBack.jmpt (target : BitVec 8) : ReadBack.Statement (.jmpt target) :=
  ⟨(nomatch ·), fun _ => by
    simp (disch := decide) only [encode, List.headD_cons, readMatrix, fMajor, fD, fA, fB, fBit, extract_high, extract_low, bit_high, bit_low, bit_zero, extract_whole, Nat.reduceSub, Nat.sub_zero, Nat.sub_self]; rfl, fun _ => by
    simp (disch := decide) only [encode, List.headD_cons, readCopy, fMajor, fD, fA, fB, fBit, extract_high, extract_low, bit_high, bit_low, bit_zero, extract_whole, Nat.reduceSub, Nat.sub_zero, Nat.sub_self]; rfl⟩
theorem ReadBack.haltt : ReadBack.Statement .haltt :=
  ⟨(nomatch ·), fun _ => by
    simp (disch := decide) only [encode, List.headD_cons, readMatrix, fMajor, fD, fA, fB, fBit, extract_high, extract_low, bit_high, bit_low, bit_zero, extract_whole, Nat.reduceSub, Nat.sub_zero, Nat.sub_self]; rfl, fun _ => by
    simp (disch := decide) only [encode, List.headD_cons, readCopy, fMajor, fD, fA, fB, fBit, extract_high, extract_low, bit_high, bit_low, bit_zero, extract_whole, Nat.reduceSub, Nat.sub_zero, Nat.sub_self]; rfl⟩
theorem ReadBack.cpo (sg : BitVec 2) (dg : BitVec 2) (sum : BitVec 2) (cb : Bool) : ReadBack.Statement (.cpo sg dg sum cb) :=
  ⟨(nomatch ·), (nomatch ·), fun _ => by
    simp (disch := decide) only [encode, List.headD_cons, readCopy, fMajor, fD, fA, fB, fBit, extract_high, extract_low, bit_high, bit_low, bit_zero, extract_whole, Nat.reduceSub, Nat.sub_zero, Nat.sub_self]; rfl⟩
theorem ReadBack.cpot (sg : BitVec 2) (dg : BitVec 2) (sum : BitVec 2) (cb : Bool) : ReadBack.Statement (.cpot sg dg sum cb) :=
  ⟨(nomatch ·), (nomatch ·), fun _ => by
    simp (disch := decide) only [encode, List.headD_cons, readCopy, fMajor, fD, fA, fB, fBit, extract_high, extract_low, bit_high, bit_low, bit_zero, extract_whole, Nat.reduceSub, Nat.sub_zero, Nat.sub_self]; rfl⟩
theorem ReadBack.gto (sg : BitVec 2) (dg : BitVec 2) (sum : BitVec 2) (cb : Bool) (xg : BitVec 2) : ReadBack.Statement (.gto sg dg sum cb xg) :=
  ⟨(nomatch ·), (nomatch ·), fun _ => by
    simp (disch := decide) only [encode, List.headD_cons, readCopy, fMajor, fD, fA, fB, fBit, extract_high, extract_low, bit_high, bit_low, bit_zero, extract_whole, Nat.reduceSub, Nat.sub_zero, Nat.sub_self]; rfl⟩
theorem ReadBack.sumchk : ReadBack.Statement .sumchk :=
  ⟨(nomatch ·), (nomatch ·), fun _ => by
    simp (disch := decide) only [encode, List.headD_cons, readCopy, fMajor, fD, fA, fB, fBit, extract_high, extract_low, bit_high, bit_low, bit_zero, extract_whole, Nat.reduceSub, Nat.sub_zero, Nat.sub_self]; rfl⟩
theorem ReadBack.producerDelivery (core : Nat) (n : Nat) : ReadBack.Statement (.producerDelivery core n) :=
  ⟨(nomatch ·), (nomatch ·), (nomatch ·)⟩
theorem ReadBack.stallRelease (core : Nat) : ReadBack.Statement (.stallRelease core) :=
  ⟨(nomatch ·), (nomatch ·), (nomatch ·)⟩
theorem ReadBack.trapDisposition (core : Nat) : ReadBack.Statement (.trapDisposition core) :=
  ⟨(nomatch ·), (nomatch ·), (nomatch ·)⟩
theorem ReadBack.sleepDeadline (core : Nat) : ReadBack.Statement (.sleepDeadline core) :=
  ⟨(nomatch ·), (nomatch ·), (nomatch ·)⟩
theorem ReadBack.sleepWake (core : Nat) : ReadBack.Statement (.sleepWake core) :=
  ⟨(nomatch ·), (nomatch ·), (nomatch ·)⟩
theorem ReadBack.vectorCommandStart (core : Nat) : ReadBack.Statement (.vectorCommandStart core) :=
  ⟨(nomatch ·), (nomatch ·), (nomatch ·)⟩
theorem ReadBack.qldRead (core : Nat) : ReadBack.Statement (.qldRead core) :=
  ⟨(nomatch ·), (nomatch ·), (nomatch ·)⟩
theorem ReadBack.reductionAccept (cluster : Nat) : ReadBack.Statement (.reductionAccept cluster) :=
  ⟨(nomatch ·), (nomatch ·), (nomatch ·)⟩
theorem ReadBack.floatLaunch (agent : Agent) : ReadBack.Statement (.floatLaunch agent) :=
  ⟨(nomatch ·), (nomatch ·), (nomatch ·)⟩
theorem ReadBack.floatHop (n : Nat) (dst : Agent) : ReadBack.Statement (.floatHop n dst) :=
  ⟨(nomatch ·), (nomatch ·), (nomatch ·)⟩
theorem ReadBack.tableCommandApply (core : Nat) (handle : Nat) : ReadBack.Statement (.tableCommandApply core handle) :=
  ⟨(nomatch ·), (nomatch ·), (nomatch ·)⟩
theorem ReadBack.tableRewind (core : Nat) (handle : Nat) : ReadBack.Statement (.tableRewind core handle) :=
  ⟨(nomatch ·), (nomatch ·), (nomatch ·)⟩
theorem ReadBack.allocatorArbitration (die : Nat) : ReadBack.Statement (.allocatorArbitration die) :=
  ⟨(nomatch ·), (nomatch ·), (nomatch ·)⟩
theorem ReadBack.leaseGrant (core : Nat) : ReadBack.Statement (.leaseGrant core) :=
  ⟨(nomatch ·), (nomatch ·), (nomatch ·)⟩
theorem ReadBack.reservation (die : Nat) : ReadBack.Statement (.reservation die) :=
  ⟨(nomatch ·), (nomatch ·), (nomatch ·)⟩
theorem ReadBack.fleaseDeadline (core : Nat) : ReadBack.Statement (.fleaseDeadline core) :=
  ⟨(nomatch ·), (nomatch ·), (nomatch ·)⟩
theorem ReadBack.scrubComplete (die : Nat) : ReadBack.Statement (.scrubComplete die) :=
  ⟨(nomatch ·), (nomatch ·), (nomatch ·)⟩
theorem ReadBack.reshapeComplete (core : Nat) : ReadBack.Statement (.reshapeComplete core) :=
  ⟨(nomatch ·), (nomatch ·), (nomatch ·)⟩
theorem ReadBack.publicationPointArrival (core : Nat) (die : Nat) : ReadBack.Statement (.publicationPointArrival core die) :=
  ⟨(nomatch ·), (nomatch ·), (nomatch ·)⟩
theorem ReadBack.pressRecord (core : Nat) : ReadBack.Statement (.pressRecord core) :=
  ⟨(nomatch ·), (nomatch ·), (nomatch ·)⟩
theorem ReadBack.appendRelease (core : Nat) : ReadBack.Statement (.appendRelease core) :=
  ⟨(nomatch ·), (nomatch ·), (nomatch ·)⟩
theorem ReadBack.atomHomeExecute (core : Nat) : ReadBack.Statement (.atomHomeExecute core) :=
  ⟨(nomatch ·), (nomatch ·), (nomatch ·)⟩
theorem ReadBack.lineRecall (line : Nat) : ReadBack.Statement (.lineRecall line) :=
  ⟨(nomatch ·), (nomatch ·), (nomatch ·)⟩
theorem ReadBack.queueHeadEntry (core : Nat) (ch : Nat) : ReadBack.Statement (.queueHeadEntry core ch) :=
  ⟨(nomatch ·), (nomatch ·), (nomatch ·)⟩
theorem ReadBack.commandBegin (core : Nat) (ch : Nat) : ReadBack.Statement (.commandBegin core ch) :=
  ⟨(nomatch ·), (nomatch ·), (nomatch ·)⟩
theorem ReadBack.copyLineTransfer (core : Nat) (ch : Nat) (seq : Nat) : ReadBack.Statement (.copyLineTransfer core ch seq) :=
  ⟨(nomatch ·), (nomatch ·), (nomatch ·)⟩
theorem ReadBack.commandComplete (core : Nat) (ch : Nat) (seq : Nat) : ReadBack.Statement (.commandComplete core ch seq) :=
  ⟨(nomatch ·), (nomatch ·), (nomatch ·)⟩
theorem ReadBack.multicastCredit (core : Nat) (ch : Nat) (receiver : Nat) : ReadBack.Statement (.multicastCredit core ch receiver) :=
  ⟨(nomatch ·), (nomatch ·), (nomatch ·)⟩
theorem ReadBack.channelQueueApply (core : Nat) (ch : Nat) : ReadBack.Statement (.channelQueueApply core ch) :=
  ⟨(nomatch ·), (nomatch ·), (nomatch ·)⟩
theorem ReadBack.arrivalCounted (n : Nat) : ReadBack.Statement (.arrivalCounted n) :=
  ⟨(nomatch ·), (nomatch ·), (nomatch ·)⟩
theorem ReadBack.childArrival (die : Nat) (cell : Nat) : ReadBack.Statement (.childArrival die cell) :=
  ⟨(nomatch ·), (nomatch ·), (nomatch ·)⟩
theorem ReadBack.tagComplete (tag : Nat) : ReadBack.Statement (.tagComplete tag) :=
  ⟨(nomatch ·), (nomatch ·), (nomatch ·)⟩
theorem ReadBack.rootCompletionDelivery (die : Nat) (cell : Nat) : ReadBack.Statement (.rootCompletionDelivery die cell) :=
  ⟨(nomatch ·), (nomatch ·), (nomatch ·)⟩
theorem ReadBack.groupPlacement (group : Nat) : ReadBack.Statement (.groupPlacement group) :=
  ⟨(nomatch ·), (nomatch ·), (nomatch ·)⟩
theorem ReadBack.groupStarvationHold (group : Nat) : ReadBack.Statement (.groupStarvationHold group) :=
  ⟨(nomatch ·), (nomatch ·), (nomatch ·)⟩
theorem ReadBack.preemptSave (group : Nat) : ReadBack.Statement (.preemptSave group) :=
  ⟨(nomatch ·), (nomatch ·), (nomatch ·)⟩
theorem ReadBack.strandRestore (group : Nat) : ReadBack.Statement (.strandRestore group) :=
  ⟨(nomatch ·), (nomatch ·), (nomatch ·)⟩
theorem ReadBack.leaseReclaim (core : Nat) : ReadBack.Statement (.leaseReclaim core) :=
  ⟨(nomatch ·), (nomatch ·), (nomatch ·)⟩
theorem ReadBack.watchdogExpiry (group : Nat) : ReadBack.Statement (.watchdogExpiry group) :=
  ⟨(nomatch ·), (nomatch ·), (nomatch ·)⟩
theorem ReadBack.doorbell (qid : Nat) (value : Word) : ReadBack.Statement (.doorbell qid value) :=
  ⟨(nomatch ·), (nomatch ·), (nomatch ·)⟩
theorem ReadBack.queueEnable (qid : Nat) (value : Word) : ReadBack.Statement (.queueEnable qid value) :=
  ⟨(nomatch ·), (nomatch ·), (nomatch ·)⟩
theorem ReadBack.queueDisable (qid : Nat) (value : Word) : ReadBack.Statement (.queueDisable qid value) :=
  ⟨(nomatch ·), (nomatch ·), (nomatch ·)⟩
theorem ReadBack.queueResetComplete (qid : Nat) : ReadBack.Statement (.queueResetComplete qid) :=
  ⟨(nomatch ·), (nomatch ·), (nomatch ·)⟩
theorem ReadBack.packetFetch : ReadBack.Statement .packetFetch :=
  ⟨(nomatch ·), (nomatch ·), (nomatch ·)⟩
theorem ReadBack.launch (qid : Nat) : ReadBack.Statement (.launch qid) :=
  ⟨(nomatch ·), (nomatch ·), (nomatch ·)⟩
theorem ReadBack.feed (qid : Nat) : ReadBack.Statement (.feed qid) :=
  ⟨(nomatch ·), (nomatch ·), (nomatch ·)⟩
theorem ReadBack.feedRecordAppend (qid : Nat) : ReadBack.Statement (.feedRecordAppend qid) :=
  ⟨(nomatch ·), (nomatch ·), (nomatch ·)⟩
theorem ReadBack.retire (qid : Nat) : ReadBack.Statement (.retire qid) :=
  ⟨(nomatch ·), (nomatch ·), (nomatch ·)⟩
theorem ReadBack.kernelRetired (kernel : Nat) : ReadBack.Statement (.kernelRetired kernel) :=
  ⟨(nomatch ·), (nomatch ·), (nomatch ·)⟩
theorem ReadBack.copy (qid : Nat) : ReadBack.Statement (.copy qid) :=
  ⟨(nomatch ·), (nomatch ·), (nomatch ·)⟩
theorem ReadBack.signal (qid : Nat) : ReadBack.Statement (.signal qid) :=
  ⟨(nomatch ·), (nomatch ·), (nomatch ·)⟩
theorem ReadBack.waitAll (qid : Nat) : ReadBack.Statement (.waitAll qid) :=
  ⟨(nomatch ·), (nomatch ·), (nomatch ·)⟩
theorem ReadBack.waitAny (qid : Nat) : ReadBack.Statement (.waitAny qid) :=
  ⟨(nomatch ·), (nomatch ·), (nomatch ·)⟩
theorem ReadBack.waitEvaluation (qid : Nat) : ReadBack.Statement (.waitEvaluation qid) :=
  ⟨(nomatch ·), (nomatch ·), (nomatch ·)⟩
theorem ReadBack.graph (qid : Nat) : ReadBack.Statement (.graph qid) :=
  ⟨(nomatch ·), (nomatch ·), (nomatch ·)⟩
theorem ReadBack.graphNodeIssue (replay : Nat) (node : Nat) : ReadBack.Statement (.graphNodeIssue replay node) :=
  ⟨(nomatch ·), (nomatch ·), (nomatch ·)⟩
theorem ReadBack.timestamp (qid : Nat) : ReadBack.Statement (.timestamp qid) :=
  ⟨(nomatch ·), (nomatch ·), (nomatch ·)⟩
theorem ReadBack.nopPacket (qid : Nat) : ReadBack.Statement (.nopPacket qid) :=
  ⟨(nomatch ·), (nomatch ·), (nomatch ·)⟩
theorem ReadBack.packetComplete (n : Nat) : ReadBack.Statement (.packetComplete n) :=
  ⟨(nomatch ·), (nomatch ·), (nomatch ·)⟩
theorem ReadBack.runListTurn : ReadBack.Statement .runListTurn :=
  ⟨(nomatch ·), (nomatch ·), (nomatch ·)⟩
theorem ReadBack.create (value : Word) (secure : Bool) : ReadBack.Statement (.create value secure) :=
  ⟨(nomatch ·), (nomatch ·), (nomatch ·)⟩
theorem ReadBack.kill (value : Word) (secure : Bool) : ReadBack.Statement (.kill value secure) :=
  ⟨(nomatch ·), (nomatch ·), (nomatch ·)⟩
theorem ReadBack.destroy (value : Word) (secure : Bool) : ReadBack.Statement (.destroy value secure) :=
  ⟨(nomatch ·), (nomatch ·), (nomatch ·)⟩
theorem ReadBack.killg (value : Word) (secure : Bool) : ReadBack.Statement (.killg value secure) :=
  ⟨(nomatch ·), (nomatch ·), (nomatch ·)⟩
theorem ReadBack.quantum (value : Word) (secure : Bool) : ReadBack.Statement (.quantum value secure) :=
  ⟨(nomatch ·), (nomatch ·), (nomatch ·)⟩
theorem ReadBack.wdog (value : Word) (secure : Bool) : ReadBack.Statement (.wdog value secure) :=
  ⟨(nomatch ·), (nomatch ·), (nomatch ·)⟩
theorem ReadBack.readimg (value : Word) (secure : Bool) : ReadBack.Statement (.readimg value secure) :=
  ⟨(nomatch ·), (nomatch ·), (nomatch ·)⟩
theorem ReadBack.treset (value : Word) (secure : Bool) : ReadBack.Statement (.treset value secure) :=
  ⟨(nomatch ·), (nomatch ·), (nomatch ·)⟩
theorem ReadBack.query (value : Word) (secure : Bool) : ReadBack.Statement (.query value secure) :=
  ⟨(nomatch ·), (nomatch ·), (nomatch ·)⟩
theorem ReadBack.contextTeardownComplete (asid : Nat) : ReadBack.Statement (.contextTeardownComplete asid) :=
  ⟨(nomatch ·), (nomatch ·), (nomatch ·)⟩
theorem ReadBack.info (core : Nat) : ReadBack.Statement (.info core) :=
  ⟨(nomatch ·), (nomatch ·), (nomatch ·)⟩
theorem ReadBack.bankgrant (core : Nat) : ReadBack.Statement (.bankgrant core) :=
  ⟨(nomatch ·), (nomatch ·), (nomatch ·)⟩
theorem ReadBack.bankfree (core : Nat) : ReadBack.Statement (.bankfree core) :=
  ⟨(nomatch ·), (nomatch ·), (nomatch ·)⟩
theorem ReadBack.cellgrant (core : Nat) : ReadBack.Statement (.cellgrant core) :=
  ⟨(nomatch ·), (nomatch ·), (nomatch ·)⟩
theorem ReadBack.cellfree (core : Nat) : ReadBack.Statement (.cellfree core) :=
  ⟨(nomatch ·), (nomatch ·), (nomatch ·)⟩
theorem ReadBack.taggrant (core : Nat) : ReadBack.Statement (.taggrant core) :=
  ⟨(nomatch ·), (nomatch ·), (nomatch ·)⟩
theorem ReadBack.tagfree (core : Nat) : ReadBack.Statement (.tagfree core) :=
  ⟨(nomatch ·), (nomatch ·), (nomatch ·)⟩
theorem ReadBack.yield (core : Nat) : ReadBack.Statement (.yield core) :=
  ⟨(nomatch ·), (nomatch ·), (nomatch ·)⟩
theorem ReadBack.tinvGo (asid : Nat) (value : Word) : ReadBack.Statement (.tinvGo asid value) :=
  ⟨(nomatch ·), (nomatch ·), (nomatch ·)⟩
theorem ReadBack.trootWrite (asid : Nat) (value : Word) : ReadBack.Statement (.trootWrite asid value) :=
  ⟨(nomatch ·), (nomatch ·), (nomatch ·)⟩
theorem ReadBack.invalidationComplete (asid : Nat) : ReadBack.Statement (.invalidationComplete asid) :=
  ⟨(nomatch ·), (nomatch ·), (nomatch ·)⟩
theorem ReadBack.priResponse (core : Nat) (ok : Bool) : ReadBack.Statement (.priResponse core ok) :=
  ⟨(nomatch ·), (nomatch ·), (nomatch ·)⟩
theorem ReadBack.priTimeout (core : Nat) : ReadBack.Statement (.priTimeout core) :=
  ⟨(nomatch ·), (nomatch ·), (nomatch ·)⟩
theorem ReadBack.atsInvalidate (asid : Nat) (addr : Nat) : ReadBack.Statement (.atsInvalidate asid addr) :=
  ⟨(nomatch ·), (nomatch ·), (nomatch ·)⟩
theorem ReadBack.linkResetRelease (link : Nat) : ReadBack.Statement (.linkResetRelease link) :=
  ⟨(nomatch ·), (nomatch ·), (nomatch ·)⟩
theorem ReadBack.linkTrainingResult (link : Nat) (result : Training) : ReadBack.Statement (.linkTrainingResult link result) :=
  ⟨(nomatch ·), (nomatch ·), (nomatch ·)⟩
theorem ReadBack.laneFailure (link : Nat) : ReadBack.Statement (.laneFailure link) :=
  ⟨(nomatch ·), (nomatch ·), (nomatch ·)⟩
theorem ReadBack.retryTimeout (flow : FlowId) (sq : Nat) : ReadBack.Statement (.retryTimeout flow sq) :=
  ⟨(nomatch ·), (nomatch ·), (nomatch ·)⟩
theorem ReadBack.operationArrival (src : Nat) (target : Nat) (sq : Nat) (op : Inbound) :
    ReadBack.Statement (.operationArrival src target sq op) :=
  ⟨(nomatch ·), (nomatch ·), (nomatch ·)⟩
theorem ReadBack.ackArrival (flow : FlowId) (sq : Nat) : ReadBack.Statement (.ackArrival flow sq) :=
  ⟨(nomatch ·), (nomatch ·), (nomatch ·)⟩
theorem ReadBack.timeExchange (die : Nat) (slew : Slew) (path : Option (List (Nat × BitVec 32))) : ReadBack.Statement (.timeExchange die slew path) :=
  ⟨(nomatch ·), (nomatch ·), (nomatch ·)⟩
theorem ReadBack.windowOpSend (die : Nat) : ReadBack.Statement (.windowOpSend die) :=
  ⟨(nomatch ·), (nomatch ·), (nomatch ·)⟩
theorem ReadBack.ringNeighbourConfirm (ring : Nat) (prev : RingPeer) (next : RingPeer) : ReadBack.Statement (.ringNeighbourConfirm ring prev next) :=
  ⟨(nomatch ·), (nomatch ·), (nomatch ·)⟩
theorem ReadBack.ringGrant (ring : Nat) (k : Nat) (mine : Bool) : ReadBack.Statement (.ringGrant ring k mine) :=
  ⟨(nomatch ·), (nomatch ·), (nomatch ·)⟩
theorem ReadBack.ringTransmit (ring : Nat) : ReadBack.Statement (.ringTransmit ring) :=
  ⟨(nomatch ·), (nomatch ·), (nomatch ·)⟩
theorem ReadBack.ringArrival (ring : Nat) (e : RingInbound) : ReadBack.Statement (.ringArrival ring e) :=
  ⟨(nomatch ·), (nomatch ·), (nomatch ·)⟩
theorem ReadBack.ringBreakNotice (ring : Nat) (cause : BitVec 8) : ReadBack.Statement (.ringBreakNotice ring cause) :=
  ⟨(nomatch ·), (nomatch ·), (nomatch ·)⟩
theorem ReadBack.powerOn (boot : Boot) : ReadBack.Statement (.powerOn boot) :=
  ⟨(nomatch ·), (nomatch ·), (nomatch ·)⟩
theorem ReadBack.warmReset (boot : Boot) : ReadBack.Statement (.warmReset boot) :=
  ⟨(nomatch ·), (nomatch ·), (nomatch ·)⟩
theorem ReadBack.rstctl (value : Word) (boot : Boot) : ReadBack.Statement (.rstctl value boot) :=
  ⟨(nomatch ·), (nomatch ·), (nomatch ·)⟩
theorem ReadBack.blockThrottle (block : Block) : ReadBack.Statement (.blockThrottle block) :=
  ⟨(nomatch ·), (nomatch ·), (nomatch ·)⟩
theorem ReadBack.thermalStop (block : Block) : ReadBack.Statement (.thermalStop block) :=
  ⟨(nomatch ·), (nomatch ·), (nomatch ·)⟩
theorem ReadBack.powerRefresh (blocks : List Nat) : ReadBack.Statement (.powerRefresh blocks) :=
  ⟨(nomatch ·), (nomatch ·), (nomatch ·)⟩
theorem ReadBack.pldmUpdate (digest : BitVec 256) : ReadBack.Statement (.pldmUpdate digest) :=
  ⟨(nomatch ·), (nomatch ·), (nomatch ·)⟩
theorem ReadBack.attestationRequest (nonce : BitVec 256) : ReadBack.Statement (.attestationRequest nonce) :=
  ⟨(nomatch ·), (nomatch ·), (nomatch ·)⟩
theorem ReadBack.managementReset (boot : Boot) : ReadBack.Statement (.managementReset boot) :=
  ⟨(nomatch ·), (nomatch ·), (nomatch ·)⟩
theorem ReadBack.managementReading : ReadBack.Statement .managementReading :=
  ⟨(nomatch ·), (nomatch ·), (nomatch ·)⟩
theorem ReadBack.bar0NarrowWrite (offset : Nat) (size : Nat) : ReadBack.Statement (.bar0NarrowWrite offset size) :=
  ⟨(nomatch ·), (nomatch ·), (nomatch ·)⟩
theorem ReadBack.bar2Access (write : Bool) (offset : Nat) (data : List Byte) : ReadBack.Statement (.bar2Access write offset data) :=
  ⟨(nomatch ·), (nomatch ·), (nomatch ·)⟩
theorem ReadBack.registerWrite (offset : Nat) (value : Word) : ReadBack.Statement (.registerWrite offset value) :=
  ⟨(nomatch ·), (nomatch ·), (nomatch ·)⟩
theorem ReadBack.undefInstruction (tval : Word) : ReadBack.Statement (.undefInstruction tval) :=
  ⟨(nomatch ·), (nomatch ·), (nomatch ·)⟩
theorem ReadBack.instructionFetchFault (cause : BitVec 8) (addr : Word) : ReadBack.Statement (.instructionFetchFault cause addr) :=
  ⟨(nomatch ·), (nomatch ·), (nomatch ·)⟩
theorem ReadBack.debuggerResume (core : Nat) (pc : Word) : ReadBack.Statement (.debuggerResume core pc) :=
  ⟨(nomatch ·), (nomatch ·), (nomatch ·)⟩
theorem ReadBack.firmwareTimer (die : Nat) : ReadBack.Statement (.firmwareTimer die) :=
  ⟨(nomatch ·), (nomatch ·), (nomatch ·)⟩
theorem ReadBack.atsTranslationCompletion (asid : Nat) (addr : Nat) (dst : Nat) : ReadBack.Statement (.atsTranslationCompletion asid addr dst) :=
  ⟨(nomatch ·), (nomatch ·), (nomatch ·)⟩
theorem ReadBack.inputPowerLoss : ReadBack.Statement .inputPowerLoss :=
  ⟨(nomatch ·), (nomatch ·), (nomatch ·)⟩
theorem ReadBack.throttleRecovery (block : Block) : ReadBack.Statement (.throttleRecovery block) :=
  ⟨(nomatch ·), (nomatch ·), (nomatch ·)⟩

end Sys2Proof.Laws
end

