-- ==== Sys2Proof/Laws/Scalar.lean ====
section
/-! SUPPORT. The scalar results in the spec's words are those that the model computes, and what the shapes of the
register instructions come to when their sources are there. -/

set_option linter.unusedSimpArgs false

namespace Sys2Proof.Machine

set_option Elab.async false

section results
variable {n : Nat} (x y : BitVec n)
theorem Said.add_eq : Said.add n x y = opAdd x y := by
  apply BitVec.eq_of_toNat_eq; simp [Said.add, opAdd]
theorem Said.sub_eq : Said.sub n x y = opSub x y := by
  apply BitVec.eq_of_toInt_eq
  rw [Said.sub, opSub, BitVec.toInt_ofInt, BitVec.toInt_sub, BitVec.toInt_eq_toNat_bmod, BitVec.toInt_eq_toNat_bmod]
  simp
theorem Said.shl_eq : Said.shl n x y = opShl x y := by
  apply BitVec.eq_of_toNat_eq; simp [Said.shl, opShl, shAmt, Nat.shiftLeft_eq]
theorem Said.shr_eq : Said.shr n x y = opShr x y := by
  apply BitVec.eq_of_toNat_eq
  simp only [Said.shr, opShr, shAmt, BitVec.toNat_ofNat, BitVec.toNat_ushiftRight, Nat.shiftRight_eq_div_pow]
  exact Nat.mod_eq_of_lt (Nat.lt_of_le_of_lt (Nat.div_le_self _ _) x.isLt)
theorem Said.sar_eq : Said.sar n x y = opSar x y := by
  rw [Said.sar, opSar, shAmt, BitVec.sshiftRight, Int.shiftRight_eq_div_pow]
theorem shl_or (a k b n : Nat) : BitVec.ofNat n (a * 2 ^ k ||| b) = BitVec.ofNat n (a * 2 ^ k) ||| BitVec.ofNat n b := by
  apply BitVec.eq_of_toNat_eq; simp [Nat.or_mod_two_pow]
theorem Said.rol_eq : Said.rol n x y = opRol x y := by
  apply BitVec.eq_of_toNat_eq
  simp only [Said.rol, opRol, shAmt, BitVec.toNat_ofNat, BitVec.toNat_or, BitVec.toNat_shiftLeft, BitVec.toNat_ushiftRight, Nat.shiftLeft_eq, Nat.shiftRight_eq_div_pow, Nat.or_mod_two_pow]
  rw [Nat.mod_eq_of_lt (a := x.toNat / _) (Nat.lt_of_le_of_lt (Nat.div_le_self _ _) x.isLt)]
theorem Said.ror_eq : Said.ror n x y = opRor x y := by
  apply BitVec.eq_of_toNat_eq
  simp only [Said.ror, opRor, shAmt, BitVec.toNat_ofNat, BitVec.toNat_or, BitVec.toNat_shiftLeft, BitVec.toNat_ushiftRight, Nat.shiftLeft_eq, Nat.shiftRight_eq_div_pow, Nat.or_mod_two_pow]
  rw [Nat.mod_eq_of_lt (a := x.toNat / _) (Nat.lt_of_le_of_lt (Nat.div_le_self _ _) x.isLt)]
theorem Said.min_eq : Said.min n x y = opMin x y := by
  simp only [Said.min, opMin, BitVec.slt, decide_eq_true_eq]; split <;> split <;> first | rfl | omega
theorem Said.max_eq : Said.max n x y = opMax x y := by
  simp only [Said.max, opMax, BitVec.slt, decide_eq_true_eq]; split <;> split <;> first | rfl | omega | skip
  exact BitVec.eq_of_toInt_eq (by omega)
theorem Said.minn_eq : Said.minn n x y = opMinn x y := by
  simp only [Said.minn, opMinn, BitVec.ult, decide_eq_true_eq]; split <;> split <;> first | rfl | omega
theorem Said.maxn_eq : Said.maxn n x y = opMaxn x y := by
  simp only [Said.maxn, opMaxn, BitVec.ult, decide_eq_true_eq]; split <;> split <;> first | rfl | omega | skip
  exact BitVec.eq_of_toNat_eq (by omega)
theorem Said.mul_eq : Said.mul n x y = opMul x y := by
  apply BitVec.eq_of_toNat_eq; simp [Said.mul, opMul]
theorem zero_iff : y = 0 ↔ y.toNat = 0 := ⟨fun h => by rw [h]; rfl, fun h => BitVec.eq_of_toNat_eq h⟩
theorem ofInt_ones : BitVec.ofInt n (-1) = BitVec.allOnes n := by
  apply BitVec.eq_of_toInt_eq
  rw [← BitVec.neg_one_eq_allOnes, BitVec.toInt_ofInt, BitVec.toInt_neg]
  rcases n with _ | _ | n
  · rfl
  · rfl
  · rw [show (1#(n+1+1)).toInt = 1 by rw [BitVec.toInt_one (by omega)]]
theorem Said.div_eq : Said.div n x y = opDiv x y := by
  simp only [Said.div, opDiv, zero_iff, ofInt_ones]
theorem Said.divn_eq : Said.divn n x y = opDivn x y := by
  simp only [Said.divn, opDivn, zero_iff, ofInt_ones]
theorem Said.rem_eq : Said.rem n x y = opRem x y := by
  simp only [Said.rem, opRem, zero_iff, Int.tmod_def, Int.mul_comm]
theorem Said.remn_eq : Said.remn n x y = opRemn x y := by
  simp only [Said.remn, opRemn, zero_iff]
theorem Said.mulhn_eq : Said.mulhn n x y = opMulhn x y := by
  apply BitVec.eq_of_toNat_eq
  have hx := x.isLt
  have hy := y.isLt
  have h : x.toNat * y.toNat < 2 ^ (2 * n) := by
    rw [Nat.two_mul, Nat.pow_add]; exact Nat.mul_lt_mul'' hx hy
  have p : 2 ^ n ≤ 2 ^ (2 * n) := Nat.pow_le_pow_right (by omega) (by omega)
  simp only [Said.mulhn, opMulhn, BitVec.extractLsb'_toNat, BitVec.toNat_mul, BitVec.toNat_setWidth, BitVec.toNat_ofNat, Nat.shiftRight_eq_div_pow]
  rw [Nat.mod_eq_of_lt (Nat.lt_of_lt_of_le hx p), Nat.mod_eq_of_lt (Nat.lt_of_lt_of_le hy p), Nat.mod_eq_of_lt h]
theorem Said.mulh_eq : Said.mulh n x y = opMulh x y := by
  apply BitVec.eq_of_toNat_eq
  have e : (x.signExtend (2 * n)) * (y.signExtend (2 * n)) = BitVec.ofInt (2 * n) (x.toInt * y.toInt) := by
    rw [BitVec.ofInt_mul]; rfl
  rw [Said.mulh, e, opMulh, BitVec.extractLsb'_toNat, BitVec.toNat_ofInt, BitVec.toNat_ofInt, Nat.shiftRight_eq_div_pow]
  generalize x.toInt * y.toInt = p
  have h2 : (2 : Nat) ^ (2 * n) = 2 ^ n * 2 ^ n := by rw [Nat.two_mul, Nat.pow_add]
  have hk : (0 : Int) < ((2 ^ n : Nat) : Int) := by exact_mod_cast Nat.two_pow_pos n
  rw [h2]
  generalize (2 ^ n : Nat) = k at hk ⊢
  have h0 : 0 ≤ p % ((k * k : Nat) : Int) := Int.emod_nonneg _ (by rw [Int.natCast_mul]; exact Int.ne_of_gt (Int.mul_pos hk hk))
  have h1 : 0 ≤ (p / k) % (k : Int) := Int.emod_nonneg _ (Int.ne_of_gt hk)
  apply Int.ofNat.inj
  show ((((p % ((k * k : Nat) : Int)).toNat / k % k : Nat)) : Int) = (((p / k) % (k : Int)).toNat : Int)
  rw [Int.natCast_emod, Int.natCast_ediv, Int.toNat_of_nonneg h0, Int.toNat_of_nonneg h1, Int.natCast_mul]
  rw [Int.emod_def p (k * k), Int.sub_ediv_of_dvd _ ⟨k * (p / (k * k)), by rw [Int.mul_assoc]⟩]
  rw [Int.mul_assoc, Int.mul_ediv_cancel_left _ (Int.ne_of_gt hk), Int.sub_emod, Int.mul_emod_right]
  rw [Int.sub_zero, Int.emod_emod]
end results

section shapes
variable (s : State)
/-- A two-source instruction (R145). -/
theorem alu2_ready (o : OpA) (f : Word → Word → Word) (ha : s.me.Ready o.a) (hb : s.me.Ready o.b)
    (hd : s.me.Free o.d) :
    alu2 o f s = .next (s.doneReg o.d (f (s.me.gval o.a.toNat) (s.me.gval o.b.toNat))) := by
  rw [alu2, src2_full _ _ _ _ _ _ ha hb, write_ready _ _ _ hd]; rfl
/-- A one-source instruction (R148). -/
theorem alu1_ready (o : OpA) (f : Word → Word → Word) (ha : s.me.Ready o.a) (hd : s.me.Free o.d) :
    alu1 o f s = .next (s.doneReg o.d (f (s.me.gval o.a.toNat) 0)) := by
  rw [alu1, src1_full _ _ _ _ ha, write_ready _ _ _ hd]; rfl
/-- An instruction with an immediate (R149). -/
theorem aluI_ready (d a : Reg) (ea : Bool) (y : Word) (f : Word → Word → Word) (ha : s.me.Ready a)
    (hd : s.me.Free d) : aluI d a ea y f s = .next (s.doneReg d (f (s.me.gval a.toNat) y)) := by
  rw [aluI, src1_full _ _ _ _ ha, write_ready _ _ _ hd]; rfl
/-- A division (R153). -/
theorem divide_ready (o : OpA) (f : Word → Word → Word) (ha : s.me.Ready o.a) (hb : s.me.Ready o.b)
    (hd : s.me.Free o.d) :
    divide o f s = .next (s.donePend o.d (.word (f (s.me.gval o.a.toNat) (s.me.gval o.b.toNat)))) := by
  rw [divide, src2_full _ _ _ _ _ _ ha hb, produce_ready _ _ _ hd]; rfl
/-- A conditional branch (R127). -/
theorem branch_ready (o : OpB) (taken : Word → Word → Bool) (ha : s.me.Ready o.a) (hb : s.me.Ready o.b) :
    branch o taken s = .next (if taken (s.me.gval o.a.toNat) (s.me.gval o.b.toNat)
      then s.doneJump s.me (targetB s.me.pc o.off) else s.doneWith s.me) := by
  rw [branch, src2_full _ _ _ _ _ _ ha hb]; split <;> rfl
end shapes

end Sys2Proof.Machine
end

