-- ==== Sys2Proof/Tests/Slice0.lean ====
section
/-! SUPPORT. Tests: words written out from the encodings, ill-formed terms that the checks refuse, one step of
instructions on small states with results from the spec, and the witnesses of the statements. -/

namespace Sys2Proof.Tests

open Sys2Proof Sys2Proof.Machine

set_option Elab.async false

/-! ### Decoding: words written out from the encodings of the spec (R73 to R96) -/

/-- A strand word names an instruction. -/
noncomputable def names (e : IWord × Instr) : Bool := decide ((decode (wordBytes e.1)).toOption = some (e.2, []))
/-- A table word names a micro-order, whatever word follows it. -/
noncomputable def orders (copy : Bool) (e : IWord × Instr) : Bool :=
  decide ((decodeOrder copy e.1 0).toOption = some e.2) && decide ((decodeOrder copy e.1 0xFFFFFFFF).toOption = some e.2)

theorem test_decode_register_operations : ([
    (0x04664400, .add ⟨3, 6, 8, true, false⟩), (0x04664500, .addW ⟨3, 6, 8, true, false⟩),
    (0x04664401, .sub ⟨3, 6, 8, true, false⟩), (0x04664501, .subW ⟨3, 6, 8, true, false⟩),
    (0x04664402, .and ⟨3, 6, 8, true, false⟩), (0x04664502, .andW ⟨3, 6, 8, true, false⟩),
    (0x04664403, .or ⟨3, 6, 8, true, false⟩), (0x04664503, .orW ⟨3, 6, 8, true, false⟩),
    (0x04664404, .xor ⟨3, 6, 8, true, false⟩), (0x04664504, .xorW ⟨3, 6, 8, true, false⟩),
    (0x04664405, .andn ⟨3, 6, 8, true, false⟩), (0x04664505, .andnW ⟨3, 6, 8, true, false⟩),
    (0x04664406, .shl ⟨3, 6, 8, true, false⟩), (0x04664506, .shlW ⟨3, 6, 8, true, false⟩),
    (0x04664407, .shr ⟨3, 6, 8, true, false⟩), (0x04664507, .shrW ⟨3, 6, 8, true, false⟩),
    (0x04664408, .sar ⟨3, 6, 8, true, false⟩), (0x04664508, .sarW ⟨3, 6, 8, true, false⟩),
    (0x04664409, .rol ⟨3, 6, 8, true, false⟩), (0x04664509, .rolW ⟨3, 6, 8, true, false⟩),
    (0x0466440A, .ror ⟨3, 6, 8, true, false⟩), (0x0466450A, .rorW ⟨3, 6, 8, true, false⟩),
    (0x0466440B, .min ⟨3, 6, 8, true, false⟩), (0x0466450B, .minW ⟨3, 6, 8, true, false⟩),
    (0x0466440C, .max ⟨3, 6, 8, true, false⟩), (0x0466450C, .maxW ⟨3, 6, 8, true, false⟩),
    (0x0466440D, .minn ⟨3, 6, 8, true, false⟩), (0x0466450D, .minnW ⟨3, 6, 8, true, false⟩),
    (0x0466440E, .maxn ⟨3, 6, 8, true, false⟩), (0x0466450E, .maxnW ⟨3, 6, 8, true, false⟩),
    (0x0466040F, .clz ⟨3, 6, 0, true, false⟩), (0x0466050F, .clzW ⟨3, 6, 0, true, false⟩),
    (0x04660410, .ctz ⟨3, 6, 0, true, false⟩), (0x04660510, .ctzW ⟨3, 6, 0, true, false⟩),
    (0x04660411, .popc ⟨3, 6, 0, true, false⟩), (0x04660511, .popcW ⟨3, 6, 0, true, false⟩),
    (0x04660412, .bswap ⟨3, 6, 0, true, false⟩), (0x04660512, .bswapW ⟨3, 6, 0, true, false⟩)] : List (IWord × Instr)).all names = true := by decide +kernel

theorem test_decode_immediates : ([
    (0x08668012, .addi ⟨3, 6, true, 18⟩), (0x0C668012, .addiW ⟨3, 6, true, 18⟩),
    (0x10668012, .andi ⟨3, 6, true, 18⟩), (0x1066A012, .ori ⟨3, 6, true, 18⟩),
    (0x1066C012, .xori ⟨3, 6, true, 18⟩), (0x1066E012, .andni ⟨3, 6, true, 18⟩),
    (0x14668002, .shli ⟨3, 6, true, 2⟩), (0x14668802, .shliW ⟨3, 6, true, 2⟩), (0x14669002, .shri ⟨3, 6, true, 2⟩),
    (0x14669802, .shriW ⟨3, 6, true, 2⟩), (0x1466A002, .sari ⟨3, 6, true, 2⟩),
    (0x1466A802, .sariW ⟨3, 6, true, 2⟩), (0x1466B002, .roli ⟨3, 6, true, 2⟩),
    (0x1466B802, .roliW ⟨3, 6, true, 2⟩), (0x1466C002, .rori ⟨3, 6, true, 2⟩),
    (0x1466C802, .roriW ⟨3, 6, true, 2⟩), (0x18668012, .slti ⟨3, 6, true, 18⟩),
    (0x1866A012, .sltni ⟨3, 6, true, 18⟩), (0x1866C012, .seqi ⟨3, 6, true, 18⟩),
    (0x1866E012, .snei ⟨3, 6, true, 18⟩), (0x1C668012, .mini ⟨3, 6, true, 18⟩),
    (0x1C66A012, .maxi ⟨3, 6, true, 18⟩), (0x1C66C012, .minni ⟨3, 6, true, 18⟩),
    (0x1C66E012, .maxni ⟨3, 6, true, 18⟩), (0x20600012, .lui 3 18)] : List (IWord × Instr)).all names = true := by decide +kernel

theorem test_decode_bit_fields_products_compares : ([
    (0x2466824D, .bfx ⟨3, 6, true, 9, 13⟩), (0x2466A24D, .bfxn ⟨3, 6, true, 9, 13⟩),
    (0x2466C24D, .bfi ⟨3, 6, true, 9, 13⟩), (0x2466E800, .bfxReg ⟨3, 6, true, 8, false⟩),
    (0x2466E840, .bfxnReg ⟨3, 6, true, 8, false⟩), (0x2466E880, .bfiReg ⟨3, 6, true, 8, false⟩),
    (0x28664400, .mul ⟨3, 6, 8, true, false⟩), (0x28664500, .mulW ⟨3, 6, 8, true, false⟩),
    (0x28664401, .mulh ⟨3, 6, 8, true, false⟩), (0x28664501, .mulhW ⟨3, 6, 8, true, false⟩),
    (0x28664402, .mulhn ⟨3, 6, 8, true, false⟩), (0x28664502, .mulhnW ⟨3, 6, 8, true, false⟩),
    (0x28664403, .div ⟨3, 6, 8, true, false⟩), (0x28664503, .divW ⟨3, 6, 8, true, false⟩),
    (0x28664404, .divn ⟨3, 6, 8, true, false⟩), (0x28664504, .divnW ⟨3, 6, 8, true, false⟩),
    (0x28664405, .rem ⟨3, 6, 8, true, false⟩), (0x28664505, .remW ⟨3, 6, 8, true, false⟩),
    (0x28664406, .remn ⟨3, 6, 8, true, false⟩), (0x28664506, .remnW ⟨3, 6, 8, true, false⟩),
    (0x2C664402, .lea ⟨3, 6, 8, true, false⟩ 2), (0x30664400, .slt ⟨3, 6, 8, true, false⟩),
    (0x30664500, .sltW ⟨3, 6, 8, true, false⟩), (0x30664401, .sltn ⟨3, 6, 8, true, false⟩),
    (0x30664501, .sltnW ⟨3, 6, 8, true, false⟩), (0x30664402, .seq ⟨3, 6, 8, true, false⟩),
    (0x30664502, .seqW ⟨3, 6, 8, true, false⟩), (0x30664403, .sne ⟨3, 6, 8, true, false⟩),
    (0x30664503, .sneW ⟨3, 6, 8, true, false⟩), (0x30664404, .sel ⟨3, 6, 8, true, false⟩)] : List (IWord × Instr)).all names = true := by decide +kernel

theorem test_decode_branches : ([
    (0x40C8800D, .beq ⟨6, 8, true, false, 13⟩), (0x44C8800D, .bne ⟨6, 8, true, false, 13⟩),
    (0x48C8800D, .blt ⟨6, 8, true, false, 13⟩), (0x4CC8800D, .bge ⟨6, 8, true, false, 13⟩),
    (0x50C8800D, .bltn ⟨6, 8, true, false, 13⟩), (0x54C8800D, .bgen ⟨6, 8, true, false, 13⟩), (0x5800000D, .j 13),
    (0x5C00000D, .jal 13), (0x60060400, .jr ⟨0, 6, 0, true, false⟩), (0x60660401, .jalr ⟨3, 6, 0, true, false⟩),
    (0x64C0800D, .loop ⟨6, 0, true, false, 13⟩)] : List (IWord × Instr)).all names = true := by decide +kernel

theorem test_decode_memory : ([
    (0x6866920D, .ld ⟨3, 6, true, 1, 1, 13⟩), (0x6C66920D, .st ⟨3, 6, true, 1, 1, 13⟩),
    (0x70664481, .atom ⟨3, 6, 8, true, false, 2, 0, 1⟩), (0x74600100, .femark true ⟨3, 0, 0, false, false⟩),
    (0x74660101, .fetest true ⟨3, 6, 0, false, false⟩), (0x74060102, .fewait true ⟨0, 6, 0, false, false⟩)] : List (IWord × Instr)).all names = true := by decide +kernel

theorem test_decode_vector_integer_and_float : ([
    (0x80664780, .vadd ⟨3, 6, 8, 15, 0⟩), (0x80664781, .vsub ⟨3, 6, 8, 15, 0⟩),
    (0x80664782, .vmul ⟨3, 6, 8, 15, 0⟩), (0x80664783, .vmulh ⟨3, 6, 8, 15, 0⟩),
    (0x80664784, .vimin ⟨3, 6, 8, 15, 0⟩), (0x80664785, .vimax ⟨3, 6, 8, 15, 0⟩),
    (0x80664786, .vand ⟨3, 6, 8, 15, 0⟩), (0x80664787, .vor ⟨3, 6, 8, 15, 0⟩),
    (0x80664788, .vxor ⟨3, 6, 8, 15, 0⟩), (0x80664789, .vshl ⟨3, 6, 8, 15, 0⟩),
    (0x8066478A, .vshr ⟨3, 6, 8, 15, 0⟩), (0x8066478B, .vsar ⟨3, 6, 8, 15, 0⟩),
    (0x8066078C, .vabs ⟨3, 6, 0, 15, 0⟩), (0x846647C0, .vfadd ⟨3, 6, 8, 15, 4⟩),
    (0x846647C1, .vfsub ⟨3, 6, 8, 15, 4⟩), (0x846647C2, .vfmul ⟨3, 6, 8, 15, 4⟩),
    (0x846647C3, .vfma ⟨3, 6, 8, 15, 4⟩), (0x846647C4, .vfms ⟨3, 6, 8, 15, 4⟩),
    (0x846647C5, .vdiv ⟨3, 6, 8, 15, 4⟩), (0x846607C6, .vsqrt ⟨3, 6, 0, 15, 4⟩),
    (0x846647C7, .vmin ⟨3, 6, 8, 15, 4⟩), (0x846647C8, .vmax ⟨3, 6, 8, 15, 4⟩),
    (0x846647C9, .vminn ⟨3, 6, 8, 15, 4⟩), (0x846647CA, .vmaxn ⟨3, 6, 8, 15, 4⟩),
    (0x846607CB, .vfabs ⟨3, 6, 0, 15, 4⟩), (0x846607CC, .vfneg ⟨3, 6, 0, 15, 4⟩)] : List (IWord × Instr)).all names = true := by decide +kernel

theorem test_decode_vector_conversions_and_moves : ([
    (0x88660F80, .vcvt ⟨3, 6, 1, 15, 0⟩), (0x88861F81, .vcvtw ⟨4, 6, 3, 15, 0⟩),
    (0x88660FA2, .vcvtn ⟨3, 6, 1, 15, 2⟩), (0x886647C3, .venc4 ⟨3, 6, 8, 15, 4⟩),
    (0x888647C4, .vdec4 ⟨4, 6, 8, 15, 4⟩), (0x88660785, .vmov ⟨3, 6, 0, 15, 0⟩),
    (0x88600106, .vsplat ⟨3, 0, 0, 2, 0⟩), (0x88600787, .viota ⟨3, 0, 0, 15, 0⟩),
    (0x88660108, .vget ⟨3, 6, 0, 2, 0⟩), (0x88600109, .vset ⟨3, 0, 0, 2, 0⟩),
    (0x8C664780, .vperm ⟨3, 6, 8, 15, 0⟩), (0x8C664781, .vzip ⟨3, 6, 8, 15, 0⟩),
    (0x8C664782, .vunzip ⟨3, 6, 8, 15, 0⟩), (0x8C660103, .vrot ⟨3, 6, 0, 2, 0⟩),
    (0x8C664104, .vslideup ⟨3, 6, 8, 2, 0⟩), (0x8C664105, .vslidedn ⟨3, 6, 8, 2, 0⟩),
    (0x8C664786, .vcompress ⟨3, 6, 8, 15, 0⟩), (0x8C660787, .vexpand ⟨3, 6, 0, 15, 0⟩),
    (0x8C660788, .vrev ⟨3, 6, 0, 15, 0⟩)] : List (IWord × Instr)).all names = true := by decide +kernel

theorem test_decode_vector_masks_functions_memory : ([
    (0x90A640C0, .vfcmp ⟨5, 6, 8, 1, 4⟩), (0x90A64081, .vicmp ⟨5, 6, 8, 1, 0⟩),
    (0x90A61F82, .kand ⟨5, 6, 3, 15, 0⟩), (0x90A61F83, .kor ⟨5, 6, 3, 15, 0⟩),
    (0x90A61F84, .kxor ⟨5, 6, 3, 15, 0⟩), (0x90A61F85, .kandn ⟨5, 6, 3, 15, 0⟩),
    (0x90A60786, .knot ⟨5, 6, 0, 15, 0⟩), (0x90660787, .kpopc ⟨3, 6, 0, 15, 0⟩),
    (0x90660788, .kfirst ⟨3, 6, 0, 15, 0⟩), (0x946607C0, .vexp2 ⟨3, 6, 0, 15, 4⟩),
    (0x946607C1, .vlog2 ⟨3, 6, 0, 15, 4⟩), (0x946607C2, .vrcp ⟨3, 6, 0, 15, 4⟩),
    (0x946607C3, .vrsqrt ⟨3, 6, 0, 15, 4⟩), (0x946607C4, .vtanh ⟨3, 6, 0, 15, 4⟩),
    (0x946607C5, .vsigm ⟨3, 6, 0, 15, 4⟩), (0x94660786, .vsum ⟨3, 6, 0, 15, 0⟩),
    (0x94860787, .vscan ⟨4, 6, 0, 15, 0⟩), (0x94660788, .vrmax ⟨3, 6, 0, 15, 0⟩),
    (0x94660789, .vrmin ⟨3, 6, 0, 15, 0⟩), (0x98600100, .vld ⟨3, 0, 0, 2, 0⟩), (0x98600101, .vst ⟨3, 0, 0, 2, 0⟩),
    (0x98600102, .vlds ⟨3, 0, 0, 2, 0⟩), (0x98600103, .vsts ⟨3, 0, 0, 2, 0⟩), (0x98604124, .vldx ⟨3, 0, 8, 2, 2⟩),
    (0x98604125, .vstx ⟨3, 0, 8, 2, 2⟩), (0x9BC00106, .qld ⟨30, 0, 0, 2, 0⟩), (0x98600137, .vlsld ⟨3, 0, 0, 2, 3⟩),
    (0x98600138, .vlsst ⟨3, 0, 0, 2, 3⟩)] : List (IWord × Instr)).all names = true := by decide +kernel

theorem test_decode_fragments_and_tables : ([
    (0xA0464400, .flease ⟨2, 6, 8, true, false⟩), (0xA0464401, .fleaseFix ⟨2, 6, 8, true, false⟩),
    (0xA0400010, .ffree ⟨2, 0, 0, false, false⟩), (0xA0464420, .fsplit ⟨2, 6, 8, true, false⟩),
    (0xA0464421, .fsplitDiscard ⟨2, 6, 8, true, false⟩), (0xA0464430, .ffuse ⟨2, 6, 8, true, false⟩),
    (0xA0464431, .ffuseDiscard ⟨2, 6, 8, true, false⟩), (0xA0460440, .fchain ⟨2, 6, 0, true, false⟩),
    (0xA0400050, .funchain ⟨2, 0, 0, false, false⟩), (0xA0404060, .fquery ⟨2, 0, 8, false, false⟩),
    (0xA4464400, .tload ⟨2, 6, 8, true, false⟩), (0xA4464401, .tloadKeep ⟨2, 6, 8, true, false⟩),
    (0xA4464410, .tnest ⟨2, 6, 8, true, false⟩), (0xA4400020, .tgo ⟨2, 0, 0, false, false⟩),
    (0xA4400030, .tstop ⟨2, 0, 0, false, false⟩), (0xA4400031, .tstopMark ⟨2, 0, 0, false, false⟩),
    (0xA4464440, .tbase ⟨2, 6, 8, true, false⟩), (0xA4464441, .tbaseNow ⟨2, 6, 8, true, false⟩),
    (0xA4460450, .trestart ⟨2, 6, 0, true, false⟩), (0xA4404060, .tstat ⟨2, 0, 8, false, false⟩),
    (0xA4404061, .tstatIdx0 ⟨2, 0, 8, false, false⟩), (0xA4404062, .tstatIdx4 ⟨2, 0, 8, false, false⟩),
    (0xA4404063, .tstatEseq ⟨2, 0, 8, false, false⟩), (0xA4404064, .tstatEhw ⟨2, 0, 8, false, false⟩),
    (0xA4404068, .tstatClr ⟨2, 0, 8, false, false⟩)] : List (IWord × Instr)).all names = true := by decide +kernel

theorem test_decode_channels_and_windows : ([
    (0xA8464400, .chopen ⟨2, 6, 8, true, false⟩), (0xA8464401, .chopenRx ⟨2, 6, 8, true, false⟩),
    (0xA8464416, .cpy ⟨2, 6, 8, true, false⟩ true 2), (0xA8464422, .cpym ⟨2, 6, 8, true, false⟩ 2),
    (0xA8464436, .gth ⟨2, 6, 8, true, false⟩ true 2), (0xA8404040, .chwm ⟨2, 0, 8, false, false⟩),
    (0xA8460450, .chwait ⟨2, 6, 0, true, false⟩), (0xA8464460, .chsum ⟨2, 6, 8, true, false⟩),
    (0xA8464461, .chsumExp ⟨2, 6, 8, true, false⟩), (0xA8464462, .chsumClr ⟨2, 6, 8, true, false⟩),
    (0xA8464463, .chsumStat ⟨2, 6, 8, true, false⟩), (0xA8464464, .chsumSlip ⟨2, 6, 8, true, false⟩),
    (0xA8464465, .chsumSeq ⟨2, 6, 8, true, false⟩), (0xA8400070, .chclose ⟨2, 0, 0, false, false⟩),
    (0xA8400071, .chcloseDiscard ⟨2, 0, 0, false, false⟩), (0xA8464480, .cbcfg ⟨2, 6, 8, true, false⟩),
    (0xA8460490, .cbpop ⟨2, 6, 0, true, false⟩), (0xAC664400, .wopenExp ⟨3, 6, 8, true, false⟩),
    (0xAC664401, .wopenImp ⟨3, 6, 8, true, false⟩), (0xAC864412, .wwr ⟨4, 6, 8, true, false⟩ 2),
    (0xAC864422, .wwrs ⟨4, 6, 8, true, false⟩ 2), (0xAC86443A, .watom ⟨4, 6, 8, true, false⟩ true 2),
    (0xAC804040, .wcntSent ⟨4, 0, 8, false, false⟩), (0xAC804041, .wcntAckd ⟨4, 0, 8, false, false⟩),
    (0xAC804042, .wcntRcvd ⟨4, 0, 8, false, false⟩), (0xAC804043, .wcntSig ⟨4, 0, 8, false, false⟩),
    (0xAC804044, .wcntStat ⟨4, 0, 8, false, false⟩), (0xAC860451, .wwaitAckd ⟨4, 6, 0, true, false⟩),
    (0xAC860452, .wwaitRcvd ⟨4, 6, 0, true, false⟩), (0xAC860453, .wwaitSig ⟨4, 6, 0, true, false⟩),
    (0xAC800060, .wclose ⟨4, 0, 0, false, false⟩)] : List (IWord × Instr)).all names = true := by decide +kernel

theorem test_decode_rings_order_barriers_groups : ([
    (0xB0664400, .rngjoin ⟨3, 6, 8, true, false⟩), (0xB0864410, .rngsend ⟨4, 6, 8, true, false⟩),
    (0xB0861C20, .rngwait ⟨4, 6, 3, true, false⟩), (0xB0861C21, .rngwaitOut ⟨4, 6, 3, true, false⟩),
    (0xBC000040, .gexit), (0xB0861C22, .rngwaitStat ⟨4, 6, 3, true, false⟩),
    (0xB0861C23, .rngwaitOwn ⟨4, 6, 3, true, false⟩), (0xB0860430, .rngdone ⟨4, 6, 0, true, false⟩),
    (0xB0800040, .rngleave ⟨4, 0, 0, false, false⟩), (0xB4A00000, .mfence ⟨5, 0, 0, false, false⟩),
    (0xB4A60010, .pfence ⟨5, 6, 0, false, false⟩), (0xB4000022, .rel 2),
    (0xB4860432, .acq ⟨4, 6, 0, true, false⟩ 2), (0xB486043A, .acqH ⟨4, 6, 0, true, false⟩ 2),
    (0xB4660440, .logq ⟨3, 6, 0, true, false⟩), (0xB8864400, .binit ⟨4, 6, 8, true, false⟩),
    (0xB8800010, .barr ⟨4, 0, 0, false, false⟩), (0xB8800020, .bwait ⟨4, 0, 0, false, false⟩),
    (0xB8800030, .barw ⟨4, 0, 0, false, false⟩), (0xB8860440, .bmask ⟨4, 6, 0, true, false⟩),
    (0xB8860450, .bpend ⟨4, 6, 0, true, false⟩), (0xB8804060, .bq ⟨4, 0, 8, false, false⟩),
    (0xBCA00000, .fork ⟨5, 0, 0, false, false⟩), (0xBCA00010, .rdv ⟨5, 0, 0, false, false⟩),
    (0xBC660420, .fpop ⟨3, 6, 0, true, false⟩), (0xBC600030, .grank ⟨3, 0, 0, false, false⟩),
    (0xBC600031, .grankSize ⟨3, 0, 0, false, false⟩), (0xBC600032, .grankNum ⟨3, 0, 0, false, false⟩),
    (0xBC600033, .grankCores ⟨3, 0, 0, false, false⟩), (0xBC600034, .grankDies ⟨3, 0, 0, false, false⟩)] : List (IWord × Instr)).all names = true := by decide +kernel

theorem test_decode_system_and_traps : ([
    (0xC0000000, .nop), (0xC0000001, .halt), (0xC0000009, .eret), (0xC0060402, .sleep ⟨0, 6, 0, true, false⟩),
    (0xC0600003, .time ⟨3, 0, 0, false, false⟩), (0xC0604804, .feat ⟨3, 0, 9, false, false⟩),
    (0xC0660405, .locq ⟨3, 6, 0, true, false⟩), (0xC0600806, .cget ⟨3, 0, 1, false, false⟩),
    (0xC0600C07, .cset ⟨3, 0, 1, true, false⟩), (0xC0064408, .spfmt ⟨0, 6, 8, true, false⟩),
    (0xC066040A, .spfmtq ⟨3, 6, 0, true, false⟩), (0xC4000001, .trap 1), (0xC4001001, .sysc 1), (0xC4002001, .brk 1)] : List (IWord × Instr)).all names = true := by decide +kernel

theorem test_decode_matrix_orders : ([
    (0x0C000000, .wswap), (0x20000000, .tstart), (0x40000000, .haltt), (0x04090000, .nopt 9),
    (0x08440800, .wld 2 1 false 0 1), (0x10461091, .mma 2 1 2 0 1 9 1), (0x14100900, .aclr 8 9),
    (0x18804024, .drain 0 true 0 8 9), (0x1D04C800, .epi 2 false false false 2 false 200),
    (0x28848000, .cbwait 1 9), (0x2C848000, .cbfree 1 9), (0x30800060, .wmwait 1 0 3), (0x34120000, .sigb 9),
    (0x39800000, .nest 3 0), (0x3C000000, .jmpt 0)] : List (IWord × Instr)).all (orders false) = true := by decide +kernel

theorem test_decode_copy_orders : ([
    (0x8C000000, .sumchk), (0x82D80000, .cpo 2 3 1 true), (0x86D80000, .cpot 2 3 1 true),
    (0x8ADA0000, .gto 2 3 1 true 1), (0x34120000, .sigb 9), (0x39800000, .nest 3 0), (0x3C000000, .jmpt 0),
    (0x40000000, .haltt)] : List (IWord × Instr)).all (orders true) = true := by decide +kernel

/-- PQ (R75): major 0x27, k [25:23], zm [22], rm [21:19], ta [18], tb [17], sat [16], before a vadd. -/
theorem test_decode_pq : (decode (wordBytes (0b100111_101_1_010_1_0_1_0000000000000000 : IWord) ++ wordBytes 0x80664780)).toOption =
    some (.pq ⟨5, true, 2, true, false, true⟩ 0x80664780, []) := by decide +kernel
/-- PROOF (R94): major 0x09, seed [25:18], its type bit [17], and the word after it as its literal. -/
theorem test_decode_proof : (decodeOrder false (0b001001_10100101_1_00000000000000000 : IWord) 0x12345678).toOption =
    some (.proof 0xA5 true 0x12345678) := by decide +kernel
theorem test_decode_refuses : (decode (wordBytes 0)).toOption = none ∧ (decode (wordBytes 0x04664481)).toOption = none ∧
    (decode (wordBytes 0xC0200000)).toOption = none ∧ (decode [0x01, 0x44]).toOption = none := by decide +kernel

/-! ### Well-formedness: each check refuses a term that breaks it alone -/

theorem test_ill_formed_1 : ([
    .clz ⟨3, 6, 1, true, false⟩, .clz ⟨3, 6, 0, true, true⟩, .clzW ⟨3, 6, 1, true, false⟩,
    .clzW ⟨3, 6, 0, true, true⟩, .ctz ⟨3, 6, 1, true, false⟩, .ctz ⟨3, 6, 0, true, true⟩,
    .ctzW ⟨3, 6, 1, true, false⟩, .ctzW ⟨3, 6, 0, true, true⟩, .popc ⟨3, 6, 1, true, false⟩,
    .popc ⟨3, 6, 0, true, true⟩, .popcW ⟨3, 6, 1, true, false⟩, .popcW ⟨3, 6, 0, true, true⟩,
    .bswap ⟨3, 6, 1, true, false⟩, .bswap ⟨3, 6, 0, true, true⟩, .bswapW ⟨3, 6, 1, true, false⟩,
    .bswapW ⟨3, 6, 0, true, true⟩, .shliW ⟨3, 6, true, 32⟩, .shriW ⟨3, 6, true, 32⟩, .sariW ⟨3, 6, true, 32⟩,
    .roliW ⟨3, 6, true, 32⟩, .roriW ⟨3, 6, true, 32⟩, .jr ⟨1, 6, 0, true, false⟩, .jr ⟨0, 6, 1, true, false⟩,
    .jr ⟨0, 6, 0, true, true⟩, .jalr ⟨3, 6, 1, true, false⟩, .jalr ⟨3, 6, 0, true, true⟩,
    .loop ⟨6, 1, true, false, 13⟩, .loop ⟨6, 0, true, true, 13⟩, .st ⟨3, 6, true, 4, 1, 13⟩,
    .atom ⟨3, 6, 8, true, false, 2, 5, 1⟩, .femark true ⟨3, 1, 0, false, false⟩,
    .femark true ⟨3, 0, 1, false, false⟩, .femark true ⟨3, 0, 0, true, false⟩, .femark true ⟨3, 0, 0, false, true⟩,
    .fetest true ⟨3, 6, 1, false, false⟩, .fetest true ⟨3, 6, 0, true, false⟩, .fetest true ⟨3, 6, 0, false, true⟩,
    .fewait true ⟨1, 6, 0, false, false⟩, .fewait true ⟨0, 6, 1, false, false⟩,
    .fewait true ⟨0, 6, 0, true, false⟩, .fewait true ⟨0, 6, 0, false, true⟩, .flease ⟨4, 6, 8, true, false⟩,
    .fleaseFix ⟨4, 6, 8, true, false⟩, .ffree ⟨2, 1, 0, false, false⟩, .ffree ⟨2, 0, 1, false, false⟩,
    .ffree ⟨2, 0, 0, true, false⟩, .ffree ⟨2, 0, 0, false, true⟩, .ffree ⟨4, 0, 0, false, false⟩,
    .fsplit ⟨2, 6, 8, true, true⟩, .fsplit ⟨4, 6, 8, true, false⟩, .fsplitDiscard ⟨2, 6, 8, true, true⟩,
    .fsplitDiscard ⟨4, 6, 8, true, false⟩, .ffuse ⟨2, 6, 8, true, true⟩, .ffuse ⟨4, 6, 8, true, false⟩,
    .ffuseDiscard ⟨2, 6, 8, true, true⟩, .ffuseDiscard ⟨4, 6, 8, true, false⟩, .fchain ⟨2, 6, 1, true, false⟩,
    .fchain ⟨2, 6, 0, true, true⟩, .fchain ⟨4, 6, 0, true, false⟩, .funchain ⟨2, 1, 0, false, false⟩,
    .funchain ⟨2, 0, 1, false, false⟩, .funchain ⟨2, 0, 0, true, false⟩, .funchain ⟨2, 0, 0, false, true⟩,
    .funchain ⟨4, 0, 0, false, false⟩, .fquery ⟨2, 1, 8, false, false⟩, .fquery ⟨2, 0, 8, true, false⟩,
    .fquery ⟨2, 0, 8, false, true⟩, .fquery ⟨4, 0, 8, false, false⟩, .tload ⟨4, 6, 8, true, false⟩,
    .tload ⟨16, 6, 8, true, false⟩, .tloadKeep ⟨4, 6, 8, true, false⟩, .tloadKeep ⟨16, 6, 8, true, false⟩,
    .tnest ⟨4, 6, 8, true, false⟩, .tnest ⟨16, 6, 8, true, false⟩, .tgo ⟨2, 1, 0, false, false⟩,
    .tgo ⟨2, 0, 1, false, false⟩, .tgo ⟨2, 0, 0, true, false⟩, .tgo ⟨2, 0, 0, false, true⟩,
    .tgo ⟨4, 0, 0, false, false⟩, .tgo ⟨16, 0, 0, false, false⟩, .tstop ⟨2, 1, 0, false, false⟩,
    .tstop ⟨2, 0, 1, false, false⟩, .tstop ⟨2, 0, 0, true, false⟩, .tstop ⟨2, 0, 0, false, true⟩,
    .tstop ⟨4, 0, 0, false, false⟩, .tstop ⟨16, 0, 0, false, false⟩, .tstopMark ⟨2, 1, 0, false, false⟩,
    .tstopMark ⟨2, 0, 1, false, false⟩, .tstopMark ⟨2, 0, 0, true, false⟩, .tstopMark ⟨2, 0, 0, false, true⟩,
    .tstopMark ⟨4, 0, 0, false, false⟩, .tstopMark ⟨16, 0, 0, false, false⟩, .tbase ⟨4, 6, 8, true, false⟩,
    .tbase ⟨16, 6, 8, true, false⟩, .tbaseNow ⟨4, 6, 8, true, false⟩, .tbaseNow ⟨16, 6, 8, true, false⟩,
    .trestart ⟨2, 6, 1, true, false⟩, .trestart ⟨2, 6, 0, true, true⟩, .trestart ⟨4, 6, 0, true, false⟩,
    .trestart ⟨16, 6, 0, true, false⟩, .tstat ⟨2, 1, 8, false, false⟩, .tstat ⟨2, 0, 8, true, false⟩,
    .tstat ⟨2, 0, 8, false, true⟩, .tstat ⟨4, 0, 8, false, false⟩, .tstat ⟨16, 0, 8, false, false⟩,
    .tstatIdx0 ⟨2, 1, 8, false, false⟩, .tstatIdx0 ⟨2, 0, 8, true, false⟩, .tstatIdx0 ⟨2, 0, 8, false, true⟩,
    .tstatIdx0 ⟨4, 0, 8, false, false⟩, .tstatIdx0 ⟨16, 0, 8, false, false⟩] : List Instr).all (fun i => !i.wf) = true := by decide +kernel

theorem test_ill_formed_2 : ([
    .tstatIdx4 ⟨2, 1, 8, false, false⟩, .tstatIdx4 ⟨2, 0, 8, true, false⟩, .tstatIdx4 ⟨2, 0, 8, false, true⟩,
    .tstatIdx4 ⟨4, 0, 8, false, false⟩, .tstatIdx4 ⟨16, 0, 8, false, false⟩, .tstatEseq ⟨2, 1, 8, false, false⟩,
    .tstatEseq ⟨2, 0, 8, true, false⟩, .tstatEseq ⟨2, 0, 8, false, true⟩, .tstatEseq ⟨4, 0, 8, false, false⟩,
    .tstatEseq ⟨16, 0, 8, false, false⟩, .tstatEhw ⟨2, 1, 8, false, false⟩, .tstatEhw ⟨2, 0, 8, true, false⟩,
    .tstatEhw ⟨2, 0, 8, false, true⟩, .tstatEhw ⟨4, 0, 8, false, false⟩, .tstatEhw ⟨16, 0, 8, false, false⟩,
    .tstatClr ⟨2, 1, 8, false, false⟩, .tstatClr ⟨2, 0, 8, true, false⟩, .tstatClr ⟨2, 0, 8, false, true⟩,
    .tstatClr ⟨4, 0, 8, false, false⟩, .tstatClr ⟨16, 0, 8, false, false⟩, .chopen ⟨8, 6, 8, true, false⟩,
    .chopenRx ⟨8, 6, 8, true, false⟩, .cpy ⟨8, 6, 8, true, false⟩ true 2, .cpy ⟨2, 7, 8, true, false⟩ true 2,
    .cpy ⟨2, 30, 8, true, false⟩ true 2, .cpy ⟨2, 6, 7, true, false⟩ true 2, .cpy ⟨2, 6, 30, true, false⟩ true 2,
    .cpym ⟨8, 6, 8, true, false⟩ 2, .cpym ⟨2, 7, 8, true, false⟩ 2, .cpym ⟨2, 30, 8, true, false⟩ 2,
    .cpym ⟨2, 6, 7, true, false⟩ 2, .cpym ⟨2, 6, 30, true, false⟩ 2, .gth ⟨8, 6, 8, true, false⟩ true 2,
    .gth ⟨2, 7, 8, true, false⟩ true 2, .gth ⟨2, 30, 8, true, false⟩ true 2, .gth ⟨2, 6, 7, true, false⟩ true 2,
    .gth ⟨2, 6, 30, true, false⟩ true 2, .chwm ⟨2, 1, 8, false, false⟩, .chwm ⟨2, 0, 8, true, false⟩,
    .chwm ⟨2, 0, 8, false, true⟩, .chwm ⟨8, 0, 8, false, false⟩, .chwait ⟨2, 6, 1, true, false⟩,
    .chwait ⟨2, 6, 0, true, true⟩, .chwait ⟨8, 6, 0, true, false⟩, .chsum ⟨2, 6, 8, true, true⟩,
    .chsum ⟨8, 6, 8, true, false⟩, .chsumExp ⟨2, 6, 8, true, true⟩, .chsumExp ⟨8, 6, 8, true, false⟩,
    .chsumClr ⟨2, 6, 8, true, true⟩, .chsumClr ⟨8, 6, 8, true, false⟩, .chsumStat ⟨2, 6, 8, true, true⟩,
    .chsumStat ⟨8, 6, 8, true, false⟩, .chsumSlip ⟨2, 6, 8, true, true⟩, .chsumSlip ⟨8, 6, 8, true, false⟩,
    .chsumSeq ⟨2, 6, 8, true, true⟩, .chsumSeq ⟨8, 6, 8, true, false⟩, .chclose ⟨2, 1, 0, false, false⟩,
    .chclose ⟨2, 0, 1, false, false⟩, .chclose ⟨2, 0, 0, true, false⟩, .chclose ⟨2, 0, 0, false, true⟩,
    .chclose ⟨8, 0, 0, false, false⟩, .chcloseDiscard ⟨2, 1, 0, false, false⟩,
    .chcloseDiscard ⟨2, 0, 1, false, false⟩, .chcloseDiscard ⟨2, 0, 0, true, false⟩,
    .chcloseDiscard ⟨2, 0, 0, false, true⟩, .chcloseDiscard ⟨8, 0, 0, false, false⟩, .cbcfg ⟨8, 6, 8, true, false⟩,
    .cbpop ⟨2, 6, 1, true, false⟩, .cbpop ⟨2, 6, 0, true, true⟩, .cbpop ⟨8, 6, 0, true, false⟩,
    .wcntSent ⟨4, 1, 8, false, false⟩, .wcntSent ⟨4, 0, 8, true, false⟩, .wcntSent ⟨4, 0, 8, false, true⟩,
    .wcntAckd ⟨4, 1, 8, false, false⟩, .wcntAckd ⟨4, 0, 8, true, false⟩, .wcntAckd ⟨4, 0, 8, false, true⟩,
    .wcntRcvd ⟨4, 1, 8, false, false⟩, .wcntRcvd ⟨4, 0, 8, true, false⟩, .wcntRcvd ⟨4, 0, 8, false, true⟩,
    .wcntSig ⟨4, 1, 8, false, false⟩, .wcntSig ⟨4, 0, 8, true, false⟩, .wcntSig ⟨4, 0, 8, false, true⟩,
    .wcntStat ⟨4, 1, 8, false, false⟩, .wcntStat ⟨4, 0, 8, true, false⟩, .wcntStat ⟨4, 0, 8, false, true⟩,
    .wwaitAckd ⟨4, 6, 1, true, false⟩, .wwaitAckd ⟨4, 6, 0, true, true⟩, .wwaitRcvd ⟨4, 6, 1, true, false⟩,
    .wwaitRcvd ⟨4, 6, 0, true, true⟩, .wwaitSig ⟨4, 6, 1, true, false⟩, .wwaitSig ⟨4, 6, 0, true, true⟩,
    .wclose ⟨4, 1, 0, false, false⟩, .wclose ⟨4, 0, 1, false, false⟩, .wclose ⟨4, 0, 0, true, false⟩,
    .wclose ⟨4, 0, 0, false, true⟩, .rngwait ⟨4, 6, 3, true, true⟩, .rngwaitOut ⟨4, 6, 3, true, true⟩,
    .rngwaitStat ⟨4, 6, 3, true, true⟩, .rngwaitOwn ⟨4, 6, 3, true, true⟩, .rngdone ⟨4, 6, 1, true, false⟩,
    .rngdone ⟨4, 6, 0, true, true⟩, .rngleave ⟨4, 1, 0, false, false⟩, .rngleave ⟨4, 0, 1, false, false⟩,
    .rngleave ⟨4, 0, 0, true, false⟩, .rngleave ⟨4, 0, 0, false, true⟩, .mfence ⟨5, 1, 0, false, false⟩,
    .mfence ⟨5, 0, 1, false, false⟩, .mfence ⟨5, 0, 0, true, false⟩, .mfence ⟨5, 0, 0, false, true⟩,
    .pfence ⟨5, 6, 1, false, false⟩] : List Instr).all (fun i => !i.wf) = true := by decide +kernel

theorem test_ill_formed_3 : ([
    .pfence ⟨5, 6, 0, true, false⟩, .pfence ⟨5, 6, 0, false, true⟩, .acq ⟨4, 6, 1, true, false⟩ 2,
    .acq ⟨4, 6, 0, true, true⟩ 2, .acqH ⟨4, 6, 1, true, false⟩ 2, .acqH ⟨4, 6, 0, true, true⟩ 2,
    .logq ⟨3, 6, 1, true, false⟩, .logq ⟨3, 6, 0, true, true⟩, .barr ⟨4, 1, 0, false, false⟩,
    .barr ⟨4, 0, 1, false, false⟩, .barr ⟨4, 0, 0, true, false⟩, .barr ⟨4, 0, 0, false, true⟩,
    .bwait ⟨4, 1, 0, false, false⟩, .bwait ⟨4, 0, 1, false, false⟩, .bwait ⟨4, 0, 0, true, false⟩,
    .bwait ⟨4, 0, 0, false, true⟩, .barw ⟨4, 1, 0, false, false⟩, .barw ⟨4, 0, 1, false, false⟩,
    .barw ⟨4, 0, 0, true, false⟩, .barw ⟨4, 0, 0, false, true⟩, .bmask ⟨4, 6, 1, true, false⟩,
    .bmask ⟨4, 6, 0, true, true⟩, .bpend ⟨4, 6, 1, true, false⟩, .bpend ⟨4, 6, 0, true, true⟩,
    .bq ⟨4, 1, 8, false, false⟩, .bq ⟨4, 0, 8, true, false⟩, .bq ⟨4, 0, 8, false, true⟩,
    .fork ⟨5, 1, 0, false, false⟩, .fork ⟨5, 0, 1, false, false⟩, .fork ⟨5, 0, 0, true, false⟩,
    .fork ⟨5, 0, 0, false, true⟩, .rdv ⟨5, 1, 0, false, false⟩, .rdv ⟨5, 0, 1, false, false⟩,
    .rdv ⟨5, 0, 0, true, false⟩, .rdv ⟨5, 0, 0, false, true⟩, .fpop ⟨3, 6, 1, true, false⟩,
    .fpop ⟨3, 6, 0, true, true⟩, .grank ⟨3, 1, 0, false, false⟩, .grank ⟨3, 0, 1, false, false⟩,
    .grank ⟨3, 0, 0, true, false⟩, .grank ⟨3, 0, 0, false, true⟩, .grankSize ⟨3, 1, 0, false, false⟩,
    .grankSize ⟨3, 0, 1, false, false⟩, .grankSize ⟨3, 0, 0, true, false⟩, .grankSize ⟨3, 0, 0, false, true⟩,
    .grankNum ⟨3, 1, 0, false, false⟩, .grankNum ⟨3, 0, 1, false, false⟩, .grankNum ⟨3, 0, 0, true, false⟩,
    .grankNum ⟨3, 0, 0, false, true⟩, .grankCores ⟨3, 1, 0, false, false⟩, .grankCores ⟨3, 0, 1, false, false⟩,
    .grankCores ⟨3, 0, 0, true, false⟩, .grankCores ⟨3, 0, 0, false, true⟩, .grankDies ⟨3, 1, 0, false, false⟩,
    .grankDies ⟨3, 0, 1, false, false⟩, .grankDies ⟨3, 0, 0, true, false⟩, .grankDies ⟨3, 0, 0, false, true⟩,
    .sleep ⟨1, 6, 0, true, false⟩, .sleep ⟨0, 6, 1, true, false⟩, .sleep ⟨0, 6, 0, true, true⟩,
    .time ⟨3, 1, 0, false, false⟩, .time ⟨3, 0, 1, false, false⟩, .time ⟨3, 0, 0, true, false⟩,
    .time ⟨3, 0, 0, false, true⟩, .feat ⟨3, 1, 9, false, false⟩, .feat ⟨3, 0, 9, true, false⟩,
    .feat ⟨3, 0, 9, false, true⟩, .feat ⟨3, 0, 16, false, false⟩, .locq ⟨3, 6, 1, true, false⟩,
    .locq ⟨3, 6, 0, true, true⟩, .cget ⟨3, 0, 1, true, false⟩, .cget ⟨3, 0, 1, false, true⟩,
    .cget ⟨3, 0, 5, false, false⟩, .cset ⟨3, 0, 1, true, true⟩, .cset ⟨3, 0, 5, true, false⟩,
    .spfmt ⟨1, 6, 8, true, false⟩, .spfmtq ⟨3, 6, 1, true, false⟩, .spfmtq ⟨3, 6, 0, true, true⟩,
    .vadd ⟨28, 6, 8, 15, 0⟩, .vadd ⟨3, 6, 8, 14, 0⟩, .vadd ⟨3, 6, 8, 15, 4⟩, .vsub ⟨28, 6, 8, 15, 0⟩,
    .vsub ⟨3, 6, 8, 14, 0⟩, .vsub ⟨3, 6, 8, 15, 4⟩, .vmul ⟨28, 6, 8, 15, 0⟩, .vmul ⟨3, 6, 8, 14, 0⟩,
    .vmul ⟨3, 6, 8, 15, 4⟩, .vmulh ⟨28, 6, 8, 15, 0⟩, .vmulh ⟨3, 6, 8, 14, 0⟩, .vmulh ⟨3, 6, 8, 15, 4⟩,
    .vimin ⟨28, 6, 8, 15, 0⟩, .vimin ⟨3, 6, 8, 14, 0⟩, .vimin ⟨3, 6, 8, 15, 4⟩, .vimax ⟨28, 6, 8, 15, 0⟩,
    .vimax ⟨3, 6, 8, 14, 0⟩, .vimax ⟨3, 6, 8, 15, 4⟩, .vand ⟨28, 6, 8, 15, 0⟩, .vand ⟨3, 6, 8, 14, 0⟩,
    .vand ⟨3, 6, 8, 15, 4⟩, .vor ⟨28, 6, 8, 15, 0⟩, .vor ⟨3, 6, 8, 14, 0⟩, .vor ⟨3, 6, 8, 15, 4⟩,
    .vxor ⟨28, 6, 8, 15, 0⟩, .vxor ⟨3, 6, 8, 14, 0⟩, .vxor ⟨3, 6, 8, 15, 4⟩, .vshl ⟨28, 6, 8, 15, 0⟩,
    .vshl ⟨3, 6, 8, 14, 0⟩, .vshl ⟨3, 6, 8, 15, 4⟩, .vshr ⟨28, 6, 8, 15, 0⟩, .vshr ⟨3, 6, 8, 14, 0⟩] : List Instr).all (fun i => !i.wf) = true := by decide +kernel

theorem test_ill_formed_4 : ([
    .vshr ⟨3, 6, 8, 15, 4⟩, .vsar ⟨28, 6, 8, 15, 0⟩, .vsar ⟨3, 6, 8, 14, 0⟩, .vsar ⟨3, 6, 8, 15, 4⟩,
    .vabs ⟨28, 6, 0, 15, 0⟩, .vabs ⟨3, 6, 0, 14, 0⟩, .vabs ⟨3, 6, 1, 15, 0⟩, .vabs ⟨3, 6, 0, 15, 4⟩,
    .vfadd ⟨28, 6, 8, 15, 4⟩, .vfadd ⟨3, 6, 8, 14, 4⟩, .vfadd ⟨3, 6, 8, 15, 3⟩, .vfsub ⟨28, 6, 8, 15, 4⟩,
    .vfsub ⟨3, 6, 8, 14, 4⟩, .vfsub ⟨3, 6, 8, 15, 3⟩, .vfmul ⟨28, 6, 8, 15, 4⟩, .vfmul ⟨3, 6, 8, 14, 4⟩,
    .vfmul ⟨3, 6, 8, 15, 3⟩, .vfma ⟨28, 6, 8, 15, 4⟩, .vfma ⟨3, 6, 8, 14, 4⟩, .vfma ⟨3, 6, 8, 15, 3⟩,
    .vfms ⟨28, 6, 8, 15, 4⟩, .vfms ⟨3, 6, 8, 14, 4⟩, .vfms ⟨3, 6, 8, 15, 3⟩, .vdiv ⟨28, 6, 8, 15, 4⟩,
    .vdiv ⟨3, 6, 8, 14, 4⟩, .vdiv ⟨3, 6, 8, 15, 3⟩, .vmin ⟨28, 6, 8, 15, 4⟩, .vmin ⟨3, 6, 8, 14, 4⟩,
    .vmin ⟨3, 6, 8, 15, 3⟩, .vmax ⟨28, 6, 8, 15, 4⟩, .vmax ⟨3, 6, 8, 14, 4⟩, .vmax ⟨3, 6, 8, 15, 3⟩,
    .vminn ⟨28, 6, 8, 15, 4⟩, .vminn ⟨3, 6, 8, 14, 4⟩, .vminn ⟨3, 6, 8, 15, 3⟩, .vmaxn ⟨28, 6, 8, 15, 4⟩,
    .vmaxn ⟨3, 6, 8, 14, 4⟩, .vmaxn ⟨3, 6, 8, 15, 3⟩, .vsqrt ⟨28, 6, 0, 15, 4⟩, .vsqrt ⟨3, 6, 0, 14, 4⟩,
    .vsqrt ⟨3, 6, 1, 15, 4⟩, .vsqrt ⟨3, 6, 0, 15, 3⟩, .vfabs ⟨28, 6, 0, 15, 4⟩, .vfabs ⟨3, 6, 0, 14, 4⟩,
    .vfabs ⟨3, 6, 1, 15, 4⟩, .vfabs ⟨3, 6, 0, 15, 3⟩, .vfneg ⟨28, 6, 0, 15, 4⟩, .vfneg ⟨3, 6, 0, 14, 4⟩,
    .vfneg ⟨3, 6, 1, 15, 4⟩, .vfneg ⟨3, 6, 0, 15, 3⟩, .vcvt ⟨28, 6, 1, 15, 0⟩, .vcvt ⟨3, 6, 1, 14, 0⟩,
    .vcvt ⟨3, 6, 8, 15, 0⟩, .vcvt ⟨3, 6, 7, 15, 0⟩, .vcvtw ⟨4, 6, 3, 3, 0⟩, .vcvtw ⟨4, 6, 8, 15, 0⟩,
    .vcvtw ⟨27, 6, 3, 15, 0⟩, .vcvtw ⟨4, 6, 7, 15, 0⟩, .vcvtn ⟨28, 6, 1, 15, 2⟩, .vcvtn ⟨3, 6, 1, 14, 2⟩,
    .vcvtn ⟨3, 6, 8, 15, 2⟩, .vcvtn ⟨3, 27, 1, 15, 2⟩, .vcvtn ⟨3, 6, 7, 15, 2⟩, .venc4 ⟨28, 6, 8, 15, 4⟩,
    .venc4 ⟨3, 6, 8, 14, 4⟩, .venc4 ⟨3, 6, 8, 15, 3⟩, .venc4 ⟨3, 27, 8, 15, 4⟩, .vdec4 ⟨4, 6, 8, 15, 3⟩,
    .vdec4 ⟨4, 6, 8, 3, 4⟩, .vdec4 ⟨27, 6, 8, 15, 4⟩, .vmov ⟨28, 6, 0, 15, 0⟩, .vmov ⟨3, 6, 0, 14, 0⟩,
    .vmov ⟨3, 6, 1, 15, 0⟩, .vsplat ⟨3, 0, 0, 15, 0⟩, .vsplat ⟨3, 0, 1, 2, 0⟩, .vsplat ⟨3, 1, 0, 2, 0⟩,
    .vsplat ⟨28, 0, 0, 2, 0⟩, .vset ⟨3, 0, 0, 15, 0⟩, .vset ⟨3, 0, 1, 2, 0⟩, .vset ⟨3, 1, 0, 2, 0⟩,
    .vset ⟨28, 0, 0, 2, 0⟩, .viota ⟨28, 0, 0, 15, 0⟩, .viota ⟨3, 0, 0, 14, 0⟩, .viota ⟨3, 0, 1, 15, 0⟩,
    .viota ⟨3, 0, 0, 15, 7⟩, .viota ⟨3, 1, 0, 15, 0⟩, .vget ⟨3, 6, 0, 15, 0⟩, .vget ⟨3, 6, 1, 2, 0⟩,
    .vperm ⟨28, 6, 8, 15, 0⟩, .vperm ⟨3, 6, 8, 14, 0⟩, .vzip ⟨28, 6, 8, 15, 0⟩, .vzip ⟨3, 6, 8, 14, 0⟩,
    .vunzip ⟨28, 6, 8, 15, 0⟩, .vunzip ⟨3, 6, 8, 14, 0⟩, .vcompress ⟨28, 6, 8, 15, 0⟩, .vcompress ⟨3, 6, 8, 14, 0⟩,
    .vexpand ⟨28, 6, 0, 15, 0⟩, .vexpand ⟨3, 6, 0, 14, 0⟩, .vexpand ⟨3, 6, 1, 15, 0⟩, .vrev ⟨28, 6, 0, 15, 0⟩,
    .vrev ⟨3, 6, 0, 14, 0⟩, .vrev ⟨3, 6, 1, 15, 0⟩, .vrot ⟨3, 6, 0, 15, 0⟩, .vrot ⟨3, 6, 1, 2, 0⟩,
    .vrot ⟨28, 6, 0, 2, 0⟩, .vslideup ⟨3, 6, 8, 15, 0⟩, .vslideup ⟨28, 6, 8, 2, 0⟩, .vslidedn ⟨3, 6, 8, 15, 0⟩,
    .vslidedn ⟨28, 6, 8, 2, 0⟩, .vfcmp ⟨5, 6, 8, 1, 3⟩] : List Instr).all (fun i => !i.wf) = true := by decide +kernel

theorem test_ill_formed_5 : ([
    .vfcmp ⟨8, 6, 8, 1, 4⟩, .vfcmp ⟨5, 6, 8, 8, 4⟩, .vicmp ⟨5, 6, 8, 1, 4⟩, .vicmp ⟨8, 6, 8, 1, 0⟩,
    .vicmp ⟨5, 6, 8, 6, 0⟩, .kand ⟨8, 6, 3, 15, 0⟩, .kand ⟨5, 8, 3, 15, 0⟩, .kand ⟨5, 6, 8, 15, 0⟩,
    .kand ⟨5, 6, 3, 14, 0⟩, .kand ⟨5, 6, 3, 15, 1⟩, .kor ⟨8, 6, 3, 15, 0⟩, .kor ⟨5, 8, 3, 15, 0⟩,
    .kor ⟨5, 6, 8, 15, 0⟩, .kor ⟨5, 6, 3, 14, 0⟩, .kor ⟨5, 6, 3, 15, 1⟩, .kxor ⟨8, 6, 3, 15, 0⟩,
    .kxor ⟨5, 8, 3, 15, 0⟩, .kxor ⟨5, 6, 8, 15, 0⟩, .kxor ⟨5, 6, 3, 14, 0⟩, .kxor ⟨5, 6, 3, 15, 1⟩,
    .kandn ⟨8, 6, 3, 15, 0⟩, .kandn ⟨5, 8, 3, 15, 0⟩, .kandn ⟨5, 6, 8, 15, 0⟩, .kandn ⟨5, 6, 3, 14, 0⟩,
    .kandn ⟨5, 6, 3, 15, 1⟩, .knot ⟨5, 6, 1, 15, 0⟩, .knot ⟨8, 6, 0, 15, 0⟩, .knot ⟨5, 8, 0, 15, 0⟩,
    .knot ⟨5, 6, 0, 14, 0⟩, .knot ⟨5, 6, 0, 15, 1⟩, .kpopc ⟨3, 6, 0, 3, 0⟩, .kpopc ⟨3, 6, 1, 15, 0⟩,
    .kpopc ⟨3, 8, 0, 15, 0⟩, .kfirst ⟨3, 6, 0, 3, 0⟩, .kfirst ⟨3, 6, 1, 15, 0⟩, .kfirst ⟨3, 8, 0, 15, 0⟩,
    .vexp2 ⟨28, 6, 0, 15, 4⟩, .vexp2 ⟨3, 6, 0, 14, 4⟩, .vexp2 ⟨3, 6, 1, 15, 4⟩, .vexp2 ⟨3, 6, 0, 15, 3⟩,
    .vlog2 ⟨28, 6, 0, 15, 4⟩, .vlog2 ⟨3, 6, 0, 14, 4⟩, .vlog2 ⟨3, 6, 1, 15, 4⟩, .vlog2 ⟨3, 6, 0, 15, 3⟩,
    .vrcp ⟨28, 6, 0, 15, 4⟩, .vrcp ⟨3, 6, 0, 14, 4⟩, .vrcp ⟨3, 6, 1, 15, 4⟩, .vrcp ⟨3, 6, 0, 15, 3⟩,
    .vrsqrt ⟨28, 6, 0, 15, 4⟩, .vrsqrt ⟨3, 6, 0, 14, 4⟩, .vrsqrt ⟨3, 6, 1, 15, 4⟩, .vrsqrt ⟨3, 6, 0, 15, 3⟩,
    .vtanh ⟨28, 6, 0, 15, 4⟩, .vtanh ⟨3, 6, 0, 14, 4⟩, .vtanh ⟨3, 6, 1, 15, 4⟩, .vtanh ⟨3, 6, 0, 15, 3⟩,
    .vsigm ⟨28, 6, 0, 15, 4⟩, .vsigm ⟨3, 6, 0, 14, 4⟩, .vsigm ⟨3, 6, 1, 15, 4⟩, .vsigm ⟨3, 6, 0, 15, 3⟩,
    .vsum ⟨28, 6, 0, 15, 0⟩, .vsum ⟨3, 6, 0, 14, 0⟩, .vsum ⟨3, 6, 1, 15, 0⟩, .vsum ⟨3, 6, 0, 15, 2⟩,
    .vscan ⟨4, 6, 0, 15, 2⟩, .vscan ⟨4, 6, 0, 3, 0⟩, .vscan ⟨4, 6, 1, 15, 0⟩, .vscan ⟨27, 6, 0, 15, 0⟩,
    .vrmax ⟨28, 6, 0, 15, 0⟩, .vrmax ⟨3, 6, 0, 14, 0⟩, .vrmax ⟨3, 6, 1, 15, 0⟩, .vrmax ⟨3, 6, 0, 15, 7⟩,
    .vrmin ⟨28, 6, 0, 15, 0⟩, .vrmin ⟨3, 6, 0, 14, 0⟩, .vrmin ⟨3, 6, 1, 15, 0⟩, .vrmin ⟨3, 6, 0, 15, 7⟩,
    .vld ⟨3, 1, 0, 2, 0⟩, .vld ⟨3, 0, 1, 2, 0⟩, .vld ⟨3, 0, 0, 15, 0⟩, .vld ⟨28, 0, 0, 2, 0⟩,
    .vlds ⟨3, 1, 0, 2, 0⟩, .vlds ⟨3, 0, 1, 2, 0⟩, .vlds ⟨3, 0, 0, 15, 0⟩, .vlds ⟨28, 0, 0, 2, 0⟩,
    .vst ⟨3, 1, 0, 2, 0⟩, .vst ⟨3, 0, 1, 2, 0⟩, .vst ⟨3, 0, 0, 15, 0⟩, .vsts ⟨3, 1, 0, 2, 0⟩,
    .vsts ⟨3, 0, 1, 2, 0⟩, .vsts ⟨3, 0, 0, 15, 0⟩, .vldx ⟨3, 0, 8, 2, 7⟩, .vldx ⟨3, 0, 8, 2, 1⟩,
    .vldx ⟨3, 1, 8, 2, 2⟩, .vldx ⟨3, 0, 8, 15, 2⟩, .vldx ⟨28, 0, 8, 2, 2⟩, .vstx ⟨3, 0, 8, 2, 7⟩,
    .vstx ⟨3, 0, 8, 2, 1⟩, .vstx ⟨3, 1, 8, 2, 2⟩, .vstx ⟨3, 0, 8, 15, 2⟩, .qld ⟨30, 1, 0, 2, 0⟩,
    .qld ⟨30, 0, 1, 2, 0⟩, .qld ⟨30, 0, 0, 15, 0⟩, .qld ⟨27, 0, 0, 2, 0⟩, .vlsld ⟨3, 1, 0, 2, 3⟩,
    .vlsld ⟨3, 0, 1, 2, 3⟩, .vlsld ⟨3, 0, 0, 15, 3⟩, .vlsld ⟨28, 0, 0, 2, 3⟩, .vlsld ⟨3, 0, 0, 2, 2⟩,
    .vlsst ⟨3, 1, 0, 2, 3⟩, .vlsst ⟨3, 0, 1, 2, 3⟩] : List Instr).all (fun i => !i.wf) = true := by decide +kernel

theorem test_ill_formed_6 : ([
    .vlsst ⟨3, 0, 0, 15, 3⟩, .vlsst ⟨3, 0, 0, 2, 2⟩, .ld ⟨3, 6, true, 7, 1, 13⟩, .ld ⟨3, 6, true, 1, 7, 13⟩,
    .st ⟨3, 6, true, 1, 7, 13⟩, .atom ⟨3, 6, 8, true, false, 2, 0, 7⟩, .atom ⟨3, 6, 8, true, false, 3, 4, 1⟩,
    .femark true ⟨28, 0, 0, false, false⟩, .fetest true ⟨3, 28, 0, false, false⟩,
    .fewait true ⟨0, 28, 0, false, false⟩, .pq ⟨0, false, 0, false, false, false⟩ 0x04664401, .wld 2 0 false 0 1,
    .mma 2 0 2 0 1 9 1, .mma 2 1 3 0 1 9 1, .mma 2 1 2 0 3 9 1, .nest 6 8, .watom ⟨4, 6, 8, true, false⟩ true 7,
    .rel 7, .acq ⟨4, 6, 0, true, false⟩ 7, .acqH ⟨4, 6, 0, true, false⟩ 7, .epi 4 false false false 2 false 200] : List Instr).all (fun i => !i.wf) = true := by decide +kernel
/-! ### One step, on small states -/

/-- The outcome is a next state of which a check holds. -/
def after (r : Result State) (p : State → Bool) : Bool :=
  match r with
  | .next t => p t
  | _ => false

/-- Two outcomes are the same next state. -/
def same (r q : Result State) : Bool :=
  match r, q with
  | .next t, .next u => decide (t = u)
  | _, _ => false

/-- The package after reset with some registers of firmware core 0, which is in focus. -/
def fw (g : SMap Word) : State := State.reset.setMe { State.reset.me with g := g }
/-- A user strand on core 1 of die 0, in focus, of context 5. -/
def userStrand (g : SMap Word) : Strand :=
  { Strand.start with st := .running, asid := some 5, pc := 0x1000, g := g }
/-- The package with that strand. -/
def user (g : SMap Word) : State :=
  { (State.reset.setStrand 1 (userStrand g)) with cur := 1, ctxs := [(5, { Ctx.start with st := .live })] }
/-- The same with the strand changed. -/
def userWith (f : Strand → Strand) : State := (user []).setStrand 1 (f (userStrand []))
/-- The value of g3 of the strand in focus, and the next word as its pc, after a step. -/
def g3Is (r : Result State) (x : Word) : Bool := after r (fun t => t.me.gval 3 == x)

/-- The register operations (R147), the wrap of add among them, and the .w forms (R146). -/
theorem test_register_operations :
    let s := fw [(1, 0xFFFFFFFFFFFFFFFF), (2, 0x80000002)]
    let o : OpA := ⟨3, 1, 2, false, false⟩
    (g3Is (exec (.add o) s) 0x80000001 && g3Is (exec (.addW o) s) 0xFFFFFFFF80000001 &&
      g3Is (exec (.sub ⟨3, 2, 1, false, false⟩) s) 0x80000003 && g3Is (exec (.andn o) s) 0xFFFFFFFF7FFFFFFD &&
      g3Is (exec (.shl o) s) 0xFFFFFFFFFFFFFFFC && g3Is (exec (.shrW o) s) 0x3FFFFFFF &&
      g3Is (exec (.sarW ⟨3, 2, 2, false, false⟩) s) 0xFFFFFFFFE0000000 &&
      g3Is (exec (.rolW ⟨3, 2, 2, false, false⟩) s) 0xA && g3Is (exec (.ror ⟨3, 2, 2, false, false⟩) s) 0x8000000020000000 &&
      g3Is (exec (.min o) s) 0xFFFFFFFFFFFFFFFF && g3Is (exec (.minn o) s) 0x80000002 &&
      g3Is (exec (.max o) s) 0x80000002 && g3Is (exec (.maxn o) s) 0xFFFFFFFFFFFFFFFF) = true := by decide +kernel
/-- A write to g0 is discarded, and the pc goes on (R55). -/
theorem test_write_to_g0 :
    after (exec (.addi ⟨0, 0, false, 7⟩) (fw [])) (fun t => t.me.gval 0 == 0 && t.me.pc == 4) = true := by decide +kernel
/-- The worked examples of R148, R149, R151 and R156. -/
theorem test_examples_of_the_spec :
    let s := fw [(1, 0x8000000000000000), (2, 0xFFFFFFFFFFFFFFFF), (4, 0x11223380), (5, 0x100000005), (6, 5)]
    (g3Is (exec (.bswapW ⟨3, 4, 0, false, false⟩) s) 0xFFFFFFFF80332211 &&
      g3Is (exec (.mulh ⟨3, 1, 1, false, false⟩) s) 0x4000000000000000 && g3Is (exec (.mul ⟨3, 1, 1, false, false⟩) s) 0 &&
      g3Is (exec (.mulhn ⟨3, 2, 2, false, false⟩) s) 0xFFFFFFFFFFFFFFFE && g3Is (exec (.seqW ⟨3, 5, 6, false, false⟩) s) 1 &&
      g3Is (exec (.maxni ⟨3, 6, false, 0x1FFF⟩) s) 0xFFFFFFFFFFFFFFFF && g3Is (exec (.lui 3 1) s) 0x80000000000 &&
      g3Is (exec (.clz ⟨3, 0, 0, false, false⟩) s) 64 && g3Is (exec (.ctzW ⟨3, 0, 0, false, false⟩) s) 32 &&
      g3Is (exec (.popc ⟨3, 2, 0, false, false⟩) s) 64) = true := by decide +kernel
/-- The cases of the divisions (R152): what their producers owe. -/
theorem test_divisions :
    let s := fw [(1, 0x8000000000000000), (2, 0xFFFFFFFFFFFFFFFF), (4, 7)]
    let owes (i : Instr) (x : Word) : Bool := after (exec i s) fun t =>
      t.me.pend.map Prod.src == [.word x] && t.me.gst 3 == .pending
    (owes (.div ⟨3, 1, 2, false, false⟩) 0x8000000000000000 && owes (.rem ⟨3, 1, 2, false, false⟩) 0 &&
      owes (.div ⟨3, 4, 0, false, false⟩) 0xFFFFFFFFFFFFFFFF && owes (.remn ⟨3, 4, 0, false, false⟩) 7 &&
      owes (.divnW ⟨3, 4, 0, false, false⟩) 0xFFFFFFFFFFFFFFFF && owes (.rem ⟨3, 2, 4, false, false⟩) 0xFFFFFFFFFFFFFFFF)
      = true := by decide +kernel
/-- Bit fields that reach past bit 63 (R155). -/
theorem test_bit_fields :
    let s := fw [(1, 0xF000000000000000), (3, 0xFF), (2, 0x3C)]
    (g3Is (exec (.bfx ⟨3, 1, false, 8, 60⟩) s) 0xF && g3Is (exec (.bfx ⟨3, 1, false, 4, 60⟩) s) 0xFFFFFFFFFFFFFFFF &&
      g3Is (exec (.bfxn ⟨3, 1, false, 127, 0⟩) s) 0xF000000000000000 && g3Is (exec (.bfi ⟨3, 0, false, 4, 4⟩) s) 0xF &&
      g3Is (exec (.bfi ⟨3, 1, false, 0, 4⟩) s) 0xFF && g3Is (exec (.bfxReg ⟨3, 1, false, 2, false⟩) s) 0) = true := by
  decide +kernel
/-- Branches, jumps and loop (R82, R127 to R129). -/
theorem test_control_transfers :
    let s := fw [(1, 0xFFFFFFFFFFFFFFFF), (2, 1), (4, 0x40)]
    let goes (i : Instr) (pc : Word) : Bool := after (exec i s) fun t => t.me.pc == pc
    (goes (.blt ⟨1, 2, false, false, 5⟩) 20 && goes (.bltn ⟨1, 2, false, false, 5⟩) 4 &&
      goes (.bgen ⟨1, 2, false, false, 0x3FFF⟩) 0xFFFFFFFFFFFFFFFC && goes (.j 0x3FFFFFF) 0xFFFFFFFFFFFFFFFC &&
      goes (.jalr ⟨4, 4, 0, false, false⟩) 0x40 && goes (.loop ⟨2, 0, false, false, 3⟩) 4 &&
      goes (.loop ⟨0, 0, false, false, 3⟩) 12 &&
      after (exec (.jal 2) s) (fun t => t.me.gval 31 == 4 && t.me.pc == 8) &&
      after (exec (.jr ⟨0, 2, 0, false, false⟩) (s.setMe { s.me with tvec := 0x100 })) (fun t =>
        t.me.pc == 0x400 && t.me.cause == 3 && t.me.tval == 1)) = true := by decide +kernel
/-- Little-endian bytes and sign extension in the own scratchpad (R280, R281). -/
theorem test_loads_and_stores :
    let s := fw [(1, 0xFF00000000000040), (2, 0x1122334455667788)]
    (after (exec (.st ⟨2, 1, false, 3, 0, 0⟩) s) fun t =>
      memBytes t.mem (spAddr 0 0x40) 8 == [0x88, 0x77, 0x66, 0x55, 0x44, 0x33, 0x22, 0x11] &&
        g3Is (exec (.ld ⟨3, 1, false, 4, 0, 0⟩) t) 0xFFFFFFFFFFFFFF88 &&
        g3Is (exec (.ld ⟨3, 1, false, 1, 0, 1⟩) t) 0x5566) = true := by decide +kernel
/-- sysc of a user strand saves its own pc, its code and its cause, and waits for firmware (R120, R122, R141). -/
theorem test_sysc :
    after (exec (.sysc 5) (user [])) (fun t => t.me.epc == 0x1000 && t.me.cause == 0x513 && t.me.st == .trapped) = true := by
  decide +kernel
/-! ### Witnesses: for each clause of each statement, a state and operands that meet its hypotheses -/

/-- Firmware core 0 with its strand changed. -/
def fwWith (f : Strand → Strand) : State := State.reset.setMe (f State.reset.me)
/-- A leaf of context 5 for the page at 0x10000: of a tier, at a place. -/
def leafAt (tier pa : Nat) : Leaf := ⟨5, 0x10000, 0x10000, pa, tier, false, false, true, true, true, false, false⟩
/-- The user strand with a leaf in its TLB, and g1 at the page. -/
def paged (tier pa : Nat) : State :=
  let s := user [(1, 0x10000)]
  s.setCore 1 { s.core 1 with tlb := [leafAt tier pa] }

theorem witness_RegisterOperationsWriteTheirResult :
    (fw []).me.Ready 1 ∧ (fw []).me.Ready 2 ∧ (fw []).me.Free 3 := by decide +kernel
theorem witness_ImmediateFormsComputeAsTheirRegisterForms : (fw []).me.Ready 1 ∧ (fw []).me.Free 3 := by decide +kernel
theorem witness_BitsAreCountedReversedAndMoved :
    (fw []).me.Ready 1 ∧ (fw []).me.Ready 2 ∧ (fw []).me.Ready 3 ∧ (fw []).me.Free 3 := by decide +kernel
theorem witness_ComparesSelectionsAndDivisions :
    (fw []).me.Ready 1 ∧ (fw []).me.Ready 2 ∧ (fw []).me.Ready 3 ∧ (fw []).me.Free 3 := by decide +kernel
theorem witness_BranchesAndJumpsTransferControl :
    let s := fw [(1, 0x40), (2, 3)]
    s.me.Ready 1 ∧ s.me.Ready 2 ∧ s.me.Free 31 ∧ s.me.Free 5 ∧ (s.me.gval 1).toNat % 4 = 0 ∧ (s.me.gval 2).toNat % 4 ≠ 0 := by
  decide +kernel
theorem witness_LoopCountsAndRotates : (fw [(1, 1)]).me.Ready 1 := by decide +kernel
theorem witness_FullEmptyOperationsMarkTestAndWait :
    let s := fwWith fun t => { t with gfe := [(1, .pending), (2, .idle)], vfe := [(1, .pending), (2, .idle)] }
    s.me.feOf false 3 ≠ .pending ∧ s.me.feOf true 3 ≠ .pending ∧ s.me.feOf false 1 = .pending ∧
      s.me.feOf true 1 = .pending ∧ s.me.Free 3 ∧ s.me.feOf false 3 = .full ∧ s.me.feOf true 3 = .full ∧
      s.me.feOf false 2 = .idle ∧ s.me.feOf true 2 = .idle := by decide +kernel
theorem witness_SourcesAndDestinationsWaitOrTrap :
    let s := fwWith fun t => { t with gfe := [(1, .pending), (2, .idle)] }
    let p : Reg × Bool → Bool := fun x => s.me.gst x.1.toNat == .pending
    ([(3, false), (2, false)] : List (Reg × Bool)).find? s.me.emptyAt = some (2, false) ∧
      ([(1, true), (2, false)] : List (Reg × Bool)).find? s.me.emptyAt = some (1, true) ∧
      ([(3, false), (1, false)] : List (Reg × Bool)).find? s.me.emptyAt = none ∧
      ([(3, false), (1, false)] : List (Reg × Bool)).find? p = some (1, false) ∧
      ([(3, true)] : List (Reg × Bool)).find? s.me.emptyAt = none ∧ s.me.Ready 3 ∧ s.me.gst 1 = .pending := by decide +kernel
theorem witness_QueriesReadTheTimeTheFeaturesAndThePlace : (fw []).me.Free 3 ∧ (fw []).me.Ready 1 := by decide +kernel
/-- The numbers 0x000 and 0x001, 0x102, 0x103 and 0x1FF, in each mode. -/
theorem witness_ControlRegistersReadAndWrite :
    let f := fw []
    let u := user []
    let o (n : Nat) : OpA := ⟨3, BitVec.ofNat 5 (n / 32), BitVec.ofNat 5 (n % 32), false, false⟩
    f.me.mode = true ∧ f.me.vectorIdle = true ∧ f.me.Free 3 ∧ f.me.Ready 3 ∧ u.me.mode = false ∧ u.me.vectorIdle = true ∧
      u.me.Free 3 ∧ u.me.Ready 3 ∧
      (∀ n ∈ [0x000, 0x001, 0x102, 0x103, 0x1FF], (Instr.cget (o n)).wf = true) ∧
      ∀ n ∈ [0x001, 0x102, 0x103, 0x1FF], (Instr.cset (o n)).wf = true := by decide +kernel
theorem witness_ControlRegisterFieldsHoldWhatTheyAreGiven : (fw []).me.mode = true := by decide +kernel
theorem witness_EretReturnsInOneStep :
    let m := fwWith fun t => { t with epc := 6 }
    (fw []).me.mode = true ∧ (fw []).me.epc.toNat % 4 = 0 ∧ m.me.mode = true ∧ m.me.epc.toNat % 4 ≠ 0 ∧
      (user []).me.mode = false := by decide +kernel
theorem witness_TrapInstructionsEnterTheirTraps :
    (∀ s ∈ [fw [], user [], fwWith fun t => { t with th := true }], s.me.drained = true ∧ s.me.deferred = []) ∧
      (user []).me.mode = false ∧ ((fw []).me.mode = true ∧ (fw []).me.th = false) ∧
      (fwWith fun t => { t with th := true }).me.mode = true ∧ (fwWith fun t => { t with th := true }).me.th = true := by
  decide +kernel
/-- Also with one free entry of the event ring, its last. -/
theorem witness_ATrapSavesAndReports :
    let s := (user []).setCore 0 { (user []).core 0 with evtail := 1023 }
    s.me.drained = true ∧ s.me.deferred = [] ∧ s.me.mode = false ∧ (s.core (64 * (s.cur / 64))).evtail = 1023 ∧
      (s.core (64 * (s.cur / 64))).evtail < (s.core (64 * (s.cur / 64))).evhead + 1024 ∧
      (s.core (64 * (s.cur / 64))).evwait = [] ∧ (fw []).me.drained = true ∧ (fw []).me.deferred = [] ∧
      (fw []).me.mode = true := by decide +kernel
theorem witness_SleepsAndStallsEnd :
    let s := fw [(1, 5)]
    let z := fwWith fun t => { t with st := .sleeping, deadline := some 0 }
    let w := fwWith fun t => { t with st := .sleeping, wake := true }
    let r := fwWith fun t => { t with st := .stalled, why := .reg false 3 }
    let l := fwWith fun t => { t with st := .stalled, why := .log 1 }
    s.me.Ready 1 ∧ (s.me.wake = false ∧ (s.ptime s.cur).toNat < (s.me.gval 1).toNat) ∧
      (s.me.wake = false ∧ s.me.gval 2 = 0) ∧ w.me.wake = true ∧
      (let p := s.setDie 0 { s.die 0 with ptime := 5 }
       p.me.Ready 1 ∧ p.me.gval 1 ≠ 0 ∧ (p.me.gval 1).toNat ≤ (p.ptime p.cur).toNat) ∧
      ((z.strand 0).st = .sleeping ∧ (z.strand 0).deadline = some 0 ∧ (0 : Nat) ≤ (z.ptime 0).toNat) ∧
      ((w.strand 0).st = .sleeping ∧ (w.strand 0).wake = true ∧ (w.strand 0).ss = false ∧ (w.strand 0).reached = false) ∧
      ((r.strand 0).st = .stalled ∧ r.whyMet 0 (r.strand 0) (r.strand 0).why = true) ∧
      (l.strand 0).st = .stalled ∧ (l.strand 0).why = .log 1 ∧ (l.log 0).fits 1 = true := by decide +kernel
/-- The last byte of each scratchpad region, and one past it. -/
theorem witness_RegionsLieWhereTheMapSays :
    (2 ^ 56 ≤ (0x0100000000000000 : Word).toNat ∧ (0x0100000000000000 : Word).toNat < 0xFF00000000000000) ∧
      0xFF40000000000000 ≤ (0xFF40000000000000 : Word).toNat ∧
      (0xFF000000001FFFFF : Word).toNat = 0xFF00000000000000 + 0x1FFFFF ∧ 0x1FFFFF + 1 ≤ 2 ^ 21 ∧
      (0xFF00000000200000 : Word).toNat = 0xFF00000000000000 + 0x200000 ∧
      (0xFF100000001FFFFF : Word).toNat = 0xFF10000000000000 + 0x1FFFFF ∧
      (0xFF20000017FFFFFF : Word).toNat = 0xFF20000000000000 + 0x17FFFFFF ∧ 0x17FFFFFF + 1 ≤ Config.sharedBytes := by
  decide +kernel
/-- A misaligned address; one above 2^56; a range above an open and above a broken channel's watermark; the barrier
window; and a live and a dead line of a barrier page. -/
theorem witness_LoadsAndStoresCheckInOrder :
    let s := fw [(1, 0xFF00000000000001), (2, 0x0100000000000000), (4, 0xFF00000000000040), (5, 0xFF30000000000000)]
    let c := Chan.opened 0xFF00000000000040 64 none
    let g := s.setChan 0 0 c
    let b := s.setChan 0 0 { c with st := .broken }
    let p := paged 3 0x40000
    (∀ r ∈ [1, 2, 3, 4, 5], s.me.Ready r ∧ s.me.Free r) ∧ (s.me.gval 1).toNat % 2 ≠ 0 ∧
      s.place s.cur (s.me.gval 2) 1 .read = .bad 0x05 ∧ s.place s.cur (s.me.gval 4) 1 .read = .at (spAddr 0 0x40) ∧
      g.me.guard 0xFF00000000000040 1 = some (0, .open) ∧ g.place 0 (g.me.gval 4) 1 .write = .at (spAddr 0 0x40) ∧
      b.me.guard 0xFF00000000000040 1 = some (0, .broken) ∧ b.place 0 (b.me.gval 4) 1 .write = .at (spAddr 0 0x40) ∧
      s.Reaches (s.me.gval 5) 8 .write barrierBase ∧ isBarrier barrierBase = true ∧ isBarrierPage barrierBase = false ∧
      p.me.Ready 1 ∧ p.me.Ready 2 ∧ p.Reaches (p.me.gval 1) 8 .write (barrierBase + 2 ^ 40 + 0x40000) ∧
      isBarrierPage (barrierBase + 2 ^ 40 + 0x40000) = true ∧ p.barrierLive (barrierBase + 2 ^ 40 + 0x40000) = false := by
  decide +kernel
/-- A byte of the own scratchpad, with a write of it that waits and without; the shared scratchpad of die 1, the own
quarter of cluster memory, and device memory, in F mode. -/
theorem witness_LoadsReadTheBytesOfTheirPlace :
    let s := fw [(1, 0xFF00000000000040), (2, 0xFF20000000100000), (4, 0x100000), (5, 0xFF10000000000040)]
    let w := s.setMe { s.me with writes := [⟨0, 9, 2, [(spAddr 0 0x40, allBytes [7])]⟩] }
    s.cur < 384 ∧ (∀ r ∈ [1, 2, 4, 5], s.me.Ready r) ∧ s.me.Free 3 ∧ s.me.Free 0 ∧ s.me.storesDone = true ∧
      (∀ x ∈ [s, w], x.Reaches (x.me.gval 1) 8 .read (spAddr 0 0x40) ∧ x.me.storesDone = true ∧
        mfind ((x.touch 0 (x.me.gval 1)).settleWrites 0 (spAddr 0 0x40) 8).failed (spAddr 0 0x40 / 64) = none) ∧
      (s.me.gval 1).toNat / 2 ^ 52 = 0xFF0 ∧ s.Reaches (s.me.gval 2) 8 .read (sharedAddr 0x100000) ∧
      (s.me.gval 2).toNat / 2 ^ 52 ≠ 0xFF0 ∧ s.Reaches (s.me.gval 4) 8 .read 0x100000 ∧
      (s.me.gval 4).toNat / 2 ^ 52 ≠ 0xFF0 ∧ s.Reaches (s.me.gval 5) 8 .read (spAddr 0 0x180040) ∧
      (s.me.gval 5).toNat / 2 ^ 52 ≠ 0xFF0 := by decide +kernel
/-- A producer of core 0 for g3. -/
def owes (src : Src) : State := fwWith fun t => { t with gfe := [(3, .pending)], pend := [⟨.g 3, src, 7, [], none⟩] }
theorem witness_ProducersDeliverOrLeaveIdle :
    let l : Src := .load (sharedAddr 8) 0xFF20000000000008 3
    (∀ x ∈ ([.word 9, l, .error 0x07 1] : List Src), ((owes x).strand 0).pend[0]? = some ⟨.g 3, x, 7, [], none⟩) ∧
      2 ^ 61 ≤ sharedAddr 8 ∧ sharedAddr 8 < 2 ^ 64 ∧ sharedAddr 8 % Machine.sizeOf 3 = 0 ∧
      (owes l).linkDead 0 (sharedAddr 8) = false ∧
      mfind ((owes l).settleWrites 0 (sharedAddr 8) 8).failed (sharedAddr 8 / 64) = none := by decide +kernel
/-- A vector value, and a strided load with two groups to read and with one, its last. -/
theorem witness_ProducersDeliverOrLeaveIdle_vectors :
    let v (src : Src) : State := fwWith fun t => { t with vfe := [(3, .pending)], pend := [⟨.v [3], src, 7, [], some .vlds⟩] }
    let one : LaneReq := ⟨4, false, 0, [(0, 0xFF00000000000040, spAddr 0 0x40)], [], none⟩
    let two : LaneReq := { one with todo := one.todo ++ [(1, 0xFF00000000000240, spAddr 0 0x240)] }
    (∀ x ∈ ([.vec [9], .lanes one, .lanes two] : List Src),
        ((v x).strand 0).pend[0]? = some ⟨.v [3], x, 7, [], some .vlds⟩ ∧ ((v x).strand 0).writes = []) ∧
      (takeGroup [] one.todo).2 = [] ∧ (takeGroup [] two.todo).2 ≠ [] ∧ one.err = none ∧ one.n = 4 ∧
      ∀ r ∈ [one, two], ∀ x ∈ (takeGroup [] r.todo).1, 2 ^ 61 ≤ x.2.2 ∧ x.2.2 < 2 ^ 64 ∧ x.2.2 % 64 + r.n ≤ 64 ∧
        (v (.lanes r)).linkDead 0 x.2.2 = false ∧ mfind (v (.lanes r)).failed (x.2.2 / 64) = none := by decide +kernel
/-- A store to the last bytes of the scratchpad, one to the shared scratchpad, one to global memory with one unit free,
and one with none. -/
theorem witness_StoresWriteTheirBytesOrALogRecord :
    let s := fw [(1, 0xFF000000001FFFF8), (2, 0x1122334455667788), (4, 0x100000), (5, 0xFF20000000000008)]
    let room (n : Nat) := s.setCore 0 { s.core 0 with log := { Log.start with
      recs := [⟨0, n, [⟨0, 0, 0⟩], ⟨0, 0⟩, none, none, none, false⟩], app := 1 } }
    (∀ r ∈ [1, 2, 4, 5], s.me.Ready r) ∧ s.me.vectorMemoryDone = true ∧ s.me.pend = [] ∧ s.me.writes = [] ∧
      s.Reaches (s.me.gval 1) 8 .write (spAddr 0 0x1FFFF8) ∧ isBarrier (spAddr 0 0x1FFFF8) = false ∧
      isGlobal (spAddr 0 0x1FFFF8) = false ∧ (s.me.gval 1).toNat / 2 ^ 52 = 0xFF0 ∧
      s.Reaches (s.me.gval 5) 8 .write (sharedAddr 8) ∧ isBarrier (sharedAddr 8) = false ∧
      isGlobal (sharedAddr 8) = false ∧ (s.me.gval 5).toNat / 2 ^ 52 ≠ 0xFF0 ∧
      s.Reaches (s.me.gval 4) 8 .write 0x100000 ∧ isBarrier 0x100000 = false ∧
      isGlobal 0x100000 = true ∧ (s.log s.cur).occ + 1 < 196608 ∧
      ((room 262143).log 0).occ + 1 ≤ 262144 ∧ 262144 < ((room 262144).log 0).occ + 1 ∧
      (room 262144).Reaches (s.me.gval 4) 8 .write 0x100000 ∧ (room 262144).me.pend = [] := by decide +kernel
/-- No load is outstanding where nothing is. -/
theorem witness_no_load (s : State) (h : s.me.pend = []) (a n : Nat) : s.me.NoLoadAt a n ∧ s.me.NoLoads := by
  constructor <;> intro p hp <;> rw [h] at hp <;> nomatch hp
/-- An add of n64 in the shared scratchpad, a cas in device memory with and without an earlier store that waits, and an
n32 add in host memory. -/
theorem witness_AtomsReadAndWriteAtTheirPlace :
    let s := fw [(1, 0xFF20000000000008), (2, 0x100000), (4, 3)]
    let w := s.setMe { s.me with seq := 5, writes := [⟨0, 9, 2, [(sharedAddr 8, allBytes [7])]⟩] }
    let h := (paged 2 0x20000)
    s.me.Ready 1 ∧ s.me.Ready 2 ∧ s.me.Ready 4 ∧ s.me.Ready 3 ∧ s.me.Free 3 ∧
      s.me.vectorMemoryDone = true ∧ s.me.pend = [] ∧
      s.Reaches (s.me.gval 1) 8 .atom (sharedAddr 8) ∧ isBarrier (sharedAddr 8) = false ∧ isGlobal (sharedAddr 8) = false ∧
      isHost (sharedAddr 8) = false ∧ s.me.atomLeaves s.me.seq = true ∧
      s.Reaches (s.me.gval 2) 4 .atom 0x100000 ∧ isGlobal 0x100000 = true ∧ isHost 0x100000 = false ∧
      w.Reaches (w.me.gval 2) 4 .atom 0x100000 ∧ w.me.atomLeaves w.me.seq = false ∧ w.me.vectorMemoryDone = true ∧
      h.Reaches (h.me.gval 1) 4 .atom (hostBase + 0x20000) ∧ isHost (hostBase + 0x20000) = true ∧ h.me.Ready 1 ∧
      h.me.Ready 2 ∧ h.me.Free 3 ∧ h.me.vectorMemoryDone = true ∧ h.me.pend = [] ∧ h.me.atomLeaves h.me.seq = true := by
  decide +kernel
/-- One at its core, in a scratchpad and in device memory, and one that has left it. -/
theorem witness_AtomsExecuteAtTheHome :
    let r : AtomReq := ⟨0x100008, 0x100008, 0, 3, 0, 5, 0⟩
    let q : AtomReq := ⟨sharedAddr 8, 0xFF20000000000008, 0, 3, 0, 5, 0⟩
    let s := owes (.sent r)
    ((owes (.atom q)).strand 0).firstAtom = some (7, q, false) ∧ ((owes (.atom q)).strand 0).atomLeaves 7 = true ∧
      isGlobal q.pa = false ∧ mfind (owes (.atom q)).failed (q.pa / 64) = none ∧
      ((owes (.atom r)).strand 0).firstAtom = some (7, r, false) ∧ ((owes (.atom r)).strand 0).atomLeaves 7 = true ∧
      isGlobal r.pa = true ∧
      (s.strand 0).firstAtom = some (7, r, true) ∧ r.pa % 8 = 0 ∧ isHost r.pa = false ∧ s.linkDead 0 r.pa = false ∧
      mfind (s.pressLine (r.pa / 64) (s.pressDies 0 r) 0).failed (r.pa / 64) = none ∧
      mfind (s.pressLine (r.pa / 64) (s.pressDies 0 r) 0).poison (r.pa / 64) = none := by decide +kernel
theorem witness_RecordsReachTheirHomes :
    let p : Part := ⟨0x4000, 0xFF, 0x1122334455667788⟩
    let r : Rec := ⟨0, 1, [p], ⟨3, 0⟩, none, none, none, false⟩
    let o : Point := ⟨1, 1, ⟨3, 0⟩, 0, [0]⟩
    let s := State.reset.setCore 0 { State.reset.core 0 with log := { Log.start with
      recs := [r], app := 1, pub := 1, points := [o] } }
    (s.log 0).recs = [r] ∧ r.idx < (s.log 0).pub ∧ r.badHeader = false ∧ r.poison = none ∧
      keyLe (s.lineKey p.line) r.key = true ∧ (s.log 0).points = [o] ∧ 5 ∉ o.reached := by decide +kernel
theorem witness_SpfmtSetsTheFormatOfItsBank :
    let s := fw [(1, 0xFF00000000010000), (2, 7), (4, 8), (5, 0x10000)]
    (∀ r ∈ [1, 2, 4, 5], s.me.Ready r) ∧ s.me.Free 3 ∧ inScratch (s.me.gval 4) = false ∧ inScratch (s.me.gval 1) = true ∧
      s.Reaches (s.me.gval 1) 1 .write (spAddr 0 0x10000) ∧ s.place s.cur (s.me.gval 1) 1 .read = .at (spAddr 0 0x10000) ∧
      (let x : BitVec 32 := (s.me.gval 4).setWidth 32; 8 ≤ x.toNat % 16 ∧ x.toNat % 16 ≤ 14) ∧
      (let x : BitVec 32 := (s.me.gval 5).setWidth 32; x.toNat / 2 ^ 16 ≠ 0) ∧
      (let x : BitVec 32 := (s.me.gval 2).setWidth 32; ¬ (x.toNat / 2 ^ 16 ≠ 0 ∨ (8 ≤ x.toNat % 16 ∧ x.toNat % 16 ≤ 14))) ∧
      s.me.vectorMemoryDone = true ∧ s.me.bankDue (bankOf (spAddr 0 0x10000)) = false ∧ s.fmtDue = [] := by decide +kernel
theorem witness_VectorWordsAreSentAsCommands :
    let s := fw []
    let o : OpV := ⟨3, 6, 8, 15, 0⟩
    serialising .vadd = false ∧ isVMemory .vadd = false ∧ s.me.vocc < 16 + s.me.vweir.toNat ∧ s.me.MaySend .vadd o Pre.none ∧
      s.me.MaySend .vadd o ⟨1, true, 0, false, false, false⟩ ∧ vectorOf 0x80664780 = some (.vadd, o) := by decide +kernel
/-- Every run reaches a place. -/
def reached : Places → Bool
  | .ok _ => true
  | _ => false
/-- The last address of a slice that VLSLD accepts, the first it does not, and a misaligned one. -/
theorem witness_VectorMemoryWordsAreChecked :
    let s := fw [(2, 0xFF00000000000040), (4, 0xFF00000000000041), (6, 1020), (8, 1024), (10, 1022)]
    let o (g : BitVec 4) : OpV := ⟨3, 0, 0, g, 3⟩
    (∀ g ∈ [1, 2, 3, 4, 5], s.me.MaySend .vld (o g) Pre.none ∧ s.me.MaySend .vst (o g) Pre.none ∧
        s.me.MaySend .vlsld (o g) Pre.none) ∧ s.me.vocc < 16 + s.me.vweir.toNat ∧
      memBytesOf (o 1) = 4 ∧ (s.me.gval 4).toNat % 4 ≠ 0 ∧ (s.me.gval 2).toNat % 4 = 0 ∧
      reached (s.places s.cur false (linePieces 9 (s.me.gval 2).toNat 512)) = true ∧
      reached (s.places s.cur true (linePieces 9 (s.me.gval 2).toNat 512)) = true ∧
      s.me.guards (linePieces 9 (s.me.gval 2).toNat 512) = none ∧ s.me.MaySend .qld ⟨28, 0, 0, 1, 3⟩ Pre.none ∧
      (mget s.me.vq 0 []).length < 4 + (s.me.vqweir.contains 0).toNat := by decide +kernel
/-- What a serialising word of four cases computes is FORMAT, or is not. -/
noncomputable def computesFormat (s : State) (op : VOp) (o : OpV) : Bool :=
  (((s.me.taken op o).input (s.vcmd op o)).compute op o).1 == .format
/-- The lanes of a strided or indexed word meet every hypothesis: 128 of them, in scratchpad memory. -/
noncomputable def lanesReach (s : State) (op : VOp) (o : OpV) : Bool :=
  let c := s.vcmd op o
  let x := (s.me.taken op o).input c
  let ls := activeLanes c x.act x.b
  ls.length == 128 && ls.all (fun l => l.2 % memBytesOf o == 0) &&
    (s.me.guards (ls.map (fun l => (l.2, memBytesOf o)))).isNone &&
    match (s.inCommandOrder s.cur).places s.cur (isVStore op) (ls.map (fun l => (l.2, memBytesOf o))) with
    | .ok ps => ps.all (fun p => decide (2 ^ 61 ≤ p.1) && decide (p.1 < 2 ^ 64) && decide (p.1 % 64 + p.2 ≤ 64) &&
        (mfind s.failed (p.1 / 64)).isNone) && !s.me.qldBefore s.me.seq ps
    | _ => false
/-- venc4 with band scale 1 and with 0, vdec4 of a segment of zeros and of ones; and the four accesses, of 128 lanes in
the own scratchpad. -/
theorem witness_SerialisingWordsRunWhole :
    let s := fwWith fun t => { t with
      g := [(2, 0xFF00000000000040), (3, 64)], v := [(5, 0x3F80), (6, BitVec.allOnes 4096)] }
    let v : OpV := ⟨3, 0, 8, 1, 3⟩
    let e (b : BitVec 5) : OpV := ⟨3, 8, b, 15, 4⟩
    let d (a : BitVec 5) : OpV := ⟨8, a, 5, 15, 4⟩
    (∀ op ∈ [VOp.vlds, .vldx, .vsts, .vstx], serialising op = true ∧ s.me.MaySend op v Pre.none ∧ lanesReach s op v = true) ∧
      s.me.vcq = [] ∧ s.me.vocc < 16 + s.me.vweir.toNat ∧ s.me.pend = [] ∧ s.me.vbad = [] ∧ s.me.vq = [] ∧
      s.me.MaySend .venc4 (e 5) Pre.none ∧ s.me.MaySend .vdec4 (d 0) Pre.none ∧
      computesFormat s .venc4 (e 5) = false ∧ computesFormat s .venc4 (e 8) = true ∧
      computesFormat s .vdec4 (d 0) = false ∧ computesFormat s .vdec4 (d 6) = true ∧
      s.me.atomDue s.me.seq = false ∧ s.me.writes = [] ∧ (s.log s.cur).fits 0 = true := by decide +kernel
/-- A command of firmware core 0's queue, over two filled entries of operand queue 0, with the strand changed. -/
def heads (c : VCmd) (f : Strand → Strand) : State :=
  fwWith fun t => f { t with vcq := [c], vq := [(0, List.replicate 2 ⟨.full, 0, 0, 0x55, [], 0⟩)] }
/-- The head of that queue can start: a check that decides. -/
def canStart (s : State) (c : VCmd) : Bool :=
  let t := s.strand 0
  decide (t.vcq = [c]) && decide (t.pend = []) && !t.lanesDue && decide (t.vbad = []) &&
    t.vq.all (fun q => q.2.all (fun e => decide (e.fe = .full))) && decide (t.Holds c.o.va 0) &&
    decide (t.Holds c.o.vb (secondPop c.o))
theorem headReady_of_canStart {s : State} {c : VCmd} (h : canStart s c = true) : s.HeadReady 0 c [] := by
  simp only [canStart, Bool.and_eq_true, decide_eq_true_eq, Bool.not_eq_true', List.all_eq_true] at h
  obtain ⟨⟨⟨⟨⟨⟨h1, h2⟩, h3⟩, h4⟩, h5⟩, h6⟩, h7⟩ := h
  exact ⟨by decide, h1, ⟨fun p hp => (by rw [h2] at hp; cases hp), h3, h4, h5⟩, h6, h7⟩
def cmdOf (op : VOp) (o : OpV) : VCmd := ⟨5, op, o, ⟨1, true, 0, false, false, false⟩, 0, 0, 0, []⟩
theorem range_nodup (a n : Nat) : (List.range' a n).Nodup := List.nodup_range'
/-- A VLD and a VST of the own scratchpad, with some and with no active bytes; their places differ
(`range_nodup`). -/
theorem witness_VectorMemoryWordsAreChecked_starts :
    let ps : List (Nat × Nat) := (List.range 8).map (fun i => (spAddr 0 (0x40 + 64 * i), 64))
    let c (op : VOp) : VCmd := { cmdOf op ⟨3, 0, 0, 1, 3⟩ with pieces := ps }
    let s (op : VOp) (k : PReg) : State := heads (c op) fun t => { t with k := [(1, k)] }
    (∀ e ∈ ([(.vld, 0), (.vld, 0x11), (.vst, 0), (.vst, 0x11)] : List (VOp × PReg)),
      let s := s e.1 e.2
      canStart s (c e.1) = true ∧ (s.strand 0).atomDue 5 = false ∧
        (s.strand 0).writes = [] ∧ (s.strand 0).pend = [] ∧ (s.strand 0).Holds 3 0 ∧ (s.log 0).fits 0 = true ∧
        ∀ p ∈ ps, s.linkDead 0 p.1 = false ∧ mfind s.failed (p.1 / 64) = none) ∧
      InScratch ps ∧ (entryAddrs ps).length = 512 ∧ entryAddrs ps = List.range' (spAddr 0 0x40) 512 ∧
      (let k := ((s .vst 0x11).strand 0).kval (physK 0 1); activeLane k 32 0 = true ∧ activeLane k 32 2 = false) ∧
      activeAt (((s .vst 0).strand 0).kval (physK 0 1)) 32 = [] := by decide +kernel
/-- Commands of each kind at the head of the queue, from registers and from an operand queue twice. -/
theorem witness_LanesComputeByThemselves :
    let o : OpV := ⟨3, 6, 8, 15, 3⟩
    (∀ e ∈ Said.lanes, (e.2.1 0 = true ∨ e.2.1 4 = true)) ∧
    (∀ op ∈ [VOp.vadd, .vexpand, .vcompress, .vset, .vget, .kpopc, .kfirst, .kand, .vicmp, .vrmax, .vrmin, .vcvt, .vcvtw, .vcvtn],
      ∀ q ∈ [o, { o with va := 28, vb := 28 }], canStart (heads (cmdOf op q) id) (cmdOf op q) = true) ∧
    o.vd.toNat < 28 ∧ o.ty.toNat < 4 ∧ cvtTy { o with vb := 3 } = o.ty ∧
    (∃ e ∈ Said.icmps, ({ o with gp := 4 } : OpV).gp.toNat = e.1) ∧
    (let c : OpV := { o with ty := 4, gp := 2 }; 4 ≤ c.ty.toNat ∧ c.ty.toNat < 7 ∧ c.gp.toNat < 8) ∧
    ((tyWidth (cvtTy { o with ty := 0, vb := 3 }) = 4 * tyWidth 0 ∧ 3 + 4 ≤ 28) ∧
      tyWidth 3 = 4 * tyWidth (cvtTy { o with vb := 0 }) ∧ 6 + 4 ≤ 28) := by decide +kernel
theorem witness_QueuesReductionsAndFloats :
    let ps : List (Nat × Nat) := (List.range 8).map (fun i => (spAddr 0 (0x40 + 64 * i), 64))
    let e : QEntry := ⟨.pending, 0xFF00000000000040, 0, 0, ps, 0⟩
    let q := fwWith fun t => { t with vq := [(1, [e])] }
    let c : RedCmd := ⟨1, 7, false, 0, 0, [true], false, [], []⟩
    let b := fwWith fun t => { t with
      why := .queueFull 1, st := .stalled, blocked := some 0, vq := [(1, [e, e, e, e])] }
    let l : State := { b with now := 4096 }
    let a : Agent := .strand 0
    let f : FloatTok := ⟨a, .operand 0 1, 4096, [(a, 2)]⟩
    (q.strand 0).firstQld = some (1, 0) ∧ (mget (q.strand 0).vq 1 [])[0]? = some e ∧ InScratch e.pieces ∧
      (entryAddrs e.pieces).length = 512 ∧ (q.strand 0).atomDue e.seq = false ∧ (q.strand 0).coreWritesDone = true ∧
      (∀ p ∈ e.pieces, q.linkDead 0 p.1 = false ∧ mfind q.failed (p.1 / 64) = none) ∧
      (∀ op ∈ [VOp.vsum, .vscan], canStart (heads (cmdOf op ⟨3, 6, 8, 15, 3⟩) id) (cmdOf op ⟨3, 6, 8, 15, 3⟩) = true) ∧
      nextRed (mget [] 0 3) [c] = some c ∧
      agentThere a = true ∧ l.blockedOn a = some (.operand 0 1) ∧ l.blockedSince a = some 0 ∧ 0 + 4096 ≤ l.now ∧
      l.floats = [] ∧ f.copies.find? (fun c => c.1 == f.origin) = some (a, 2) ∧ l.blockedOn f.origin = some f.queue := by
  decide +kernel
/-- A fragment of 1 by 1 tiles at the origin of die 0, its table running at word 0. -/
def runningFrag : Frag := orderFrag { Tbl.start with st := .running, words := [0, 0] }
/-- Firmware core 0 with some fragments; table 0 is in focus. -/
def withFrags (l : SMap Frag) : State := fwWith fun t => { t with frag := l, g := [(1, 1), (2, 0x101), (4, 4)] }
/-- A lease request of 1 by 1 tiles by core 0 for f0. -/
def leaseReq : LeaseReq := ⟨0, none, 0, 0, 0, 0, none, false, 1, 0, none, none⟩
/-- Die 0 with some requests, at a tick. -/
def requesting (l : List LeaseReq) (now : Nat) : State :=
  { State.reset.setDie 0 { State.reset.die 0 with reqs := l, ptime := 1, arb := true } with now := now }

/-- Shapes of 16 by 16 tiles (the largest) and of log 5. -/
theorem witness_LeasesAreRequestedAndEnd :
    let s := fw [(1, 0x4400), (2, 0x500)]
    let w := fwWith fun t => { t with wait := some ⟨1, 0, 0, 0⟩ }
    let r : LeaseReq := ⟨0, none, 2, 65536, 4, 4, none, false, 0, 0, none, none⟩
    s.me.wait = none ∧ s.me.Ready 1 ∧ s.me.Ready 3 ∧ mfind s.me.frag 2 = none ∧ s.queueOf s.cur = 65536 ∧
      (s.me.gval 1).toNat / 256 % 8 = 4 ∧ (s.me.gval 1).toNat / 4096 % 8 = 4 ∧ (s.me.gval 1).toNat % 256 = 0 ∧
      s.worldOf s.cur = false ∧ s.me.mode = true ∧ s.neverFits 0 r = false ∧
      s.neverFits 0 { r with fix := some (0, 0) } = false ∧ 4 < (s.me.gval 2).toNat / 256 % 8 ∧
      (mfind (withFrags [(2, runningFrag)]).me.frag 2).isSome = true ∧ w.me.wait.isSome = true ∧ (w.die 0).reqs = [] ∧
      (let q : LeaseReq := { leaseReq with grant := some (0, 0, 3) }
       ((requesting [q] 0).die 0).reqs.find? (fun q => q.core == 0 && q.grant.isSome) = some q ∧
         (requesting [q] 0).cur = 0 ∧ (requesting [q] 0).me.ss = false) := by decide +kernel
theorem witness_TheAllocatorGrantsReservesAndScrubs :
    let s := requesting [leaseReq] 65536
    let g := requesting [{ leaseReq with grant := some (0, 0, 3) }] 0
    let again : LeaseReq := { leaseReq with grant := some (0, 0, 3), regrant := some 7 }
    let i : Image := { strand := Strand.start, was := 1, time := 0, fmt := [], scratch := [], slices := [],
                       reclaimed := [(0, runningFrag)], regranted := [], windows := [], bad := none }
    let b : State := { requesting [again] 0 with images := [(512 * 7 + 0, i)] }
    let c := s.setDie 0 { s.die 0 with scrub := [(5, 0, true)] }
    let full := s.setDie 0 { s.die 0 with seqs := List.range 16 }
    (s.die 0).arb = true ∧ (b.die 0).reqs.find? (fun r => r.core == 0 && r.grant.isSome) = some again ∧
      again.regrant = some 7 ∧ mfind b.images (512 * 7 + 0) = some i ∧
      i.reclaimed.find? (fun x => x.1 == again.h) = some (0, runningFrag) ∧ (s.strand 0).ss = false ∧
      (s.die 0).reqs = [leaseReq] ∧ leaseReq.grant = none ∧ (s.canPlace 0 leaseReq).isSome = true ∧
      (s.die 0).freeSeq = some 0 ∧ (s.die 0).resv = none ∧ leaseReq.tick + 65536 ≤ s.now ∧
      (s.reserveRect 0 leaseReq).isSome = true ∧
      (g.die 0).reqs.find? (fun r => r.core == 0 && r.grant.isSome) = some { leaseReq with grant := some (0, 0, 3) } ∧
      leaseReq.regrant = none ∧ (c.die 0).scrub = [(5, 0, true)] ∧ 0 ≤ c.now ∧ leaseReq.deadline ≠ 0 ∧
      leaseReq.deadline.toNat ≤ (full.ptime 0).toNat ∧ full.canPlace 0 leaseReq = none ∧
      (full.die 0).reqs = [leaseReq] := by decide +kernel
/-- An fsplit to f1 of the upper half (g1 = 1) and of the left half (g6), an ffuse of two neighbours, an fquery. -/
theorem witness_FragmentsAreFreedSplitAndFused :
    let f : Frag := { runningFrag with lh := 1, lw := 1, tbl := Tbl.start }
    let g : Frag := { f with row0 := 2, seq := 1 }
    let s := withFrags [(0, f)]
    let p := withFrags [(0, f), (1, g)]
    let d := s.setDie 0 { s.die 0 with seqs := [0] }
    let l := withFrags [(0, { f with link := some ⟨1, [], false, 0, 0, 0⟩ }), (1, g)]
    (mfind l.me.frag 0 = some { f with link := some ⟨1, [], false, 0, 0, 0⟩ } ∧ mfind l.me.frag 1 = some g ∧ l.me.Free 5 ∧
      (∀ y ∈ l.me.frag, y.1 < 4 ∧ y.2.row0 < 16 ∧ y.2.col0 < 16 ∧ y.2.lh < 8 ∧ y.2.lw < 8 ∧ y.2.seq < 16 ∧ y.2.die < 8) ∧
      mfind l.me.frag 3 = none) ∧
    s.me.wait = none ∧ mfind s.me.frag 0 = some f ∧ f.tbl.busy = false ∧ f.reshaping = false ∧ s.me.Ready 1 ∧
      s.me.Ready 2 ∧ s.me.Free 5 ∧ f.suspect = false ∧ s.me.linked 0 = false ∧ (s.me.gval 1).toNat % 4 = 1 ∧
      mfind s.me.frag 1 = none ∧ (s.me.gval 2).toNat % 4 = 1 ∧ f.bankEmpty = true ∧ f.tbl.st ≠ .faulted ∧
      (d.die f.die).freeSeq = some 1 ∧ f.lw ≠ 0 ∧ f.lh ≠ 0 ∧ (s.me.gval 2).getLsbD 8 = true ∧
      mfind p.me.frag 1 = some g ∧ g.suspect = false ∧ p.me.linked 0 = false ∧ p.me.linked 1 = false ∧
      (f.rect.union g.rect).isSome = true ∧ g.tbl.busy = false ∧ g.bankEmpty = true := by decide +kernel
theorem witness_LinksAreMadeAndTakenAway :
    let f : Frag := { runningFrag with tbl := Tbl.start }
    let g : Frag := { f with row0 := 1, seq := 1 }
    let s := withFrags [(0, f), (1, g)]
    let l : Link := ⟨1, [], false, 0, 0, 0⟩
    let u := withFrags [(0, { f with link := some l }), (1, g)]
    let w : Wait := ⟨1, Reshape.pack ⟨0, 1, false, 2, 0⟩, 0, 0⟩
    let r := fwWith fun t => { t with
      st := .stalled, why := .until .reshape, wait := some w, frag := [(0, { f with lh := 1, reshaping := true })] }
    s.me.Ready 1 ∧ (s.me.gval 1).toNat % 4 = 1 ∧ mfind s.me.frag 0 = some f ∧ mfind s.me.frag 1 = some g ∧
      f.suspect = false ∧ g.suspect = false ∧ f.rect.adjacent g.rect = true ∧ f.link = none ∧ g.link = none ∧
      s.me.reaches 0 4 1 = false ∧ u.me.wait = none ∧ mfind u.me.frag 0 = some { f with link := some l } ∧
      l.entries = [] ∧ f.tbl.cascading = false ∧ (r.strand 0).why = .until .reshape ∧ (r.strand 0).wait = some w ∧
      (r.strand 0).reshapeNext w = .done ∧ (r.strand 0).ss = false := by decide +kernel
/-- The largest counts and generators, and a handle of each kind. -/
theorem witness_TableCommandsQueueForTheirTable :
    let w : IWord := 0x20000000
    let f : Frag := { runningFrag with tbl := { Tbl.start with st := .loaded, words := [w] } }
    let c : Chan := { Chan.opened 0 0 none with tbl := f.tbl }
    let s := (withFrags [(0, f)]).setChan 0 0 c
    s.me.Ready 1 ∧ s.me.Ready 3 ∧ s.tbl 0 0 = some f.tbl ∧ s.tbl 0 8 = some f.tbl ∧ s.tblRoom 0 = true ∧
      s.tblRoom 8 = true ∧ configBad false 1 1 = false ∧ configBad true 1 1 = false ∧ f.tbl.st ≠ .unloaded ∧
      tstartAt f.tbl.words 0 = true ∧ s.startCheck 0 0 = none ∧ s.startCheck 0 8 = none ∧ s.tbl 0 1 = none ∧
      s.tbl 0 15 = none := by decide +kernel
theorem witness_TableCommandsApplyInOrder :
    let t (st : TblSt) (c : TCmd) : Tbl := { Tbl.start with st := st, words := [0], cmdq := [c] }
    let s (st : TblSt) (c : TCmd) := withFrags [(0, { runningFrag with tbl := t st c })]
    (∀ x ∈ ([(.loaded, .nest 1 2), (.loaded, .base 0 64 true), (.running, .base 3 64 false), (.loaded, .restart 0),
        (.loaded, .go 0 0 0), (.halted, .go 0 0 0), (.running, .stop false), (.running, .stop true)] : List (TblSt × TCmd)),
      (s x.1 x.2).tbl 0 0 = some (t x.1 x.2) ∧ (t x.1 x.2).cmdq = [x.2] ∧ (t x.1 x.2).frees = [] ∧
        (t x.1 x.2).inStep = false) := by decide +kernel

/-- A table image of one HALTT in the own scratchpad, of a matrix or a copy table. -/
def imaged (copy : Bool) : State :=
  let s := withFrags [(0, { runningFrag with tbl := Tbl.start })]
  let c := s.setChan 0 0 (Chan.opened 0 0 none)
  { c.setMe { c.me with g := [(1, 0xFF00000000000040), (2, 36)] } with
    mem := memPutList [] (spAddr 0 0x40) (wordBytes (if copy then 0x201 else 1) ++ List.replicate 28 0 ++ wordBytes 0x40000000) }
/-- A tload of handle h meets every hypothesis. -/
noncomputable def mayLoad (h : Nat) (s : State) : Bool :=
  s.tblDrained 0 h && (s.tbl 0 h).any (fun t => !t.busy) && (s.me.gval 1).toNat % 32 == 0 &&
    match s.extent 0 false (s.me.gval 1) extentRuns (s.me.gval 1).toNat (s.me.gval 2).toNat [] with
    | .ok l pages =>
      let u := s.touchPages 0 pages
      let r := u.readPieces 0 (fun _ => true) 0 l
      (u.die 0).canPin pages && u.cur == s.cur && r.err.isNone &&
        match readImage r.bytes with
        | some g => imageOk (decide (4 ≤ h)) g
        | none => false
    | _ => false
/-- fork of f0 and ch7, rdv of a halted f0, and of a faulted one. -/
theorem witness_TablesLoadStartJoinAndReport :
    let t (st : TblSt) (c : Cause) : Tbl := { Tbl.start with st := st, words := [0x40000000], cause := c }
    let s (st : TblSt) (c : Cause) : State :=
      let s := withFrags [(0, { runningFrag with tbl := t st c })]
      s.setChan 0 7 { Chan.opened 0 0 none with tbl := t st c }
    mayLoad 0 (imaged false) = true ∧ mayLoad 8 (imaged true) = true ∧ (imaged true).me.Ready 1 ∧
      (imaged true).me.Ready 2 ∧ (s .loaded 0).me.Ready 2 ∧ maskHandles 0x801 = [0, 15] ∧
      (∀ h ∈ [0, 15], (s .loaded 0).takeTCmd 0 h = none ∧ (s .loaded 0).startCheck 0 h = none) ∧
      (∀ h ∈ [0, 15], ((s .halted 0).tbl 0 h).isSome = true ∧ (s .halted 0).tblOut 0 h = true ∧
        ([0, 15].foldl (fun v h => v.performTable v.cur h) (s .halted 0)).tblFault 0 h = none) ∧
      (s .faulted 0x0D).tblOut 0 0 = true ∧ (((s .faulted 0x0D).performTable 0 0).tblFault 0 0).isSome = true ∧ (s .halted 0).me.Free 3 ∧
      ((t .halted 0).words.length ≤ 256 ∧ (t .halted 0).upc < 256 ∧ (t .halted 0).ck.upc < 256 ∧ (t .halted 0).restart < 256 ∧
        (∀ x ∈ (t .halted 0).idx, x < 2 ^ 16) ∧ (t .halted 0).eseq < 2 ^ 48 ∧ (t .halted 0).ehw < 2 ^ 48) := by decide +kernel
/-- A TSTART that records its checkpoint, and one that is only passed; and rows of the bank at its end. -/
theorem witness_MicroOrdersStep :
    let s := withFrags [(0, runningFrag)]
    let b : Frag := { runningFrag with bank := [(0, ⟨true, []⟩)] }
    let q := withFrags [(0, b)]
    let c := (State.reset.setChan 0 0 { Chan.opened 0 0 none with tbl := runningFrag.tbl })
    s.StepsFrag runningFrag ∧ 4 * (30 : BitVec 9).toNat + 4 * ((1 : BitVec 9).toNat + 1) ≤ 128 * runningFrag.h ∧
      proofSum 0 false 1 1 = proofSum 0 false runningFrag.h runningFrag.w ∧
      proofSum 0 false 1 1 ≠ proofSum 0 false 1 1 + 1 ∧ s.me.reshapeReady s.curTable = false ∧
      s.me.checkpointable runningFrag = true ∧ runningFrag.tbl.frees = [] ∧ q.StepsFrag b ∧
      q.me.checkpointable b = false ∧ s.StepsTbl runningFrag.tbl ∧
      ({ c with curTable := 8 } : State).StepsTbl runningFrag.tbl := by decide +kernel
/-- A running fragment whose generator 0 stands at the first shared bank, with rows of 64 and, for its results, 64 bytes. -/
def arrayFrag : Frag := { runningFrag with tbl := { runningFrag.tbl with
  lv := [(0, 1), (1, 1), (2, 1), (3, 1), (4, 1), (5, 1), (8, 0xFF20000000000000), (0x30, 64), (0x31, 64), (0x32, 64)] } }
theorem witness_WeightsProductsAndDrainsOfTheArray_rows : ∀ r, (arrayFrag.row r).vals.length = 16 * arrayFrag.w := fun _ => rfl
/-- A wld and an mma of 1 by 1 tiles of i8, M 4, at the last columns of the fragment and rows of its bank; drains. -/
theorem witness_WeightsProductsAndDrainsOfTheArray :
    let s := withFrags [(0, arrayFrag)]
    let u := s.windowed
    let k := 16 * 1 * etKc 3
    let n := rowBytes 3 k
    let a0 := (arrayFrag.tbl.addr 0).toNat
    let g : Frag := { arrayFrag with link := some ⟨1, List.replicate 28 (7, []), false, 0, 0, 0⟩ }
    let l := withFrags [(0, g)]
    let out := rowStarts a0 (arrayFrag.tbl.num 0x32) (4 * ((0 : BitVec 9).toNat + 1))
    s.StepsFrag arrayFrag ∧ arrayFrag.lw ≤ 4 ∧ shapeTiles 0 = (1, 1) ∧ shapeM 0 = 4 ∧
      (shapeTiles 0).1 ≤ arrayFrag.h ∧ 16 * (0 : BitVec 4).toNat + 16 * (shapeTiles 0).2 ≤ 16 * arrayFrag.w ∧
      8 * (15 : BitVec 8).toNat + shapeM 0 ≤ 128 * arrayFrag.h ∧
      u.RowsPass arrayFrag 3 n (rowStarts a0 (arrayFrag.tbl.num 0x31) 16) ∧
      u.RowsRead 3 k (rowStarts a0 (arrayFrag.tbl.num 0x31) 16) ∧
      u.RowsPass arrayFrag 3 n (rowStarts a0 (arrayFrag.tbl.num 0x30) 4) ∧
      u.RowsRead 3 k (rowStarts a0 (arrayFrag.tbl.num 0x30) 4) ∧
      arrayFrag.bad = [] ∧ arrayFrag.tbl.row = 0 ∧ (7 : BitVec 3) ≠ 0 ∧ s.failed = [] ∧
      (arrayFrag.tbl.epi.bi || arrayFrag.tbl.epi.bs) = false ∧
      4 * (31 : BitVec 9).toNat + 4 * ((0 : BitVec 9).toNat + 1) ≤ 128 * arrayFrag.h ∧
      s.SpansPass arrayFrag (arrayFrag.epiSpans 124 4) ∧
      s.RowsPass arrayFrag 7 (rowBytes 7 (16 * arrayFrag.w)) out ∧ arrayFrag.tbl.ehw ≤ arrayFrag.tbl.eseq ∧
      arrayFrag.tbl.eseq + 4 < 2 ^ 48 ∧ ((s.drainRow arrayFrag 7 127).bind (fun q => q.1[63]?)).isSome = true ∧
      l.StepsFrag g ∧ g.link = some ⟨1, List.replicate 28 (7, []), false, 0, 0, 0⟩ ∧
      (List.replicate 28 ((7, []) : Nat × List (BitVec 32))).length + 4 * ((0 : BitVec 9).toNat + 1) ≤ 32 ∧
      l.SpansPass g (g.epiSpans 124 4) := by
  unfold State.RowsPass State.RowsRead State.SpansPass
  decide +kernel
/-- A buffer with one filled slot for f0, a claim of one slot, a range below, at and above a watermark, and a cell that
the strand may signal. -/
theorem witness_TableStepsMeetBuffersAndCells :
    let d : Consumer := ⟨1, 1, 0, 0⟩
    let b : CBuf := ⟨0xFF00000000001000, 64, 2, 0, 2, 0, false, [d], 0⟩
    let x : Chan := { Chan.opened 0xFF00000000000000 128 none with cbuf := some b, written := [(0, 64)] }
    let f : Frag := { runningFrag with tbl := { runningFrag.tbl with claims := [⟨3, 1⟩], lv := [(8, 0xFF00000000000000)] } }
    let s := (withFrags [(0, f)]).setChan 0 3 x
    let t : Tbl := runningFrag.tbl
    let u := (userWith fun t => { t with frag := [(0, runningFrag)] }).setCell 7
      { BCell.start with st := .opened, mask := 2, cfg := 0 }
    let v : State := { u with cellOwner := [(7, 5)] }
    s.StepsFrag f ∧ s.tableBuffer 2 = none ∧ s.tableBuffer 3 = some (x, b, d) ∧ (0 : BitVec 8).toNat + 1 ≤ d.fill ∧
      f.tbl.claims.find? (fun c => c.ch == 3) = some ⟨3, 1⟩ ∧ f.tbl.marked 3 + 1 ≤ 1 ∧ s.chan 0 2 = none ∧
      s.chan 0 3 = some x ∧ x.st = .open ∧ x.len ≠ 0 ∧
      (f.tbl.addr 0 + BitVec.ofNat 64 (64 * (0 + 1) - 1)).toNat ≤ x.wm.toNat ∧
      x.wm.toNat < (f.tbl.addr 0 + BitVec.ofNat 64 (64 * (1 + 1) - 1)).toNat ∧
      (f.tbl.addr 0 + BitVec.ofNat 64 (64 * (1 + 1) - 1)).toNat < x.base.toNat + x.len ∧
      v.StepsTbl t ∧ v.me.asid = some 5 ∧ v.ownsLine 5 (512 * (v.cur / 64) + 7) = true ∧
      v.mayArrive v.cur (512 * (v.cur / 64) + 7) = true ∧ t.ehw < (t.eseq + 1) % 2 ^ 48 := by decide +kernel
/-- Core 0 with a channel as ch0, and registers for its commands: g2 and g3 the source and destination, g4 and g5 the
control word of 64 bytes and no time. -/
def withChan (x : Chan) : State :=
  (fwWith fun t => { t with g := [(1, 0xFF00000000000040), (2, 0xFF00000000000000), (3, 0xFF00000000001000), (4, 64 * 2 ^ 32),
    (6, 0x8000000000000001), (8, 1), (9, 0x600)] }).setChan 0 0 x
/-- A command passes its checks. -/
def passes (s : State) (c : Cmd) : Bool :=
  match s.checkCmd 0 0 c with
  | .ok c => (s.die 0).canPin c.pins
  | _ => false
/-- A range of the whole scratchpad, an empty range, a sender of the own die, and a watermark met and not met. -/
theorem witness_ChannelsOpenWaitAndClose :
    let s := fw [(1, 0xFF00000000000000), (2, 0x200000), (4, 0x600 + 5), (5, 0xFF0000000000003F), (6, 0xFF00000000000040)]
    let x : Chan := { Chan.opened 0xFF00000000000000 128 none with written := [(0, 64)], st := .broken }
    let w := (fw [(5, 0xFF0000000000003F), (6, 0xFF00000000000040)]).setChan 0 0 x
    s.me.Ready 1 ∧ s.me.Ready 2 ∧ s.chan 0 0 = none ∧ (s.me.gval 3).toNat % 2 ^ 48 = 0 ∧
      regionHolds (s.me.gval 1) ((s.me.gval 2).toNat % 2 ^ 48) = true ∧ (s.me.gval 4).toNat % 512 < 384 ∧
      (s.me.gval 4).toNat % 512 / 64 = s.cur / 64 ∧ w.me.Ready 5 ∧ w.me.Ready 6 ∧ w.chan 0 0 = some x ∧ x.len ≠ 0 ∧
      (w.me.gval 6).toNat < x.base.toNat + x.len ∧ (w.me.gval 5).toNat ≤ x.wm.toNat ∧
      x.base.toNat ≤ (w.me.gval 6).toNat ∧ x.wm.toNat < (w.me.gval 6).toNat ∧ x.st = .broken ∧ w.me.wait = none ∧
      x.tbl.busy = false ∧ x.runs = [] ∧ x.buf = [] ∧ x.queue = [] := by decide +kernel
theorem witness_CopyCommandsAndBuffersQueue :
    let b (c : Consumer) : CBuf := ⟨0xFF00000000001000, 64, 2, 0, 2, 0, false, [c], 0⟩
    let x : Chan := Chan.opened 0 0 none
    let s := withChan x
    let p := withChan { x with cbuf := some (b ⟨0, 1, 1, 0⟩) }
    let idle := withChan { x with cbuf := some (b ⟨0, 1, 0, 0⟩) }
    let cmd (k : CmdKind) : Cmd := Cmd.given k (s.me.gval 2) (s.me.gval 3) (s.me.gval 4) (s.me.gval 5)
      0xFF00000000000000 0 false 0 0 false
    (∀ r ∈ [1, 2, 3, 4, 5, 6], s.me.Ready r) ∧ s.me.Free 7 ∧
      passes s (cmd .cpy) = true ∧ passes s (cmd .cpym) = true ∧ passes s (cmd .gth) = true ∧
      passes p { cmd .cpy with cb := true } = true ∧ s.chan 0 0 = some x ∧ x.room false = true ∧ x.st = .open ∧
      x.ring = none ∧ x.unfinished = [] ∧ cfgCons 0 = 0 ∧ slotsHeld false 0xFF00000000001000 (2 ^ 20 + 1) = true ∧
      (idle.chan 0 0).bind Chan.cbuf = some (b ⟨0, 1, 0, 0⟩) ∧ (b ⟨0, 1, 1, 0⟩).consumer 0 = some ⟨0, 1, 1, 0⟩ ∧
      (p.me.gval 8).getLsbD 63 = false ∧ (p.me.gval 8).toNat % 512 = 1 ∧ (p.me.gval 6).getLsbD 63 = true ∧
      (p.me.gval 6).toNat % 512 = 1 ∧ s.chan 0 1 = none := by decide +kernel
theorem witness_CopyTablesIssueTheirCommands :
    let t : Tbl := { Tbl.start with st := .running, words := [0], lv := [(8, 0xFF00000000000000),
      (9, 0xFF00000000001000), (0x40, 64), (0x43, 64 * 2 ^ 32)] }
    let x : Chan := { Chan.opened 0 0 none with tbl := t }
    let s : State := { withChan x with curTable := 8 }
    s.chan s.cur 0 = some x ∧ s.steps t = true ∧ passes s (t.cpyOrder 0 1 0 false 0) = true ∧
      passes s (t.cpyOrder 0 1 0 false t.orderTime) = true ∧
      passes s (Cmd.given .gth (t.addr 0) (t.addr 1) (mget t.lv 0x43 0) 0 (t.addr 0) 0 false t.frm t.sr true) = true ∧
      x.room true = true ∧ x.cause = 0 ∧ x.st ≠ .broken ∧ x.unfinished = [] ∧ x.rsum = x.exp ∧
      (let late : Chan := { x with buf := [{ Cmd.given .cpy 0 0 0 0 0 0 false 0 0 false with seq := 4 }], seq := 3 }
       late.unfinished ≠ [] ∧ ∀ c ∈ late.unfinished, late.seq < c.seq) ∧
      ({ x with exp := 1 } : Chan).rsum ≠ ({ x with exp := 1 } : Chan).exp := by decide +kernel
/-- A command of a channel between two places of the own scratchpad. -/
def copyCmd (n : Nat) : Cmd :=
  { Cmd.given .cpy 0xFF00000000000000 0xFF00000000001000 (BitVec.ofNat 64 (n * 2 ^ 32)) 0 0 0 false 0 0 false with
    seq := 1, srcp := [(spAddr 0 0, n)], dstp := [(spAddr 0 0x1000, n)] }
/-- The run of a begun command that has moved some bytes. -/
def copyRun (n pos : Nat) : Run :=
  ⟨copyCmd n, none, false, [], [], [(spAddr 0 0x1000, n)], pos, pos, [], 0, [], none, false, none, [], [], []⟩
theorem witness_ChannelEventsMoveTheCommands :
    let x : Chan := Chan.opened 0 0 none
    let q : State := { withChan { x with queue := [.cmd (copyCmd 64)] } with now := 4 }
    let b : State := { withChan { x with buf := [copyCmd 64] } with now := 4 }
    let z : State := { withChan { x with buf := [copyCmd 0] } with now := 4 }
    let y : Chan := { x with runs := [copyRun 64 0] }
    let r := withChan y
    let f := withChan { x with runs := [copyRun 64 64] }
    (copyCmd 64).tick + 4 ≤ q.now ∧ q.held 0 < 512 ∧ (copyCmd 64).again = false ∧ (q.chan 0 0).map Chan.buf = some [] ∧
      (copyCmd 64).t.toNat ≤ (b.ptime 0).toNat ∧ (copyCmd 64).ready ≤ b.now ∧ x.lastBegin ≤ b.now ∧
      0 < (copyCmd 64).len ∧ x.runs.head? = none ∧ (copyCmd 0).len = 0 ∧ x.runs = [] ∧ (copyCmd 0).mode = 0 ∧
      (z.chan 0 0).map Chan.buf = some [copyCmd 0] ∧ (copyCmd 0).ready ≤ z.now ∧ z.heldBack 0 2 (copyCmd 0).fence = false ∧
      (copyCmd 64).kind = .cpy ∧ (copyCmd 64).cb = false ∧ (copyCmd 64).wd = false ∧
      b.heldBack 0 2 (copyCmd 64).fence = false ∧
      (r.chan 0 0).bind (fun x => x.runOf 1) = some (copyRun 64 0) ∧ (copyRun 64 0).waitSlot = false ∧
      (copyRun 64 0).rwait = [] ∧ (copyRun 64 0).pos = 0 ∧ (copyRun 64 0).out = 0 ∧ (copyRun 64 0).buf = [] ∧
      (copyRun 64 0).conv = none ∧ (copyCmd 64).srcp = [(spAddr 0 0, 64)] ∧
      (copyRun 64 0).dstp = [(spAddr 0 0x1000, 64)] ∧
      r.earlierWrites 0 0 y (copyRun 64 0) [⟨none, [(spAddr 0 0x1000, 64)]⟩] = false ∧ (copyCmd 64).bv = false ∧ (copyCmd 64).len = 64 ∧
      spAddr 0 0x1000 % 64 + 64 ≤ 64 ∧ spAddr 0 0 % 64 + 64 ≤ 64 ∧ 2 ^ 61 ≤ spAddr 0 0 ∧ spAddr 0 0x1000 < 2 ^ 64 ∧
      r.linkDead 0 (spAddr 0 0) = false ∧ r.linkDead 0 (spAddr 0 0x1000) = false ∧
      mfind r.failed (spAddr 0 0 / 64) = none ∧ (f.chan 0 0).map Chan.runs = some [copyRun 64 64] ∧
      (copyRun 64 64).finished = true ∧ (copyRun 64 64).rslots = [] ∧ x.sumDue 1 = false ∧ (copyCmd 64).mode = 0 ∧
      (withChan { x with credits := [383] }).chan 0 0 = some { x with credits := [383] } ∧
      (withChan { x with queue := [.chwm 7] }).chan 0 0 = some { x with queue := [.chwm 7] } ∧
      (∀ q ∈ [0, 1, 2], (withChan { x with queue := [.chsum q 5 7] }).chan 0 0 = some { x with queue := [.chsum q 5 7] }) ∧
      (withChan { x with queue := [.cbcfg 0 0] }).chan 0 0 = some { x with queue := [.cbcfg 0 0] } ∧ x.rx = none := by
  decide +kernel
/-- An mfence of no table, a pfence of paths 1 to 2, a rel at cluster scope, and one at die scope whose point has
reached every die; the six counters of LOGQ. -/
theorem witness_FencesReleasesAndAcquires :
    let s := fw [(2, 1), (3, 6)]
    let v := fwWith fun t => { t with wait := some ⟨1, 0, 0, 0⟩ }
    let w := v.setCore 0 { v.core 0 with log := { Log.start with points := [⟨0, 1, ⟨3, 0⟩, 0, [0, 1, 2, 3, 4, 5]⟩] } }
    let p := s.setCore 0 { s.core 0 with log := { Log.start with app := 1, pub := 1, prs := 1, past := [(0, 5, 7)] } }
    let o : OpE := ⟨2, 3, 0, false, false⟩
    s.me.Ready 1 ∧ s.me.wait = none ∧ s.markersDone s.cur (s.me.gval 1) s.me.chanSeqs = true ∧ (2 : Reg) ≠ 0 ∧
      (4 : Reg).getLsbD 0 = false ∧ (1 : BitVec 3).toNat < 2 ∧ s.me.accessesDone = true ∧
      (s.log s.cur).pressure ≠ s.now + 1 ∧ (s.core s.cur).lclk + 1 < 2 ^ 48 - 2 ^ 40 ∧ w.me.wait = some ⟨1, 0, 0, 0⟩ ∧
      w.relMet w.cur 2 0 0 = true ∧ w.relMet w.cur 6 0 0 = true ∧ s.me.Ready 2 ∧ s.me.Ready 3 ∧ (s.me.gval 3).getLsbD 63 = false ∧
      s.me.loadsDone = true ∧ p.me.loadsDone = true ∧ p.namedLogs p.cur 1 (p.me.gval 2) = [0] ∧
      (0, 5, 7) ∈ (p.log 0).past ∧ 0 < (p.pubSeen p.cur 0).1 ∧
      after (exec (.acq o 1) p) (fun t => (t.core p.cur).lclk < 2 ^ 48 - 2 ^ 40) = true ∧ (s.me.gval 2).getLsbD 63 = false ∧
      (s.me.gval 2).getLsbD 31 = false ∧ s.me.Free 5 ∧ (s.me.gval 3).getLsbD 31 = false ∧
      (s.me.gval 2).toNat % 16 = 1 ∧ (s.me.gval 3).toNat % 16 = 6 ∧
      s.namedLogs s.cur 1 (s.me.gval 2) ≠ [] := by decide +kernel
/-- The user strand with cell 511 of die 0, its own, in some state, and the cell's address in g1. -/
def barrierAt (c : BCell) : State :=
  { (userWith fun t => { t with g := [(1, 0xFF30000000007FC0), (2, 2), (3, 9)] }).setCell 511 c with cellOwner := [(511, 5)] }
/-- A live cell of one arrival by core 1 at local scope. -/
def openCell : BCell := { BCell.start with st := .opened, mask := 2, cfg := 9 }
theorem witness_BarriersCountTheirArrivals :
    let s := barrierAt BCell.start
    let l := barrierAt openCell
    let r : ArrRec := ⟨511, 0, true, []⟩
    let d := l.setMe { l.me with arr := [r] }
    let w (k : Nat) := d.setMe { d.me with wait := some ⟨3, 511, k, 0⟩ }
    ((s.me.Ready 1 ∧ s.me.Ready 2 ∧ s.me.Ready 3 ∧ s.me.wait = none ∧ s.me.asid = some 5 ∧
        s.me.gval 1 = 0xFF30000000000000 + 64 * 511 ∧ s.ownsLine 5 511 = true ∧ s.present (511 / 512) = true) ∧
      s.me.gval 3 ≠ 0 ∧ badConfig 511 2 9 = false ∧ (s.cell 511).st = .free ∧ s.parentOk 511 9 = true ∧
      ones 64 (2 : Word).toNat ≠ 0) ∧
    ((l.cell 511).st ≠ .free ∧ (l.cell 511).arr = 0 ∧ (l.cell 511).pend = 0 ∧ l.me.wait = none ∧ l.ownsLine 5 511 = true ∧
      l.children 511 = [] ∧ l.mayArrive l.cur 511 = true ∧ l.me.accessesDone = true ∧ (l.cell 511).scope.toNat < 2 ∧
      cfgRoot (l.cell 511).cfg = false) ∧
    (d.me.arrOf 511 = some r ∧ d.delivered d.cur r = true ∧ (l.cell 511).cond = false ∧
      (w 0).me.wait = some ⟨3, 511, 0, 0⟩ ∧ (w 0).me.arrOf 511 = some r ∧ (w 0).delivered (w 0).cur r = true ∧
      (5 : BitVec 48).toInt = (l.cell 511).pend.toInt + ((5 : Word).setWidth 48).toInt ∧ l.me.Free 5) := by decide +kernel
/-- An arrival that leaves the cell short of its count, one that completes it, a child's, a tag of one child, a root's. -/
theorem witness_BarriersCountTheirArrivals_events :
    let l := barrierAt openCell
    let a : Arrival := ⟨511, 0, 1, none, 0, 0, false⟩
    let two : State := { l.setCell 511 { openCell with cfg := 10 } with arrivals := [a] }
    let one : State := { l with arrivals := [a] }
    let kid : State := { l.setCell 512 openCell with arrivals := [⟨512, 32, 3, none, 0, 0, false⟩] }
    let tag : State := { State.reset with cells := [(9, { openCell with cfg := 9 + 2 * 2 ^ 7 + 7 * 2 ^ 9 }),
      (3079, { BCell.start with st := .held, mask := 1, cfg := 73 })] }
    let root : State := { State.reset with cells := [(3071, openCell)], compl := [(3071, [])] }
    (two.arrivals[0]? = some a ∧ two.arrivalReady a = true ∧ (two.cell 511).st = .opened ∧ (∀ b ∈ two.arrivals, b.held = false) ∧ (two.cell 511).arr + 1 < (two.cell 511).exp ∧ one.arrivals[0]? = some a ∧
      (one.cell 511).arr + 1 = (one.cell 511).exp ∧ (one.cell 511).pend = 0 ∧ isTag 511 = false ∧ parentLine 511 (one.cell 511).cfg = none ∧
      (kid.cell 512).st = .opened ∧
      kid.arrivals.findIdx? (fun b => b.who == 32 && b.core == 512 * (3 / 512) + 3 % 512) = some 0) ∧
    (tag.arrivals = [] ∧ (tag.cell (3072 + 7)).cond = true ∧ tag.children (3072 + 7) = [9] ∧
      tag.KeepsMask 9 ∧ root.arrivals = [] ∧ root.compl = [(512 * 5 + 511, [])] ∧
      root.KeepsMask (512 * 5 + 511)) := by
  unfold State.KeepsMask
  decide +kernel
/-- A whole import and a whole export window of context 5. -/
def importWin : Win := ⟨5, true, 1, 0, 0x10000, 0, true, 1, 0, 3, 3, 0, 0, 0, false, 0, [], [], ⟨0, 0⟩, 0⟩
/-- An export of the first 64 KiB of shared bank 0. -/
def exportWin : Win := ⟨5, false, 1, 0xFF20000000000000, 0x10000, 0, true, 0, 0, 0, 0, 3, 3, 0, false, 0, [], [], ⟨0, 0⟩, 0⟩
/-- The user strand with bank 0, both windows, a live fabric port, and registers for the window instructions. -/
def windowed : State :=
  { userWith (fun t => { t with g := [(1, 0x8000), (2, 0), (3, 0xFF20000000000000), (4, 0x10000), (6, 3), (7, 0xFF00000000000000),
      (8, 0xFFC000000040), (10, 0xFFF8)] }) with
    banks := [(0, 5)], wins := [(0, exportWin), (0x8000, importWin)], links := [(0, { PLink.start 0 with st := .up })] }
/-- A range of the first bank; an import of fabric number 287; a write of the window's last 64 bytes; and the last
8 bytes for a watom. -/
theorem witness_WindowsOpenSendCountAndClose :
    let s := windowed
    (s.me.asid = some 5 ∧ (∀ r ∈ [1, 2, 3, 4, 6, 7, 8, 10], s.me.Ready r) ∧ s.me.Free 5 ∧ s.freeWinIndex = some 1 ∧
      isShared (s.me.gval 3).toNat = true ∧ (s.me.gval 3).toNat % 2 ^ 20 = 0 ∧
      (s.me.gval 4).toNat % 2 ^ 32 % 2 ^ 16 = 0 ∧ 2 ^ 16 ≤ (s.me.gval 4).toNat % 2 ^ 32 ∧
      (s.me.gval 4).toNat % 2 ^ 32 ≤ 0xFFFF0000 ∧ s.foreignBank 5 0 0x10000 = none ∧ s.ports ≠ [] ∧
      (s.me.gval 6).toNat % 512 < 288 ∧ (s.me.gval 6).toNat % 512 ≠ s.fabid.toNat ∧ s.choice.reply = 0 ∧
      (let own : State := { s with fabid := 3 }
       (own.me.gval 6).toNat % 512 = own.fabid.toNat ∧ mfind own.wins ((own.me.gval 6).toNat / 2 ^ 16 % 2 ^ 12) = some exportWin ∧
        exportWin.imp = false ∧ exportWin.key = (own.me.gval 2).setWidth 32 ∧
        (own.ctx exportWin.asid).secure = (own.ctx 5).secure)) ∧
    (s.me.wait = none ∧ mfind s.wins (s.me.gval 1).toNat = some importWin ∧ importWin.asid = 5 ∧
      importWin.imp = true ∧ importWin.broken = 0 ∧ (s.die 0).winq.length < 16 ∧ (s.me.gval 7).toNat % 4 = 0 ∧
      (s.me.gval 8).toNat / 2 ^ 32 % 4 = 0 ∧ (s.me.gval 8).toNat % 2 ^ 32 % 4 = 0 ∧
      (s.me.gval 8).toNat / 2 ^ 32 + (s.me.gval 8).toNat % 2 ^ 32 ≤ importWin.len ∧
      s.extent s.cur false (s.me.gval 7) extentRuns (s.me.gval 7).toNat ((s.me.gval 8).toNat % 2 ^ 32) [] =
        .ok [(spAddr 1 0, 64)] [] ∧ (s.die 0).canPin [] = true ∧ (s.me.gval 10).toNat % 8 = 0 ∧
      (s.me.gval 10).toNat + 8 ≤ importWin.len) ∧
    (mfind s.wins (s.me.gval 2).toNat = some exportWin ∧ exportWin.imp = (s.me.gval 2).getLsbD 15 ∧
      importWin.imp = (s.me.gval 1).getLsbD 15 ∧ (s.me.gval 6).toNat ≤ importWin.ackd ∧
      (s.me.gval 6).toNat ≤ exportWin.rcvd ∧ exportWin.closing = false ∧ s.winSettled (s.me.gval 1).toNat = true ∧
      mfind s.wins (s.me.gval 6).toNat = none ∧ (s.me.gval 6).toNat % 8 ≠ 0 ∧ (s.me.gval 6).toNat % 4 ≠ 0 ∧
      mfind s.wins (s.me.gval 10).toNat = none) := by decide +kernel
/-- A flow that has received seven operations of the export with index 0. -/
def flow7 : RecvFlow := ⟨7, [], [], some 0, false, [], none⟩
/-- An operation in the queue of die 0 (a write, and an atomic), a write of the last 64 bytes of a window by a flow that is
bound to it or new, a duplicate, an operation for a closed window and for none, a lost operation with one attempt and with
seven, and a rewinding table with and without a restart label. -/
theorem witness_FlowsSendArriveAndRetry :
    let o (atom : Bool) : WinOp := ⟨0, 1, none, 5, 0x8000, 0, 0, 64, 0, false, atom, 0, 0, if atom then [] else [(spAddr 1 0, 64)], []⟩
    let s (f : RecvFlow) : State := { windowed.setDie 0 { windowed.die 0 with winq := [o false] } with recv := [(65536, f)], now := 1 }
    let a : State := windowed.setDie 0 { windowed.die 0 with winq := [o true] }
    let w (n : Nat) : Win := { importWin with outs := [⟨0, n, 0, 0, 0, 0, none, .op (.atom 0 0 0 false 0)⟩] }
    let l (n : Nat) : State := { windowed with wins := [(0x8000, w n)], now := 8192 }
    let r : State := { l 0 with choice := { (l 0).choice with reply := 1 } }
    let f (rv : Bool) : Frag := { runningFrag with tbl := { runningFrag.tbl with rewinding := true, rv := rv } }
    (∀ e ∈ ([(s flow7, o false), (a, o true)] : List (State × WinOp)),
      (e.1.die 0).winq = [e.2] ∧ (e.1.strand e.2.core).group = e.2.group ∧ e.1.heldBack e.2.core 4 e.2.id = false ∧
      mfind e.1.wins e.2.handle = some importWin ∧ e.1.ports = [0] ∧
      (((e.1.setDie 0 { e.1.die 0 with winq := [] }).unpin 0 e.2.pins).winSource e.2.core e.2.srcp).2.2 = none ∧
      e.1.signalWaits e.2 = false) ∧
    (∀ g ∈ ([flow7, { flow7 with window := none }, { flow7 with closed := true }] : List RecvFlow),
      mfind (s g).recv (1 * 65536 + 0) = some g ∧ ((s g).link 0).live = true ∧ (s g).choice.anew = false) ∧
    (mfind (s flow7).wins 0 = some exportWin ∧ exportWin.imp = false ∧ exportWin.shared = true ∧ exportWin.born < (s flow7).now ∧
      0xFFC0 + 64 ≤ exportWin.len ∧ exportWin.place 0xFFC0 = some (sharedAddr 0xFFC0) ∧
      isGlobal (sharedAddr 0xFFC0) = false ∧ (exportWin.base.toNat + 0xFFC0) % 64 + 64 ≤ 64 ∧
      sharedAddr 0xFFC0 % 64 + 64 ≤ 64 ∧ 6 < 7 ∧ mfind (s flow7).wins (remoteWindow (.write 9 0 0 [] false)) = none) ∧
    (mfind (l 0).wins 0x8000 = some (w 0) ∧ (w 0).broken = 0 ∧ 0 + 8192 ≤ (l 0).now ∧
      ((l 0).link (32 + 0)).st ≠ .training ∧ (l 0).choice.reply ≠ 1 ∧ r.choice.reply = 1 ∧
      mfind r.wins 0x8000 = some (w 0) ∧ (l 0).nextPort 0 = some 0 ∧ 0 + 1 < 8 ∧ mfind (l 7).wins 0x8000 = some (w 7) ∧
      8 ≤ 7 + 1) ∧
    (((withFrags [(3, f true)]).strand 0).frag = [(3, f true)] ∧ ((withFrags [(3, f false)]).strand 0).frag = [(3, f false)] ∧
      (f true).link = none ∧ (f true).tbl.rewinding = true) := by decide +kernel
/-- A ring of two members: its descriptor with key 1, P 2, POS 0, both neighbours 3, and blocks of 64 bytes. -/
def ringBytes : List Byte := natBytes 4 1 ++ natBytes 2 2 ++ natBytes 2 0 ++ natBytes 2 3 ++ natBytes 2 3 ++ natBytes 4 64 ++
  List.replicate 48 0
/-- A channel with a buffer of two free slots in shared bank 0. -/
def ringChan : Chan := { Chan.opened 0 0 none with cbuf := some ⟨0xFF20000000000000, 64, 2, 0, 2, 0, false, [⟨0, 0, 0, 0⟩], 0⟩ }
/-- A strand that may join: the descriptor at 0x40 of its scratchpad. -/
def joining : State :=
  { (userWith fun t => { t with g := [(1, 0xFF00000000000040)], chan := [(0, ringChan)] }) with
    banks := [(0, 5)], mem := memPutList [] (spAddr 1 0x40) ringBytes, links := [(0, { PLink.start 0 with st := .up })] }
/-- A strand that has joined as entry 0, with a handle in g2 and the ring in some state. -/
def joined (f : Ring → Ring) : State :=
  let r := f (Ring.joined 1 joining.me 0 ringBytes)
  (joining.setMe { joining.me with
    g := [(2, 0x4000), (3, 0xFF00000000000000), (4, 64), (6, 1)], chan := [(0, { ringChan with ring := some 0 })] }).setRing 0 r
/-- The ring of a state. -/
def ringOf (s : State) : Ring := (mfind s.rings 0).getD (Ring.joined 1 s.me 0 ringBytes)
theorem witness_RingsJoinTurnAndLeave :
    let s := joining
    let u := s.settleWrites s.cur (spAddr s.cur 0x40) 64
    let l := joined fun r => { r with st := .live }
    let r := ringOf l
    (s.me.Ready 1 ∧ s.me.Ready 3 ∧ s.me.Free 5 ∧ (s.me.gval 1).toNat % 64 = 0 ∧ 0xFF00000000000000 ≤ (s.me.gval 1).toNat ∧
      (s.me.gval 1).toNat - 0xFF00000000000000 + 64 ≤ Config.spBytes ∧
      (u.read s.cur (spAddr s.cur 0x40) 64).err = none ∧ (u.read s.cur (spAddr s.cur 0x40) 64).bytes = ringBytes ∧
      badDescriptor s.fabid.toNat ringBytes = false ∧ s.mayBind s.cur 0 (descField ringBytes 12 4) = true ∧
      s.freeRingIndex = some 0 ∧ s.chan s.cur 0 = some ringChan) ∧
    (l.me.Ready 2 ∧ l.me.Ready 3 ∧ l.me.Ready 4 ∧ l.me.Ready 6 ∧ l.me.Free 5 ∧ l.me.gval 2 = BitVec.ofNat 64 (2 ^ 14 + 0) ∧
      mfind l.rings 0 = some r ∧ r.member l.cur l.me = true ∧ (l.me.gval 3).toNat % 64 = 0 ∧
      l.extent l.cur false (l.me.gval 3) extentRuns (l.me.gval 3).toNat 64 [] = .ok [(spAddr 1 0, 64)] [] ∧
      r.st ≠ .broken ∧ r.limit = none ∧ (l.me.gval 4).toNat % 2 ^ 32 = 64 ∧ 64 ≤ r.blen ∧ r.blocks.length < 16 ∧
      (l.die (l.cur / 64)).canPin [] = true ∧ l.me.gval 6 ≠ 0 ∧ r.own ≤ (l.me.gval 6).toNat ∧ r.performed = [] ∧
      r.staged = none ∧ r.arr ≤ (l.me.gval 6).toNat * (r.p - 1) ∧ (l.me.gval 7).toNat ≤ r.arr ∧ r.outs = []) := by
  decide +kernel
/-- Peers that agree, a free slot, a grant held for a forward and for an own block, a granted entry, and a transmission under
way. -/
theorem witness_RingsJoinTurnAndLeave_events :
    let j := joined id
    let peer : RingPeer := ⟨1, 2, 1, j.fabid.toNat, j.fabid.toNat, 64⟩
    let o : Sent := ⟨0, 0, 0, 0, 0, 0, none, .entry ⟨0, 1, 2, 1, []⟩⟩
    let l := joined fun r => { r with st := .live, given := [0], outs := [o] }
    let r := ringOf l
    let t := joined fun r => { r with st := .live, p := 3, outK := 1, held := [1], inbound := [(0, List.replicate 64 7)] }
    let q := ringOf t
    let b : WinOp := ⟨0, 1, none, 5, 0x4000, 0, 0, 64, 0, false, false, 0, 0, [(spAddr 1 0, 64)], []⟩
    let u := joined fun r => { r with st := .live, held := [0], blocks := [b] }
    let v := ringOf u
    let e : RingEntry := ⟨0, 1, 2, 1, List.replicate 64 0⟩
    (mfind j.rings 0 = some (ringOf j) ∧ (ringOf j).st = .joining ∧ (ringOf j).staged = none ∧
      (ringOf j).confirms j.fabid.toNat ((ringOf j).p - 1) peer peer.next = true ∧
      (ringOf j).confirms j.fabid.toNat 1 peer peer.prev = true) ∧
    (mfind l.rings 0 = some r ∧ r.st = .live ∧ r.staged = none ∧ (l.link 0).live = true ∧ (l.ringBuf 0 r).isSome = true ∧
      (l.ringBuf 0 r).any (fun b => r.mayGrant b 1 && !r.mayGrant b 0 && b.slotFree 0) = true ∧ r.outK ≤ 0 ∧ 0 ∉ r.held ∧
      r.limit = none ∧ e.k = r.arr ∧ r.performed = [] ∧ e.k ∈ r.given ∧ e.key = r.key ∧ e.p = r.p ∧
      e.step = e.k % (r.p - 1) + 1 ∧ r.outs = [o] ∧ r.leaving = false) ∧
    (mfind t.rings 0 = some q ∧ t.ports = [0] ∧ q.st = .live ∧ q.outK ∈ q.held ∧ q.outK % (q.p - 1) ≠ 0 ∧
      q.inbound.find? (fun x => x.1 + 1 == q.outK) = some (0, List.replicate 64 7) ∧ q.staged = none ∧
      (0x11 : Cause) ∈ ringCauses) ∧
    (mfind u.rings 0 = some v ∧ u.ports = [0] ∧ v.st = .live ∧ v.outK ∈ v.held ∧ v.outK % (v.p - 1) = 0 ∧ v.blocks = [b] ∧
      v.staged = none ∧ (u.strand v.core).group = v.group ∧ u.heldBack b.core 4 b.id = false ∧
      (u.winSource b.core b.srcp).2.2 = none) := by decide +kernel
/-- The kernel of tag 7 of context 5, with two groups of one strand and a flume of two slots. -/
def kern : Kernel :=
  ⟨.launched, 5, 7, 3, 99, 0x2000, 1, 2, [], 0, 2, 0, [], 0, 0, false, [(0, ⟨0, 0, []⟩)], 0, none, 0, none, 0⟩
/-- The user strand as a strand of the first group of kernel 1. -/
def grouped (f : Strand → Strand) : State :=
  { (userWith fun t => f { t with group := some (groupId 1 0), g := [(1, 0xFF00000000000040)] }) with
    kernels := [(1, { kern with next := 1 })], groups := [(groupId 1 0, ⟨.running, [1], 0, 0, 0, false⟩)],
    ctxs := [(5, { Ctx.start with st := .live, wdog := 100 })], now := 100 }
theorem witness_GroupsRunEndAndAreSaved :
    let s := grouped id
    let v := grouped fun t => { t with wait := some ⟨1, 0, 0, 0⟩, st := .halting }
    let w := v.setCore 1 { v.core 1 with log := { Log.start with points := [⟨0, 1, ⟨3, 0⟩, 0, [0, 1, 2, 3, 4, 5]⟩] } }
    let f := fw []
    let h := f.setCore f.cur { f.core f.cur with evtail := 1 }
    let k : State := { State.reset with kernels := [(1, kern)], ctxs := [(5, { Ctx.start with st := .live })] }
    let z : Kernel := { kern with waited := 2 ^ 24 }
    (s.me.Free 5 ∧ s.me.group = some (groupId 1 0) ∧ mfind s.groups (groupId 1 0) = some ⟨.running, [1], 0, 0, 0, false⟩ ∧
      s.me.Ready 1 ∧ s.me.gval 1 = BitVec.ofNat 64 (0xFF00000000000000 + 0x40) ∧ 0x40 + 64 ≤ Config.spBytes ∧
      (user []).myKernel 1 = none ∧ (user []).me.Ready 0 ∧ s.myKernel s.cur = some { kern with next := 1 } ∧ kern.cap ≠ 0) ∧
    (w.me.wait = some ⟨1, 0, 0, 0⟩ ∧ w.relMet w.cur 3 0 0 = true ∧ isFirmware w.cur = false ∧ w.me.chan = [] ∧
      w.me.frag = [] ∧ w.ringsOf w.cur = [] ∧ w.me.st = .halting ∧
      mfind w.groups (groupId 1 0) = some ⟨.running, [1], 0, 0, 0, false⟩) ∧
    (isFirmware h.cur = true ∧ (h.core h.cur).evhead < (h.core h.cur).evtail) ∧
    (mfind k.kernels 1 = some kern ∧ kern.killedEarly = [] ∧ kern.next < 2 ^ 32 ∧ k.mayPlace 1 kern = true ∧
      k.kernelCores kern = some [1] ∧ z.waits = true ∧ 2 ^ 24 ≤ z.waited) := by decide +kernel
/-- A group that may be saved, whose watchdog is due; a saved one; one of a trap that nothing serves; and a saved
strand that holds a lease. -/
theorem witness_GroupsRunEndAndAreSaved_events :
    let g := groupId 1 0
    let big : Kernel := { kern with qid := 4, size := 385 }
    let s : State := { grouped id with
      kernels := [(1, { kern with next := 1 }), (2, big)], queues := [(4, { Queue.start with st := .mapped, slot := some 0 })] }
    let d := after (exec (.preemptSave g) s) fun t => match mfind t.groups g, mfind t.images (imageKey g 1) with
      | some x, some i => x.st == .saved && i.bad.isNone && i.reclaimed == [] && i.was == 1 && t.coreFree 1
      | _, _ => false
    let t := grouped fun t => { t with st := .trapped, cause := 1 }
    let i : Image := ⟨{ Strand.start with frag := [(0, runningFrag)] }, 1, 0, [], [], [], [], [], [], none⟩
    (mfind s.groups g = some ⟨.running, [1], 0, 0, 0, false⟩ ∧ (s.strand 1).st = .running ∧ (s.strand 1).wait = none ∧
      s.saveable 1 = true ∧ s.mayPreempt g = true ∧ s.kernelOf g = some { kern with next := 1 } ∧ s.wdogOf (some 5) ≠ 0 ∧
      0 + s.wdogOf (some 5) ≤ s.now) ∧ d = true ∧
    ((t.strand 1).group = some g ∧ (t.strand 1).st = .trapped ∧ (t.strand 1).decided = false ∧ (t.strand 1).reached = false ∧
      (t.strand 1).causeCode ≠ 0x13 ∧ (t.strand 1).causeCode ≠ 0x14) ∧
    ([(imageKey g 1, i)].find? (fun i => i.1 % 512 == 1 && i.2.strand.frag != []) = some (imageKey g 1, i)) := by
  decide +kernel
/-- Queue 3 of context 5 with four slots, its ring at 0x10000, whose page the front end holds in its TLB, over bytes. -/
def ringQueue : Queue :=
  { Queue.start with st := .mapped, wptr := 1, slot := some 0, base := 0x10000, en := true, wt := 1, logsz := 2, asid := 5 }
def queued (q : Queue) (m : List Byte) : State :=
  let s : State := { State.reset with
    queues := [(3, q)], ctxs := [(5, { Ctx.start with st := .live, pasid := 9 })],
    mem := memPutList [] 0x100000 m }
  s.setCore 0 { s.core 0 with tlb := [leafAt 0 0x100000] }
/-- A packet of a type with some body bytes. -/
def packetBytes (ty : Nat) (body : List Byte) : List Byte :=
  natBytes 32 ty ++ body ++ List.replicate (32 - body.length) 0
def headPacket (ty : Nat) (body : List Byte) : Packet := newPacket 1 3 5 0 (BitVec.ofNat 512 (bytesNat (packetBytes ty body))) none
/-- The front end's read answers bytes that are well formed as a packet, of a WAIT or another one; a WAIT reads its list. -/
def fetches (wait : Bool) (s : State) : Bool :=
  match ({ s with lastSlot := 0, served := mset s.served 0 (s.now + 16) } : State).frontAcquire.frontRead 5
      (ringQueue.slotAddr 0) 64 with
  | .ok u bs =>
    let p := newPacket u.nextId 3 5 0 (BitVec.ofNat 512 (bytesNat bs)) none
    let v := { u.setQueue 3 ringQueue with nextId := u.nextId + 1, packets := u.packets ++ [p] }
    p.malformed == none && p.isWait == wait && (!wait || match v.readList p with
      | .hold _ q => q.read
      | _ => false)
  | _ => false
theorem witness_QueuesFetchAndPacketsRun :
    let s := queued ringQueue (packetBytes 0x0F [])
    let w := queued ringQueue (packetBytes 0x06 (natBytes 8 0x10040 ++ [1]))
    let e := queued Queue.start []
    let i := queued { ringQueue with st := .idle, slot := none, wptr := 0 } []
    let r := queued { ringQueue with st := .resetting, wptr := 0 } []
    let v : Word := BitVec.ofNat 64 (9 * 2 ^ 16 + 2 ^ 15 + 2 ^ 7 + 2)
    ((s.queue 3).st = .mapped ∧ (s.queue 3).wptr ≤ (4 : Word).toNat ∧ (4 : Word).toNat ≤ (s.queue 3).rptr + 2 ^ (s.queue 3).logsz) ∧
    ((e.queue 3).st = .disabled ∧ v.getLsbD 15 = true ∧ e.liveByPasid (v.toNat / 2 ^ 16 % 2 ^ 20) = some 5 ∧
      2 ≤ v.toNat % 32 ∧ v.toNat % 32 ≤ 16 ∧ v.toNat / 2 ^ 7 % 2 ^ 8 ≠ 0 ∧
      (e.queues.filter (fun x => x.2.en && x.2.asid == 5)).length < 256) ∧
    ((i.queue 3).st = .idle ∧ (2 : Word).getLsbD 15 = false ∧ (∀ k ∈ i.kernels, k.2.qid ≠ 3) ∧
      (∀ x ∈ i.replays, x.2.qid ≠ 3)) ∧
    ((r.queue 3).st = .resetting ∧ (r.queue 3).wptr ≤ (r.queue 3).rptr ∧ (∀ p ∈ r.packets, p.qid ≠ 3)) ∧
    (i.queues = [(3, i.queue 3)] ∧ (i.queue 3).slot = none ∧ (i.queue 3).overrun = false ∧ (i.queue 3).asid = 5 ∧
      ({ i with runList := [5] } : State).turn = none) ∧
    (s.nextFetch = some (3, ringQueue) ∧ s.hostDead = false ∧ ringQueue.wptr ≤ ringQueue.rptr + 2 ^ ringQueue.logsz ∧
      fetches false s = true ∧ w.nextFetch = some (3, ringQueue) ∧ w.hostDead = false ∧ fetches true w = true) := by decide +kernel
/-- The queue whose head packet is one of a type, in the same page. -/
def packetOf (ty : Nat) (body : List Byte) (f : Packet → Packet) : State :=
  { queued ringQueue [] with packets := [f (headPacket ty body)] }
/-- The kernel object at the start of the page: a group of one strand, entry 0x10040, no flume, no banks. -/
def kernelObject : List Byte :=
  natBytes 4 0x4A424F4B ++ [1, 0, 0, 0] ++ natBytes 8 0x10040 ++ [1, 0, 0, 0] ++ List.replicate 44 0
def launched : Launch := ((packetOf 1 (natBytes 8 0x10000 ++ natBytes 8 99 ++ [1, 0, 0, 0, 7, 0, 0, 0]) id).setQueue 3
  ringQueue).launchChecks 5 (headPacket 1 (natBytes 8 0x10000 ++ natBytes 8 99 ++ [1, 0, 0, 0, 7, 0, 0, 0]))
/-- An answer of the front end with bytes. -/
def answers (f : Front) : Bool :=
  match f with
  | .ok _ _ => true
  | _ => false
/-- A packet at the head of its ring, with its queue mapped. -/
abbrev Heads (s : State) (p : Packet) : Prop :=
  s.packets = [p] ∧ p.qid < 4096 ∧ p.st = .head ∧ p.node = none ∧ p.ord = false ∧ (s.queue p.qid).st = .mapped
/-- The graph object at the start of the page: one node behind it, buffers at 0x11000 and 0x12000. -/
def graphObject : List Byte :=
  natBytes 4 0x48505247 ++ [1, 0, 0, 0] ++ natBytes 8 0x10040 ++ natBytes 8 0x11000 ++ natBytes 8 0x12000 ++
    List.replicate 32 0 ++ [0x0F] ++ List.replicate 127 0
/-- The reads of a graph's acceptance answer, and what they read is a graph that nothing refuses. -/
def graphReads (u : State) (p : Packet) : Bool :=
  match u.frontRead p.asid (p.field 0x20 8) 64 with
  | .ok v bs =>
    match v.frontRead p.asid (fieldOf (bytesNat bs) 8 8) (128 * fieldOf (bytesNat bs) 4 2) with
    | .ok _ cs => graphBad (bytesNat bs) == false &&
        (nodesOf (bytesNat cs) (fieldOf (bytesNat bs) 4 2)).zipIdx.all
          fun y => nodeBad (fieldOf (bytesNat bs) 0x20 4) y.2 y.1 == false
    | _ => false
  | _ => false
theorem witness_QueuesFetchAndPacketsRun_packets :
    let nop := packetOf 0x0F [] id
    let copy := packetOf 0x04 (natBytes 8 0x10000 ++ natBytes 8 0x10400 ++ [64, 0, 0, 0]) id
    let sig := packetOf 0x05 (natBytes 8 0x10200 ++ natBytes 8 5 ++ [0]) id
    let add := packetOf 0x05 (natBytes 8 0x10200 ++ natBytes 8 5 ++ [1]) id
    let stamp := packetOf 0x09 (natBytes 8 0x10200) id
    let h (s : State) := s.packets.headD (headPacket 0 [])
    let u (s : State) := s.frontAcquire
    ((∀ s ∈ ([nop, copy, sig, add, stamp] : List State), Heads s (h s)) ∧ (h nop).ty = 0x0F ∧ (h copy).ty = 0x04 ∧
      (h sig).ty = 0x05 ∧ (h stamp).ty = 0x09) ∧
    ((∀ s ∈ ([sig, add] : List State), answers ((u s).frontAtom (h s).asid ((h s).field 0x20 8)
        (if (h s).field 0x30 1 = 0 then 6 else 0) (BitVec.ofNat 64 ((h s).field 0x28 8))) = true) ∧
      answers ((u stamp).frontWriteLine (h stamp).asid ((h stamp).field 0x20 8)
        (natBytes 8 ((u stamp).ptime (u stamp).front).toNat)) = true) := by decide +kernel
theorem witness_QueuesFetchAndPacketsRun_kernels :
    let launch := packetOf 1 (natBytes 8 0x10000 ++ natBytes 8 99 ++ [1, 0, 0, 0, 7, 0, 0, 0]) id
    let l : State := { launch with mem := memPutList [] 0x100000 kernelObject }
    let retire : State := { packetOf 3 [7, 0, 0, 0] id with kernels := [(1, kern)] }
    let feed (f : Packet → Packet) : State :=
      { packetOf 2 ([7, 0, 0, 0, 0xFF, 0, 0, 0] ++ natBytes 8 0x10000 ++ [1, 0, 0, 0]) f with kernels := [(1, kern)] }
    let reads : State := feed fun p => { p with read := true }
    let graph : State := { packetOf 8 (natBytes 8 0x10000) id with mem := memPutList [] 0x100000 graphObject }
    let h (s : State) := s.packets.headD (headPacket 0 [])
    ((∀ s ∈ ([l, retire, feed id, reads, graph] : List State), Heads s (h s)) ∧ (h l).ty = 1 ∧ (h retire).ty = 3 ∧
      (h reads).ty = 2 ∧ (h graph).ty = 8) ∧
    (match l.frontAcquire.launchChecks (h l).asid (h l) with
      | .make _ _ _ => true
      | _ => false) = true ∧
    retire.frontAcquire.kernelByTag 5 ((h retire).field 0x20 4) = some (1, kern) ∧
    ((h reads).field 0x24 1 = 0xFF ∧ (h reads).field 0x30 4 = (h reads).prog + 1 ∧ (h reads).read = true ∧
      ∀ w ∈ ([reads, (feed id).frontAcquire] : List State), w.kernelByTag 5 ((h reads).field 0x20 4) = some (1, kern) ∧
        kern.closed = false ∧ kern.cap ≠ 0 ∧ mfind kern.flumes (w.feedDie 0xFF 0) = some ⟨0, 0, []⟩ ∧ (⟨0, 0, []⟩ : Flume).count < kern.cap ∧
        answers (w.frontRead 5 ((h reads).field 0x28 8 + 64 * 0) 64) = true) ∧
    (graph.frontAcquire.bufferBusy 5 ((h graph).field 0x20 8) 0 = false ∧ (h graph).field 0x20 8 % 64 = 0 ∧
      graphReads graph.frontAcquire (h graph) = true) := by decide +kernel
/-- A kernel whose groups have ended. -/
def retiring : Kernel := { kern with st := .retiring, done := 1, killed := 1 }
/-- Waits whose one condition holds, a node that issues, a complete and a released packet, and a kernel to retire. -/
theorem witness_QueuesFetchAndPacketsRun_ends :
    let wait (ty : Nat) : State := packetOf ty [] (fun p => { p with read := true, list := [(0x10000, 0, 0)] })
    let h (s : State) := s.packets.headD (headPacket 0 [])
    let holds (s : State) := (s.frontAcquire.waitMask 5 (h s).list 1).elim (fun _ => false) (fun m => m.2 == 1)
    let x : BitVec 1024 := 0x0F
    let r : Replay := ⟨3, 5, 0x10000, 0, 0x11000, 0x12000, 0, 0, [x], [], [], [], [], none⟩
    let q := newPacket State.reset.nextId r.qid r.asid 0 (overlay x []) (some (1, 0))
    let g : State := { State.reset with replays := [(1, r)] }
    ((∀ s ∈ ([wait 6, wait 7] : List State), Heads s (h s) ∧ (h s).read = true ∧ holds s = true ∧ (h s).list.length = 1) ∧
      (h (wait 6)).ty = 6 ∧ (h (wait 7)).ty = 7) ∧
    (mfind g.replays 1 = some r ∧ r.nodes[0]? = some x ∧ g.replayRuns 1 r = true ∧ r.unread [] = none ∧ r.nextNode = some 0 ∧
      r.flying.length < 16 ∧ g.packets = [] ∧ nodeCond x = false ∧ nodeMask x = 0 ∧ nodeField x 0 1 = 0x0F ∧
      q.malformed = none) ∧
    (∀ st ∈ ([.ready, .released] : List PktSt), (({ headPacket 0x0F [] with st := st } : Packet).status = 0 ∧
      (headPacket 0x0F []).res = 0 ∧ (headPacket 0x0F []).sig = 0 ∧ (headPacket 0x0F []).msi = false ∧
      (headPacket 0x0F []).rels = [])) ∧
    (retiring.st = .retiring ∧ retiring.done + retiring.killed = retiring.ngroups) := by decide +kernel
/-- The package with context 5 in some state, CARG0 naming it, and CARG1. -/
def hosted (st : CtxSt) (n : Nat) : State :=
  { State.reset with ctxs := [(5, { Ctx.start with st := st })], carg0 := 5, carg1 := BitVec.ofNat 64 n }
theorem witness_ContextsAndServicesAnswer :
    let c : State := { hosted .live 4 with carg0 := 0x40 }
    let k : State := { hosted .live (7 * 2 ^ 32) with kernels := [(1, { kern with next := 1 })],
                                                      groups := [(groupId 1 0, ⟨.running, [1], 0, 0, 0, false⟩)] }
    (c.cwait = [] ∧ (1 : Word).toNat % 256 = 1 ∧ (1 : Word).getLsbD 15 = false ∧
      (∀ x ∈ c.ctxs, x.2.st = .free ∨ x.2.pasid ≠ (0x9000001 : Word).toNat / 2 ^ 24 % 2 ^ 20) ∧
      (List.range 2048).find? (fun a => (c.ctx a).st == .free) = some 0 ∧ c.carg0.toNat % 64 = 0 ∧
      c.carg0.toNat < 2 ^ 56 ∧ 4 ≤ c.carg1.toNat % 32 ∧ c.carg1.toNat % 32 ≤ 16) ∧
    (∀ e ∈ ([hosted .live 0, hosted .dead 0, k, hosted .live (2 ^ 16), hosted .live (2 ^ 32), hosted .live (2 ^ 40)] :
        List State), e.cwait = [] ∧ e.argAsid = 5 ∧ (e.ctx 5).secure = false) ∧
    ((hosted .live 0).kernels = [] ∧ (hosted .live 0).queues = [] ∧ (hosted .live 0).images = [] ∧ State.reset.ctxs = [] ∧
      k.kernelByTag 5 (k.carg1.toNat / 2 ^ 32) = some (1, { kern with next := 1 }) ∧
      mfind k.groups (groupId 1 (k.carg1.toNat % 2 ^ 32)) = some ⟨.running, [1], 0, 0, 0, false⟩) ∧
    (((hosted .tearing 0).ctx 5).st = .tearing ∧ (hosted .tearing 0).atsReq = [] ∧ (hosted .tearing 0).pri = [] ∧
      (hosted .tearing 0).packets = []) := by decide +kernel
/-- The image of a Saved strand of context 5. -/
def savedImage : Image := ⟨{ Strand.start with st := .saved, asid := some 5 }, 1, 0, [], [], [], [], [], [], none⟩
/-- A page of context 5 over its first GiB, in host memory. -/
def hostPage : Leaf := ⟨5, 0, 2 ^ 30, 0, 2, false, false, false, true, true, false, false⟩
/-- READIMG of that image, of core 1, to address 0, with the page in the front end's TLB. -/
def imageHost : State :=
  { (State.reset.setCore 0 { State.reset.core 0 with tlb := [hostPage] }) with
    ctxs := [(5, { Ctx.start with st := .live })], carg0 := 5 + 2 ^ 32, images := [(imageKey (groupId 1 0) 1, savedImage)] }
/-- An image that is there, and all of whose lines its destination takes. -/
theorem witness_ContextsAndServicesAnswer_readimg :
    let s := imageHost
    let u := ({ s with ccmd := (7 : Word) &&& 0x00000FFFFFFF80FF } : State).post (dieOf s.front) 7 7 0
    (s.cwait = [] ∧ (7 : Word).toNat % 256 = 7 ∧ (s.ctx s.argAsid).secure = false ∧ s.readimg = none ∧
      (s.ctx s.argAsid).st ≠ .free ∧ s.imageOn s.argAsid (s.carg0.toNat / 2 ^ 32 % 512) = some savedImage ∧
      s.carg1.toNat % 2 ^ 16 = 0) ∧
    ∃ w bs, u.writeImage s.argAsid s.carg1.toNat (s.carg0.toNat / 2 ^ 32 % 512) savedImage
      (fun o => savedImage.byte u (s.carg0.toNat / 2 ^ 32 % 512) o) 0 savedImage.lines = .ok w bs := by
  refine ⟨by decide +kernel, writeImage_clean 5 0 0 1 savedImage.lines 0 hostPage savedImage _ _
    ⟨by decide +kernel, by decide +kernel, by decide +kernel, by decide +kernel⟩
    ⟨rfl, rfl, rfl, rfl, rfl, rfl, by decide, by decide⟩ (by decide +kernel)⟩
/-- The user strand Trapped on a SYSC with a code, with what its context holds. -/
def served (code : Nat) (g : SMap Word) : State :=
  (userWith fun t => { t with st := .trapped, cause := BitVec.ofNat 64 (cSYSC.toNat + 2 ^ 8 * code), g := g })
theorem witness_ContextsAndServicesAnswer_services :
    let one := served 1 [(1, 6), (2, 1), (3, 1)]
    let two : State := { served 2 [(1, 6), (2, 1), (3, 1)] with banks := [(6, 5)] }
    let three := served 3 [(1, 0), (2, 1)]
    let four : State := { served 4 [(1, 0xFF30000000007FC0), (2, 1)] with cellOwner := [(511, 5)] }
    let six : State := { served 6 [(1, 0xFF300000000301C0)] with tagOwner := [(7, 5)] }
    (∀ s ∈ ([served 0 [], one, two, three, four, served 5 [], six, served 7 []] : List State),
      s.inSysc 1 = true ∧ (s.strand 1).asid = some 5) ∧
    ((served 0 []).strand 1).codeField = 0 ∧ (one.strand 1).codeField = 1 ∧ (two.strand 1).codeField = 2 ∧
    (three.strand 1).codeField = 3 ∧ (four.strand 1).codeField = 4 ∧ ((served 5 []).strand 1).codeField = 5 ∧
    (six.strand 1).codeField = 6 ∧ ((served 7 []).strand 1).codeField = 7 ∧
    (one.present (6 % 6) = true ∧ mfind one.banks 6 = none ∧ mfind two.banks 6 = some 5 ∧ two.bankLeased 6 = false ∧
      three.present 0 = true ∧ mfind three.cellOwner 0 = none) ∧
    ((four.strand 1).gval 1 = BitVec.ofNat 64 (0xFF30000000000000 + 64 * 511) ∧ mfind four.cellOwner 511 = some 5 ∧
      (four.cell 511).st = .free ∧ mfind (served 5 []).tagOwner 0 = none ∧
      (six.strand 1).gval 1 = BitVec.ofNat 64 (0xFF30000000030000 + 64 * 7) ∧ mfind six.tagOwner 7 = some 5 ∧
      (six.cell (3072 + 7)).st = .free) ∧
    ((served 7 []).runList = [] ∧ (served 7 []).turn = none ∧ (served 7 []).queues = []) := by decide +kernel
/-- A link in some state. -/
def linked (n : Nat) (f : PLink → PLink) : State := { State.reset with links := [(n, f (PLink.start n))] }
/-- Link 18 is none, 17 and 48 are; the last die's flow to die 0 with one operation. -/
theorem witness_TranslationsLinksAndTimeAreKept :
    let s := hosted .live 0
    let i : Inval := ⟨0, 2 ^ 56, [(0x40000, 0x10000)], [(0, 0)]⟩
    let b : State := { s with ctxs := [(5, { Ctx.start with st := .live, inval := some i })] }
    let r : PriReq := ⟨383, 5, 1, 0⟩
    let p : State := { s with pri := [r], now := 4400000 }
    let o : FlowOp := ⟨0, 320, .strand 3, 0, [], 6, 0⟩
    let d (n : Nat) : State := { State.reset with dieFlows := [(48 * 5 + 8 * 0 + 7, ⟨1, [o], n, []⟩)], now := 512 }
    let t (k : Nat) : State := linked 48 (fun l => { l with st := .training, fails := k })
    let u := linked 48 (fun l => { l with st := .up, width := 16 })
    let m := State.reset.setDie 5 { State.reset.die 5 with slewed := 1 }
    ((s.ctx 5).inval = none ∧ (1 : Word).getLsbD 0 = true ∧ (1 : Word).toNat / 2 ^ 32 = 0 ∧ (b.ctx 5).inval = some i ∧
      b.rangePinned 5 i = false ∧ b.rangePressed i = true ∧
      ({ s with atsReq := [(5, 7, 8)] } : State).atsReq = [(5, 7, 8)] ∧ (s.ctx 5).st = .live) ∧
    (p.pri = [r] ∧ r.core = 383 ∧ (p.ctx r.asid).st = .live ∧ r.tick + 4400000 ≤ p.now) ∧
    (isLink 17 = true ∧ isLink 32 = true ∧ isLink 48 = true ∧ ((linked 17 id).link 17).st = .down ∧
      ((t 1).link 48).st = .training ∧ ((t 1).link 48).cap = fullWidth 48 ∧ ((t 1).link 48).fails + 1 < 3 ∧
      3 ≤ ((t 2).link 48).fails + 1 ∧ (u.link 48).st = .up ∧ (u.link 48).width = fullWidth 48) ∧
    ((∀ n ∈ [0, 1], mfind (d n).dieFlows (48 * 5 + 8 * 0 + 7) = some ⟨1, [o], n, []⟩ ∧ o.tick + 512 ≤ (d n).now ∧
        ((d n).link (32 + 5)).st ≠ .training ∧ ((d n).link (32 + 0)).st ≠ .training) ∧ o.attempts + 1 < 8 ∧
      (unwrapSq 1 o.sq).any (DieFlow.has ⟨1, [o], 1, []⟩) = true ∧ (unwrapSq 0 o.sq).any (DieFlow.has ⟨1, [o], 0, []⟩) = false) ∧
    ((State.reset.die 5).slewed ≤ State.reset.now ∧ m.now < (m.die 5).slewed ∧
      (let x : State := { u with master := some 48 }
       x.mayAlign [(48, 9)] = true ∧ (x.die 5).path ≠ some [48] ∧ (∀ e ∈ List.range 5, 48 ∉ (x.die e).path.getD []) ∧
        x.mayAlign [] = false ∧ (x.align 5 [(48, 9)]).mayAlign [(48, 7)] = true ∧ ((x.align 5 [(48, 9)]).die 5).path = some [48] ∧
        x.inStep 5 { x.die 5 with ptime := (x.die 5).ptime + 1 } = true ∧
        x.inStep 5 { x.die 5 with lag := (x.die 5).lag + 1 } = true)) := by decide +kernel
/-- A boot in which every test passes. -/
def goodBoot : Boot := ⟨2, [], [], [], [], [], (List.range 6).flatMap (fun a => (List.range 6).map (a, ·)), false, 77, 287, 0,
  [(0, .half), (17, .quarter)], 48, [(48, 3), (35, 2)], 0⟩
theorem witness_ThePackageStartsStopsAndIsManaged :
    let off : State := { State.reset with powered := false }
    let due : State := { State.reset with resetDue := true }
    let r : Report := ⟨false, 0, 0, [0, 0, 0, 0, 0, 0], 0, 0, 0⟩
    let b := sharedAddr 0x3C
    let t := userWith fun t => { t with st := .trapped, decided := true }
    (bootOk goodBoot = true ∧ off.powered = false ∧ due.powered = true ∧ due.resetDue = true ∧
      (State.reset.boot goodBoot).ready = true ∧ goodBoot.imageBad = [] ∧ goodBoot.clusterBad = [] ∧
      goodBoot.memoryBad = [] ∧ (∀ d, d < 6 → linkFails goodBoot d = false) ∧ goodBoot.basinBad = false ∧
      isLink 17 = true ∧ (State.reset.boot goodBoot).mayAlign (bootPath goodBoot 3) = true ∧
      (∀ d, d < 6 → ∀ e, e < 6 → (d, e) ∈ goodBoot.acceptances)) ∧
    (([3080, 3080, 3080, 3080, 3080, 3080, 1500, 2000] : List Nat).length ≤ 8 ∧
      (∀ x ∈ ([3080, 3080, 3080, 3080, 3080, 3080, 1500, 2000] : List Nat).zip [3080, 3080, 3080, 3080, 3080, 3080, 1500, 2000],
        x.1 ≤ x.2) ∧
      ¬(∀ x ∈ ([3081] : List Nat).zip [3080, 3080, 3080, 3080, 3080, 3080, 1500, 2000], x.1 ≤ x.2) ∧ ({ State.reset with report := some r } : State).report = some r ∧
      r.diestat.length = 6 ∧ 0x3C % 64 + [1, 2, 3, (4 : Byte)].length ≤ 64 ∧
      0x3C + [1, 2, 3, (4 : Byte)].length ≤ Config.sharedBytes ∧ State.reset.present (0x3C / 2 ^ 20 % 6) = true ∧
      mfind State.reset.failed (b / 64) = none) ∧
    ((t.strand 1).st = .trapped ∧ (t.strand 1).decided = true) := by decide +kernel
/-- A state whose strand in focus may issue its next word, which decodes. -/
noncomputable def mayRun (u : State) (core : Nat) : Bool :=
  u.powered && !u.resetDue && u.dieMoves (core / 64) && !u.exitHolds core &&
    (u.me.st == .running || u.me.st == .stalled || u.me.st == .halting) && !u.me.owes && !u.me.requeues &&
    (match (u.fetch core u.me.pc).2 with
      | .word bs => (decode bs).toBool
      | _ => false)
/-- Firmware core 0 with a word at its pc, and with a schedule. -/
def wordAt (w : IWord) (l : List Slot) : State := { fw [] with mem := memPutList [] 0 (wordBytes w), sched := l }
/-- A scheduled and an unscheduled addi; an haltt of a table; an event without a turn, and one with a turn; a grant; a
table whose turn has passed; and the package without power. -/
theorem witness_AStepRunsTheDecodedInstruction :
    let a := wordAt 0x08668012 [⟨1, .strand 0, Choice.start⟩]
    let b := wordAt 0x08668012 []
    let f := { withFrags [(3, orderFrag (orderTable ((encode .haltt).headD 0) 0))] with
      sched := [⟨1, .table 0 3, Choice.start⟩] }
    let g : State := { f.advance 1 with sched := [], choice := Choice.start, cur := 0, curTable := 3, phase := [8] }
    let t := orderTable ((encode .haltt).headD 0) 0
    let e : State := { (fw []).advance 1 with sched := [], choice := Choice.start }
    let p : State := { (fw []).advance 0 with phase := [9] }
    let off : State := { (fw []) with powered := false }
    let wl : Instr := .wld 0 3 false 0 0
    let d := { withFrags [(3, orderFrag (orderTable ((encode wl).headD 0) 0))] with sched := [⟨1, .part 0 3 0, Choice.start⟩] }
    let k : State := { d.advance 1 with sched := [], choice := Choice.start, cur := 0, curTable := 3, phase := [8] }
    let z := orderTable ((encode wl).headD 0) 0
    (turnLt [7, 0, 1] (a.advance 1).phase = false ∧
      mayRun { a.advance 1 with sched := [], choice := Choice.start, cur := 0, phase := [7, 0, 2] } 0 = true) ∧
    (b.sched = [] ∧ (b.advance 1).cur = 0 ∧ (fw []).me.st = .running ∧
      mayRun { b.advance 1 with choice := Choice.start, phase := [7, 0, 2] } 0 = true) ∧
    (isHandle 3 = true ∧ turnLt [8] (f.advance 1).phase = false ∧ g.powered = true ∧ g.resetDue = false ∧
      g.dieMoves (0 / 64) = true ∧ g.tbl 0 3 = some t ∧ t.upc < t.words.length ∧
      (decodeOrder (decide (8 ≤ 3)) (t.words.getD t.upc 0) (t.words.getD (t.upc + 1) 0)).toOption = some .haltt ∧
      after (exec .haltt g) (fun _ => true)) ∧
    (turnLt [8] (d.advance 1).phase = false ∧ k.powered = true ∧ k.resetDue = false ∧ k.dieMoves (0 / 64) = true ∧
      k.tbl 0 3 = some z ∧ z.upc < z.words.length ∧
      (decodeOrder false (z.words.getD z.upc 0) (z.words.getD (z.upc + 1) 0)).toOption = some wl ∧
      after (wldPart 0 3 0 0 0 k) (fun _ => true)) ∧
    (e.holds .managementReading = true ∧ e.turn? (.event .managementReading) = none ∧ e.holds (.pldmUpdate 0) = true ∧
      e.turn? (.event (.pldmUpdate 0)) = some [19] ∧ turnLt [19] e.phase = false ∧ e.holds .inputPowerLoss = false ∧
      e.holds (.reshapeComplete 0) = false) ∧
    (e.turn? (.event .inputPowerLoss) = none ∧ e.mayHappen .inputPowerLoss = true ∧
      e.turn? (.event (.reshapeComplete 0)) = some [12] ∧ turnLt [12] e.phase = false ∧ turnLt [12] [10] = false ∧
      ({ e.settleCells with phase := turnAfter [12] } : State).mayHappen (.reshapeComplete 0) = true) ∧
    (e.powered = true ∧ e.resetDue = false ∧ p.turn? (.table 0 3) = some [8] ∧ turnLt [8] p.phase = true) ∧
    (off.advance 1).powered = false ∧ (off.advance 1).killDue = [] := by decide +kernel
/-- A strand word, a micro-order of each code space, and bytes that decode. -/
theorem witness_DecodingUndoesEncoding :
    (Instr.addi ⟨3, 6, true, 18⟩).wf = true ∧ (Instr.addi ⟨3, 6, true, 18⟩).isStrand = true ∧ Instr.wswap.wf = true ∧
      Instr.wswap.isMatrix = true ∧ (Instr.cpo 2 3 1 true).wf = true ∧ (Instr.cpo 2 3 1 true).isCopy = true ∧
      (decode (wordBytes 0xC0000000)).toOption = some (.nop, []) := by decide +kernel
theorem witness_EveryStepKeepsMemoryCanonical :
    Memory.wf State.reset.mem = true ∧ after (step (wordAt 0x08668012 [])) (fun _ => true) = true := by decide +kernel
theorem witness_NoWordStopsTheMachine :
    Instr.halt.isStrand = true ∧ Instr.haltt.isMatrix = true ∧ (Instr.cpo 2 3 1 true).isCopy = true := by decide +kernel

end Sys2Proof.Tests
end

section
/-! SUPPORT. Control registers (R14, R43, R64, R70, R71, R125, R137): the mode check of a number, what CGET and CSET come to
where it passes, and what a CSET of a user strand can change. -/

namespace Sys2Proof.Machine

section control
variable (s : State) (n : Nat) (w x : Word) (k : Result State)

/-- A number that may be named in the strand's mode (R71, R125). -/
theorem controlGate_named (h : n < 0x100 ∨ s.me.mode = true ∧ n ≤ 0x102) : s.controlGate n w k = k := by
  unfold State.controlGate
  rcases h with h | ⟨m, h⟩
  · rw [if_neg (by omega)]
  · simp [m, h]
theorem controlGate_user (h : 0x100 ≤ n) (m : s.me.mode = false) : s.controlGate n w k = s.trap cPRIV w := by
  simp [State.controlGate, h, m]
theorem controlGate_unnamed (h : 0x102 < n) (m : s.me.mode = true) : s.controlGate n w k = s.trap cUNDEF w := by
  rw [State.controlGate, if_pos (by omega), m, Bool.not_true, if_neg Bool.false_ne_true, if_neg (by omega)]

/-- The wait for the vector unit is over (R43). -/
theorem waitsVector_idle (h : n ≤ 2 → s.me.vectorIdle = true) : (waitsVector n && !s.me.vectorIdle) = false := by
  by_cases hn : n ≤ 2
  · simp [h hn]
  · simp [waitsVector, hn]

variable (o : OpA)

theorem exec_cget_named (hn : cnum o.a o.b < 0x100 ∨ s.me.mode = true ∧ cnum o.a o.b ≤ 0x102)
    (hv : cnum o.a o.b ≤ 2 → s.me.vectorIdle = true) (hd : s.me.Free o.d) :
    exec (.cget o) s = .next (s.doneReg o.d (s.control s.cur (cnum o.a o.b))) := by
  rw [exec_cget, execCget, controlGate_named _ _ _ _ hn, dest_ready _ _ _ hd, waitsVector_idle _ _ hv,
    if_neg Bool.false_ne_true, write_ready _ _ _ hd]
  rfl
theorem exec_cset_named (hn : cnum o.a o.b < 0x100 ∨ s.me.mode = true ∧ cnum o.a o.b ≤ 0x102)
    (hv : cnum o.a o.b ≤ 2 → s.me.vectorIdle = true) (hd : s.me.Ready o.d) :
    let u := s.setControl s.cur (cnum o.a o.b) (s.me.gval o.d.toNat)
    exec (.cset o) s = .next (u.doneWith u.me) := by
  rw [exec_cset, execCset, controlGate_named _ _ _ _ hn, src1_full _ _ _ _ hd, waitsVector_idle _ _ hv,
    if_neg Bool.false_ne_true]
  rfl

/-- A strand that differs from another in nothing but c.FFLAGS, c.FRM, c.SRSTATE and c.VRB. -/
def Strand.OnlyFloatControls (t u : Strand) : Prop :=
  u = { t with fflags := u.fflags, frm := u.frm, srstate := u.srstate, vrb := u.vrb }

theorem onlyFloatControls_setFrm (t : Strand) : t.OnlyFloatControls (t.setFrm x) := by
  unfold Strand.setFrm
  split <;> rfl

/-- In user mode every other register is RO, or is not there (R71, R125). -/
theorem setControl_user (hm : s.me.mode = false) :
    s.setControl s.cur n x = s ∨ ∃ t, s.me.OnlyFloatControls t ∧ s.setControl s.cur n x = s.setMe t := by
  have m : (s.strand s.cur).mode = false := hm
  unfold State.setControl
  split
  case h_1 => exact .inr ⟨s.me.clearFlags x, rfl, rfl⟩
  case h_2 => exact .inr ⟨s.me.setFrm x, onlyFloatControls_setFrm x s.me, rfl⟩
  case h_3 => exact .inr ⟨{ s.me with srstate := x }, rfl, rfl⟩
  case h_4 => exact .inr ⟨{ s.me with vrb := x.extractLsb' 0 4 }, rfl, rfl⟩
  all_goals simp [m]

/-- The end of an instruction after the strand in focus was replaced. -/
theorem doneWith_setMe (t : Strand) (h : t.pc = s.me.pc) : (s.setMe t).doneWith (s.setMe t).me = s.doneWith t := by
  simp [State.doneWith, h]

/-- What a CSET of a user strand leaves: the strand with some of those registers written, at the next word. -/
theorem setControl_user_done (hm : s.me.mode = false) :
    let u := s.setControl s.cur n x
    ∃ t, s.me.OnlyFloatControls t ∧ u.doneWith u.me = s.doneWith t := by
  rcases setControl_user s n x hm with e | ⟨t, h, e⟩
  · exact ⟨s.me, rfl, by rw [e]⟩
  · exact ⟨t, h, by rw [e, doneWith_setMe s t (by rw [h])]⟩

/-- An instruction that ends with only those registers changed keeps everything else (R14, R125). -/
theorem doneWith_frame {t : Strand} (h : s.me.OnlyFloatControls t) :
    let v := s.doneWith t
    OnlyStrand s v ∧ KeepsRegs [] s.me v.me ∧
      KeepsRest { s.me with fflags := v.me.fflags, frm := v.me.frm, srstate := v.me.srstate, vrb := v.me.vrb } v.me := by
  have e : (s.doneWith t).me = t.finish (s.me.pc + 4) := me_setMe ..
  refine ⟨?_, ?_, ?_⟩
  · show s.doneWith t = s.setMe (s.doneWith t).me
    rw [e]; rfl
  · intro n _
    rw [e, h]
    exact ⟨rfl, rfl⟩
  · show (s.doneWith t).me = _
    rw [e, h]
    rfl
end control
end Sys2Proof.Machine

open Sys2Proof.Machine

/-- Settles O10: the gate of the number and the end of CGET and CSET are `exec_cget_named`, `exec_cset_named` and the
`controlGate` lemmas; the frame of a user strand's CSET is `setControl_user_done` with `doneWith_frame`. -/
theorem controlRegistersReadAndWrite : Obligations.ControlRegistersReadAndWrite := by
  intro o s n u
  refine ⟨fun _ => ⟨fun hn hv hd => exec_cget_named s o hn hv hd, fun lo _ =>
    ⟨fun m => controlGate_user s n _ _ lo m, fun m h => controlGate_unnamed s n _ _ h m⟩⟩, fun _ =>
    ⟨fun hn hv hd => exec_cset_named s o hn hv hd, fun lo _ =>
      ⟨fun m => controlGate_user s n _ _ lo m, fun m h => controlGate_unnamed s n _ _ h m⟩, fun m hd hn hv => ?_⟩⟩
  obtain ⟨t, ht, e⟩ := setControl_user_done s n (s.me.gval o.d.toNat) m
  refine ⟨s.doneWith t, ?_, doneWith_frame s ht⟩
  rw [exec_cset_named s o (.inl hn) hv hd]
  exact congrArg _ e
end

section
/-! SUPPORT. Alignment (R477, R482): what taking a path to the time master changes, and that it locks the die. -/

namespace Sys2Proof.Machine

section align
variable {s t u : State}

theorem die_setDie_other (s : State) {d e : Nat} (x : Die) (h : e ≠ d) : (s.setDie d x).die e = s.die e :=
  mget_mset_other _ _ _ _ _ h
theorem link_setLink (s : State) (n m : Nat) (l : PLink) : (s.setLink n l).link m = if m = n then l else s.link m := by
  show mget (mset s.links n l) m _ = _
  rw [mget_mset]; rfl

/-- LSKEW of some links is all that differs. -/
structure Reskews (s t : State) : Prop where
  rest : t = { s with links := t.links }
  link : ∀ n, t.link n = { s.link n with skew := (t.link n).skew }

theorem Reskews.refl (s : State) : Reskews s s := ⟨rfl, fun _ => rfl⟩
theorem Reskews.trans (h : Reskews s t) (k : Reskews t u) : Reskews s u :=
  ⟨by rw [k.rest, h.rest], fun n => by rw [k.link, h.link]⟩
theorem Reskews.die (h : Reskews s t) (d : Nat) : t.die d = s.die d := by rw [h.rest]; rfl
theorem reskews_setLink (s : State) (n x : Nat) : Reskews s (s.setLink n { s.link n with skew := x }) := by
  refine ⟨rfl, fun m => ?_⟩
  rw [link_setLink]
  split
  · rename_i h; rw [h]
  · rfl
theorem reskews_foldl {α : Type} (f : State → α → State) (h : ∀ s a, Reskews s (f s a)) (l : List α) (s : State) :
    Reskews s (l.foldl f s) := by
  induction l generalizing s with
  | nil => exact .refl s
  | cons a l ih => exact (h s a).trans (ih _)

/-- A step that gives a link an LSKEW figure unless some path uses it. -/
theorem reskews_unlessAligned (s : State) (n x : Nat) :
    Reskews s (if s.aligns n then s else s.setLink n { s.link n with skew := x }) := by
  split
  · exact .refl s
  · exact reskews_setLink s n x

theorem unalign_reskews (s : State) (d : Nat) :
    Reskews (s.setDie d { s.die d with path := none, skew := skewWord none (s.die d).skew }) (s.unalign d) :=
  reskews_foldl _ (fun s n => reskews_unlessAligned s n _) _ _

/-- Everything of the package but LSKEW figures, alignment paths and c.PTSKEW is as before. -/
structure Realigns (s t : State) : Prop where
  rest : t = { s with links := t.links, dies := t.dies }
  link : ∀ n, t.link n = { s.link n with skew := (t.link n).skew }
  die : ∀ d, t.die d = { s.die d with path := (t.die d).path, skew := (t.die d).skew }

theorem Realigns.refl (s : State) : Realigns s s := ⟨rfl, fun _ => rfl, fun _ => rfl⟩
theorem Realigns.trans (h : Realigns s t) (k : Realigns t u) : Realigns s u :=
  ⟨by rw [k.rest, h.rest], fun n => by rw [k.link, h.link], fun d => by rw [k.die, h.die]⟩
theorem Reskews.realigns (h : Reskews s t) : Realigns s t :=
  ⟨by rw [h.rest], h.link, fun d => by rw [h.die]⟩
theorem realigns_setDie (s : State) (d : Nat) (p : Option (List Nat)) (w : Word) :
    Realigns s (s.setDie d { s.die d with path := p, skew := w }) := by
  refine ⟨rfl, fun _ => rfl, fun e => ?_⟩
  by_cases h : e = d
  · rw [h, die_setDie]
  · rw [die_setDie_other s _ h]
/-- Which paths may align rests on what alignment leaves (R481, R482). -/
theorem Realigns.mayAlign (h : Realigns s t) (path : List (Nat × BitVec 32)) : t.mayAlign path = s.mayAlign path := by
  have live (n : Nat) : (t.link n).live = (s.link n).live := by rw [h.link]; rfl
  have master : t.master = s.master := by rw [h.rest]
  simp only [State.mayAlign, live, master]

variable (s) (d : Nat) (path : List (Nat × BitVec 32))

/-- A die that takes another path: LSKEW figures change, then its path and c.PTSKEW. -/
theorem align_fresh (h : (s.die d).path ≠ some (path.map (·.1))) :
    ∃ t bound w, Reskews (s.setDie d { s.die d with path := none, skew := w }) t ∧
      s.align d path = t.setDie d { t.die d with
        path := some (path.map (·.1)), skew := skewWord (some bound) (t.die d).skew } := by
  rw [State.align, if_neg h]
  exact ⟨_, _, _, (unalign_reskews s d).trans
    (reskews_foldl _ (fun s (l : Nat × BitVec 32) => reskews_unlessAligned s l.1 _) _ _), rfl⟩
theorem align_realigns : Realigns s (s.align d path) := by
  by_cases h : (s.die d).path = some (path.map (·.1))
  · rw [State.align, if_pos h]; exact .refl s
  · obtain ⟨t, bound, w, r, e⟩ := align_fresh s d path h
    rw [e]
    exact ((realigns_setDie s d _ _).trans r.realigns).trans (realigns_setDie t d _ _)
theorem die_align_other {e : Nat} (he : e ≠ d) : (s.align d path).die e = s.die e := by
  by_cases h : (s.die d).path = some (path.map (·.1))
  · rw [State.align, if_pos h]
  · obtain ⟨t, bound, w, r, eq⟩ := align_fresh s d path h
    rw [eq, die_setDie_other _ _ he, r.die, die_setDie_other _ _ he]

/-- LOCK of c.PTSKEW (R482). -/
theorem skewWord_locks (n : Nat) (old : Word) : (skewWord (some n) old).getLsbD 40 = true := by
  have h : min n (2 ^ 32 - 1) * 2 ^ 8 < 2 ^ 40 := by omega
  simp only [skewWord, BitVec.getLsbD_or, BitVec.getLsbD_ofNat, Nat.testBit_two_pow_add_eq, Nat.testBit_lt_two_pow h]
  rfl
theorem align_locks (h : (s.die d).path = none) : ((s.align d path).die d).skew.getLsbD 40 = true := by
  obtain ⟨t, bound, w, _, e⟩ := align_fresh s d path (by simp [h])
  rw [e, die_setDie]
  exact skewWord_locks _ _
end align

section bootAlign
variable (b : Boot)

/-- A die's part of stage 5 (R482, R517). -/
def State.alignAtBoot (s : State) (d : Nat) : State :=
  if s.mayAlign (bootPath b d) then s.align d (bootPath b d) else s

theorem bootAlign_eq (s : State) : s.bootAlign b = (bootDies b).foldl (State.alignAtBoot b) s := rfl

theorem alignAtBoot_realigns (s : State) (d : Nat) : Realigns s (s.alignAtBoot b d) := by
  unfold State.alignAtBoot
  split
  · exact align_realigns ..
  · exact .refl s
theorem die_alignAtBoot_other (s : State) {d e : Nat} (h : e ≠ d) : (s.alignAtBoot b d).die e = s.die e := by
  unfold State.alignAtBoot
  split
  · exact die_align_other _ _ _ h
  · rfl

theorem alignAll_realigns (l : List Nat) (s : State) : Realigns s (l.foldl (State.alignAtBoot b) s) := by
  induction l generalizing s with
  | nil => exact .refl s
  | cons d l ih => exact (alignAtBoot_realigns b s d).trans (ih _)
theorem die_alignAll_other {d : Nat} (l : List Nat) (s : State) (h : d ∉ l) :
    (l.foldl (State.alignAtBoot b) s).die d = s.die d := by
  induction l generalizing s with
  | nil => rfl
  | cons e l ih =>
    exact (ih _ (List.not_mem_of_not_mem_cons h)).trans
      (die_alignAtBoot_other b s (List.ne_of_not_mem_cons h))
/-- Each die of a list without repeats that may align, and has no path yet, is locked. -/
theorem alignAll_locks {d : Nat} (l : List Nat) (s : State) (hl : l.Nodup) (hd : d ∈ l) (hp : (s.die d).path = none)
    (hm : s.mayAlign (bootPath b d) = true) : ((l.foldl (State.alignAtBoot b) s).die d).skew.getLsbD 40 = true := by
  induction l generalizing s with
  | nil => exact absurd hd List.not_mem_nil
  | cons e l ih =>
    obtain ⟨he, hl⟩ := List.nodup_cons.1 hl
    rw [List.foldl_cons]
    by_cases h : d = e
    · subst h
      rw [die_alignAll_other b l _ he, State.alignAtBoot, if_pos hm]
      exact align_locks s d _ hp
    · refine ih _ hl ((List.mem_cons.1 hd).resolve_left h) ?_ ?_
      · rw [die_alignAtBoot_other b s h]; exact hp
      · rw [(alignAtBoot_realigns b s e).mayAlign]; exact hm
theorem bootAlign_realigns (s : State) : Realigns s (s.bootAlign b) := alignAll_realigns b _ s
end bootAlign

end Sys2Proof.Machine
end

section
/-! SUPPORT. Boot (R517 to R522): what a boot leaves of memory, and the package after a boot in which every test passes. -/

namespace Sys2Proof.Machine

section maps
variable {α : Type}

/-- A map cut to the numbers that a test lets through. -/
theorem mfind_filter (p : Nat → Bool) (m : SMap α) (k : Nat) :
    mfind (m.filter fun c => p c.1) k = if p k then mfind m k else none := by
  induction m with
  | nil => simp
  | cons c m ih =>
    obtain ⟨j, v⟩ := c
    by_cases hj : j = k
    · subst hj
      cases hp : p j <;> simp [mfind, hp, ih]
    · cases hp : p j <;> simp [mfind, hp, ih, hj]
/-- A map that lists a value for each number of a list. -/
theorem mfind_map_of_mem (f : Nat → α) (l : List Nat) (k : Nat) (h : k ∈ l) :
    mfind (l.map fun n => (n, f n)) k = some (f k) := by
  induction l with
  | nil => exact absurd h List.not_mem_nil
  | cons n l ih =>
    rw [List.map_cons, mfind]
    split
    · rename_i e; rw [e]
    · rename_i e; exact ih ((List.mem_cons.1 h).resolve_left (Ne.symm e))
end maps

/-- Host memory outlives a reset, and every other byte is zeroed (R517). -/
theorem memByte_hostCells (m : List Host.Cell) (a : Nat) :
    memByte (hostCells m) a = if 2 ^ 60 ≤ a ∧ a < 2 ^ 61 then memByte m a else 0 := by
  have h := mfind_filter (fun k => decide (hostBase ≤ k) && decide (k < 2 ^ 61)) m a
  simp only [Bool.and_eq_true, decide_eq_true_eq] at h
  rw [memByte, mget, hostCells, cellsIn, h]
  show (if 2 ^ 60 ≤ a ∧ a < 2 ^ 61 then mfind m a else none).getD memDefault = _
  split <;> rfl

section boot
variable (s : State) (b : Boot)

/-- The package as stage 4 leaves it (R517). -/
def State.bootTested : State :=
  { s.powerOff with
    powered := true
    dies := (List.range 6).map (fun d => (d, bootDie b d))
    cores := bootCores b
    links := bootLinks b
    stage := lastStage b
    digest := s.update.getD b.digest
    update := none
    master := some b.master
    management := b.management
    basinFailed := b.basinBad
    pending := s.pending }
/-- The package that stage 5 aligns (R517). -/
def State.bootReady : State :=
  { s.bootTested b with secmap := bootMap b, rsvg := b.rsvg.toNat, fabid := b.fabid, ready := true }

theorem boot_stopped (h : lastStage b ≠ 7) : s.boot b = s.bootTested b := if_neg h
theorem boot_complete (h : lastStage b = 7) :
    ∃ r, s.boot b = { (s.bootReady b).bootAlign b with report := some r } := ⟨_, if_pos h⟩

theorem boot_mem : (s.boot b).mem = hostCells s.mem := by
  by_cases h : lastStage b = 7
  · obtain ⟨r, e⟩ := boot_complete s b h
    rw [e, (bootAlign_realigns b _).rest]
    rfl
  · rw [boot_stopped s b h]
    rfl

theorem bootReady_die {d : Nat} (hd : d < 6) : (s.bootReady b).die d = bootDie b d := by
  show mget ((List.range 6).map fun d => (d, bootDie b d)) d _ = _
  rw [mget, mfind_map_of_mem _ _ _ (List.mem_range.2 hd)]
  rfl
/-- The links of R474, in ascending number. -/
theorem mem_of_isLink {n : Nat} (hn : isLink n = true) : n ∈ List.range 18 ++ (List.range 6).map (32 + ·) ++ [48] := by
  simp only [isLink, Bool.or_eq_true, Bool.and_eq_true, decide_eq_true_eq, beq_iff_eq] at hn
  simp only [List.mem_append, List.mem_range, List.mem_map, List.mem_singleton]
  rcases hn with (hn | hn) | hn
  · exact .inl (.inl hn)
  · exact .inl (.inr ⟨n - 32, by omega, by omega⟩)
  · exact .inr hn

/-- A boot in which every test passes and every die accepts every other (R519, R520). -/
structure BootPasses : Prop where
  image : b.imageBad = []
  cluster : b.clusterBad = []
  memory : b.memoryBad = []
  basin : b.basinBad = false
  link : ∀ d, d < 6 → linkFails b d = false
  accepts : ∀ d e, d < 6 → e < 6 → (d, e) ∈ b.acceptances

variable {b} (h : BootPasses b)
include h

theorem earlyStat_passes (d : Nat) : earlyStat b d = 0 := by
  simp [earlyStat, h.image, h.cluster, h.memory]
theorem testedDies_passes : testedDies b = List.range 6 := by
  simp [testedDies, earlyStat_passes h]
/-- Every die is accepted by the five others. -/
theorem bootAccepts_passes {d : Nat} (hd : d < 6) : bootAccepts b (List.range 6) d = 5 := by
  have e : (List.range 6).filter (fun e => e != d && b.acceptances.contains (e, d)) =
      (List.range 6).filter (fun e => e != d) :=
    List.filter_congr fun e he => by simp [h.accepts e d (List.mem_range.1 he) hd]
  have count : ∀ d < 6, ((List.range 6).filter (fun e => e != d)).length = 5 := by decide
  rw [bootAccepts, e, count d hd]
theorem bootDies_passes : bootDies b = List.range 6 := by
  have tested : (List.range 6).filter (fun d => !linkFails b d) = List.range 6 :=
    List.filter_eq_self.2 fun d hd => by simp [h.link d (List.mem_range.1 hd)]
  have agree : (List.range 6).all (fun d => bootAccepts b (List.range 6) d + 1 == (List.range 6).length) = true :=
    List.all_eq_true.2 fun d hd => by rw [bootAccepts_passes h (List.mem_range.1 hd)]; rfl
  rw [bootDies, h.basin, testedDies_passes h, tested, if_neg Bool.false_ne_true, authenticate, if_pos agree]
theorem lastStage_passes : lastStage b = 7 := by
  rw [lastStage, h.basin, testedDies_passes h, bootDies_passes h]; rfl

/-- Every link is trained (R476, R517). -/
theorem bootLinks_passes : bootLinks b =
    (List.range 18 ++ (List.range 6).map (32 + ·) ++ [48]).map fun n => (n, trainedLink b n) := by
  simp only [bootLinks, lastStage_passes h, bootDies_passes h, if_true, List.map_append, List.map_map, List.map_cons,
    List.map_nil]
  rfl
theorem bootReady_link {n : Nat} (hn : isLink n = true) : (s.bootReady b).link n = trainedLink b n := by
  show mget (bootLinks b) n _ = _
  rw [bootLinks_passes h, mget, mfind_map_of_mem _ _ _ (mem_of_isLink hn)]
  rfl
theorem bootReady_strand {d : Nat} : (s.bootReady b).strand (64 * d) = (Core.start (64 * d)).strand := by
  have e : bootCores b = [] := by rw [bootCores, bootDies_passes h]; rfl
  show (mget (bootCores b) (64 * d) _).strand = _
  rw [e]; rfl
theorem boot_link {n : Nat} (hn : isLink n = true) : ((s.boot b).link n).width = trainedWidth n (bootTraining b n) := by
  obtain ⟨r, e⟩ := boot_complete s b (lastStage_passes h)
  rw [e]
  show (((s.bootReady b).bootAlign b).link n).width = _
  rw [(bootAlign_realigns b _).link, bootReady_link s h hn]
  rfl
theorem boot_die {d : Nat} (hd : d < 6) : (s.boot b).present d = true ∧ ((s.boot b).die d).ptime = b.time := by
  have present : (bootDies b).contains d = true := by rw [bootDies_passes h]; simpa using hd
  obtain ⟨r, e⟩ := boot_complete s b (lastStage_passes h)
  rw [e]
  show (((s.bootReady b).bootAlign b).die d).present = _ ∧ (((s.bootReady b).bootAlign b).die d).ptime = _
  rw [(bootAlign_realigns b _).die, bootReady_die s b hd]
  exact ⟨present, rfl⟩
/-- A die that may align after the boot was aligned in it (R482, R517). -/
theorem boot_locks {d : Nat} (hd : d < 6) (hm : (s.boot b).mayAlign (bootPath b d) = true) :
    ((s.boot b).die d).skew.getLsbD 40 = true := by
  obtain ⟨r, e⟩ := boot_complete s b (lastStage_passes h)
  rw [e] at hm ⊢
  have start : ((s.bootReady b).die d).path = none := by rw [bootReady_die s b hd]; rfl
  have listed : d ∈ bootDies b := by rw [bootDies_passes h]; exact List.mem_range.2 hd
  have once : (bootDies b).Nodup := by rw [bootDies_passes h]; exact List.nodup_range
  exact alignAll_locks b _ _ once listed start (((bootAlign_realigns b _).mayAlign _).symm.trans hm)
/-- The strand of each firmware core is at its start (R3, R125). -/
theorem boot_firmware (d : Nat) :
    ((s.boot b).strand (64 * d)).st = .running ∧ ((s.boot b).strand (64 * d)).mode = true := by
  have f : isFirmware (64 * d) = true := by simp [isFirmware]
  obtain ⟨r, e⟩ := boot_complete s b (lastStage_passes h)
  have k : (s.boot b).strand (64 * d) = (Core.start (64 * d)).strand := by
    rw [e, ← bootReady_strand s h, (bootAlign_realigns b _).rest]; rfl
  rw [k, Core.start, f]
  exact ⟨rfl, rfl⟩
/-- Stage 7 has ended, with what the boot image names (R517). -/
theorem boot_stage : (s.boot b).ready = true ∧ (s.boot b).stage = 7 ∧ (s.boot b).rsvg = b.rsvg.toNat ∧
    (s.boot b).fabid = b.fabid := by
  have last := lastStage_passes h
  obtain ⟨r, e⟩ := boot_complete s b last
  rw [e, (bootAlign_realigns b _).rest]
  exact ⟨rfl, last, rfl, rfl⟩
end boot

section starts
variable (b : Boot) (s : State) (h : bootOk b = true)
include h

/-- The four ways to boot (R517, R518, R525, R526). -/
theorem exec_powerOn_boots (hp : s.powered = false) : exec (.powerOn b) s = .next (s.boot b) := by
  rw [exec_powerOn, execPowerOn, h, hp]; rfl
theorem exec_warmReset_boots (hp : s.powered = true) (hr : s.resetDue = true) :
    exec (.warmReset b) s = .next (s.boot b) := by
  rw [exec_warmReset, execWarmReset, h, hp, hr]; rfl
theorem exec_rstctl_boots : exec (.rstctl 0x56AF b) s = .next (s.boot b) := by
  rw [exec_rstctl, execRstctl, h, if_pos (by decide)]
theorem exec_managementReset_boots (hr : s.ready = true) : exec (.managementReset b) s = .next (s.boot b) := by
  rw [exec_managementReset, execManagementReset, h, hr]; rfl
end starts

/-- Power loss leaves host memory alone (R14, R517). -/
theorem exec_inputPowerLoss_keeps (s : State) : ∃ t, exec .inputPowerLoss s = .next t ∧ t.powered = false ∧ t.cores = [] ∧
    ∀ x, memByte t.mem x = if 2 ^ 60 ≤ x ∧ x < 2 ^ 61 then memByte s.mem x else 0 :=
  ⟨s.powerOff, rfl, rfl, rfl, memByte_hostCells s.mem⟩
theorem boot_zeroes (s : State) (b : Boot) (x : Nat) (h : x < 2 ^ 60 ∨ 2 ^ 61 ≤ x) : memByte (s.boot b).mem x = 0 := by
  rw [boot_mem, memByte_hostCells, if_neg (by omega)]

end Sys2Proof.Machine
end

section
/-! SUPPORT. Power, heat, management and attestation (R522 to R526), and the accesses of BAR 0 and BAR 2 (R550). -/

namespace Sys2Proof.Machine

section management
variable (s : State)

/-- What a throttle does to the set of throttled blocks (R523). -/
theorem exec_blockThrottle_adds (k : Block) :
    ∃ t, exec (.blockThrottle k) s = .next t ∧ k ∈ t.throttled ∧ t = { s with throttled := t.throttled } := by
  rw [exec_blockThrottle, execBlockThrottle]
  split
  · rename_i h; exact ⟨s, rfl, List.contains_iff_mem.1 h, rfl⟩
  · exact ⟨_, rfl, List.mem_cons_self, rfl⟩
theorem exec_throttleRecovery_removes (k : Block) :
    ∃ t, exec (.throttleRecovery k) s = .next t ∧ k ∉ t.throttled ∧ t = { s with throttled := t.throttled } :=
  ⟨{ s with throttled := s.throttled.filter (· != k) }, rfl, by simp, rfl⟩
/-- The block stops and a warm reset is asked for (R523). -/
theorem exec_thermalStop_stops (k : Block) :
    ∃ t, exec (.thermalStop k) s = .next t ∧ k ∈ t.stopped ∧ t.resetDue = true ∧ SameMemory s t := by
  rw [exec_thermalStop, execThermalStop]
  split
  · rename_i h; exact ⟨_, rfl, List.contains_iff_mem.1 h, rfl, fun _ => rfl⟩
  · exact ⟨_, rfl, List.mem_cons_self, rfl, fun _ => rfl⟩

/-- The readings of a list keep within their budgets (R524). -/
theorem withinBudgets_iff (l : List Nat) :
    (decide (l.length ≤ budgets.length) && (l.zip budgets).all fun x => decide (x.1 ≤ x.2)) = true ↔
      l.length ≤ budgets.length ∧ ∀ x ∈ l.zip budgets, x.1 ≤ x.2 := by
  simp only [Bool.and_eq_true, decide_eq_true_eq, List.all_eq_true]
theorem sum_le_of_zip : ∀ (l m : List Nat), l.length ≤ m.length → (∀ x ∈ l.zip m, x.1 ≤ x.2) → l.sum ≤ m.sum
  | [], m, _, _ => by simp
  | _ :: _, [], h, _ => absurd h (by simp)
  | a :: l, b :: m, h, k => by
    have hd : a ≤ b := k (a, b) List.mem_cons_self
    have tl := sum_le_of_zip l m (Nat.le_of_succ_le_succ h) fun x hx => k x (List.mem_cons_of_mem _ hx)
    simp only [List.sum_cons]
    omega
/-- PWR is the sum of what is within the budgets, and never above the design maximum (R8, R524, R526). -/
theorem exec_powerRefresh_within (l : List Nat) (h : l.length ≤ budgets.length ∧ ∀ x ∈ l.zip budgets, x.1 ≤ x.2) :
    exec (.powerRefresh l) s = .next { s with power := BitVec.ofNat 32 l.sum } ∧ l.sum ≤ 22000 := by
  have top : budgets.sum ≤ 22000 := by decide
  refine ⟨?_, Nat.le_trans (sum_le_of_zip l budgets h.1 h.2) top⟩
  rw [exec_powerRefresh, execPowerRefresh, if_pos ((withinBudgets_iff l).2 h)]
theorem exec_powerRefresh_beyond (l : List Nat) (h : ¬(l.length ≤ budgets.length ∧ ∀ x ∈ l.zip budgets, x.1 ≤ x.2)) :
    exec (.powerRefresh l) s = .next s := by
  rw [exec_powerRefresh, execPowerRefresh, if_neg fun e => h ((withinBudgets_iff l).1 e)]

theorem natBytes_length : ∀ n x, (natBytes n x).length = n
  | 0, _ => rfl
  | n + 1, x => congrArg (· + 1) (natBytes_length n (x / 256))
theorem freeBytes_length (n : Nat) : (s.freeBytes n).length = n := by simp [State.freeBytes]

theorem exec_pldmUpdate_ready (h : s.ready = true) (x : BitVec 256) :
    exec (.pldmUpdate x) s = .next { s with update := some x } := by
  rw [exec_pldmUpdate, execPldmUpdate, if_pos h]
/-- The power and the state of the host link stand at the ends of a reading (R525). -/
theorem exec_managementReading_ready (h : s.ready = true) :
    ∃ t, exec .managementReading s = .next t ∧ t.output.take 4 = natBytes 4 s.power.toNat ∧
      t.output.drop 12 = [BitVec.ofNat 8 ((s.link 48).st == .dead).toNat] ∧ SameMemory s t := by
  rw [exec_managementReading, execManagementReading, if_pos h]
  refine ⟨_, rfl, ?_, ?_, fun _ => rfl⟩
  · rw [List.append_assoc, List.take_left' (natBytes_length 4 _)]
  · exact List.drop_left' (by rw [List.length_append, natBytes_length, freeBytes_length])
/-- The length of what a report's signature covers (R522). -/
theorem signedBytes_length (r : Report) (h : r.diestat.length = 6) : (s.signedBytes r).length = 176 := by
  simp [State.signedBytes, Report.bytes, State.signKey, natBytes_length, h]
/-- The report is signed over the request's nonce and the time of the die that signs (R8, R522). -/
theorem exec_attestationRequest_reports (n : BitVec 256) (r : Report) (h : s.report = some r) (h6 : r.diestat.length = 6) :
    ∃ t, exec (.attestationRequest n) s = .next t ∧ t.report = some { r with nonce := n, ptime := s.ptime s.front } ∧
      t.output.length = 29968 ∧ SameMemory s t := by
  rw [exec_attestationRequest, execAttestationRequest, h]
  refine ⟨_, rfl, rfl, ?_, fun _ => rfl⟩
  rw [List.length_append, signedBytes_length s { r with nonce := n, ptime := s.ptime s.front } h6, List.length_map, List.length_range]
end management

section bars
variable (s : State) (off : Nat)

/-- A doorbell page (R419, R550). -/
theorem hostReg_bell (q r : Nat) (hq : q < 4096) (hr : r < 4096) : hostReg (0x1000000 + 0x1000 * q + r) = .bell q r := by
  have page : (0x1000000 + 0x1000 * q + r - 0x1000000) / 0x1000 = q := by omega
  have offset : (0x1000000 + 0x1000 * q + r) % 0x1000 = r := by omega
  simp only [hostReg, page, offset]
  repeat rw [if_neg (by omega)]
  rw [if_pos (by omega)]
theorem hostReg_below (h : off < 0x1000000) (q r : Nat) : hostReg off ≠ .bell q r := by
  rw [hostReg, if_neg (show ¬(0x1000000 ≤ off ∧ off < 0x2000000) by omega)]
  repeat' split
  all_goals nofun

/-- A narrow write of a doorbell page sets DROP, and elsewhere nothing (R550). -/
theorem exec_bar0NarrowWrite_bell (q r n : Nat) (hq : q < 4096) (hr : r < 4096) (hn : n = 1 ∨ n = 2 ∨ n = 4) :
    exec (.bar0NarrowWrite (0x1000000 + 0x1000 * q + r) n) s = .next (s.setQueue q { s.queue q with drop := true }) := by
  rw [exec_bar0NarrowWrite, execBar0NarrowWrite, if_pos (by simpa [or_assoc] using hn), hostReg_bell q r hq hr]
theorem exec_bar0NarrowWrite_below (n : Nat) (h : off < 0x1000000) : exec (.bar0NarrowWrite off n) s = .next s := by
  rw [exec_bar0NarrowWrite, execBar0NarrowWrite]
  split
  · split
    · rename_i e; exact absurd e (hostReg_below off h _ _)
    · rfl
  · rfl

theorem memPutMask_allBytes (bs : List Byte) : ∀ (m : List Host.Cell) (a : Nat),
    memPutMask m a (allBytes bs) = memPutList m a bs := by
  induction bs with
  | nil => intros; rfl
  | cons b bs ih => intro m a; exact ih (memSet m a b) (a + 1)
theorem putLine_mem (pa : Nat) (bs : List (Byte × Bool)) : (s.putLine pa bs).mem = memPutMask s.mem pa bs := by
  unfold State.putLine
  split <;> rfl
/-- Bytes that lie in one line are not split. -/
theorem splitLines_one (k pa : Nat) (bs : List Byte) (h0 : bs ≠ []) (h : pa % 64 + bs.length ≤ 64) :
    splitLines (k + 2) pa bs = [(pa, bs)] := by
  have e : bs.length ≤ 64 - pa % 64 := by omega
  simp only [splitLines, if_neg h0, List.take_of_length_le e, List.drop_of_length_le e, if_true]
/-- A read outside global memory that lies in one line (R266, R298). -/
theorem read_local (core pa n : Nat) (hg : 2 ^ 61 ≤ pa) (h : pa % 64 + n ≤ 64) :
    s.read core pa n = ⟨s, memBytes s.mem pa n, [], s.lineError (pa / 64) false⟩ := by
  have g : isGlobal pa = false := decide_eq_false (by omega)
  have m : min n (64 - pa % 64) = n := by omega
  rw [State.read, State.readLines, m]
  simp only [if_true, State.readLine, g, Bool.false_eq_true, if_false]

section bar2
variable (bs : List Byte) (h0 : bs ≠ []) (hl : off % 64 + bs.length ≤ 64) (hs : off + bs.length ≤ Config.sharedBytes)
include h0 hl hs

/-- An access of BAR 2 to bytes of one line is one write or one read (R550). -/
theorem execBar2Access_line (w : Bool) : execBar2Access w off bs s =
    if w then .next (s.bar2Write [(off, bs)])
    else .next { (s.bar2Read [(off, bs)]).1 with output := (s.bar2Read [(off, bs)]).2 } := by
  have pos : 0 < bs.length := List.length_pos_iff.2 h0
  have ok : (decide (bs.length = 0) || decide (64 < bs.length) || decide (Config.sharedBytes < off + bs.length)) = false := by
    simp only [Bool.or_eq_false_iff, decide_eq_false_iff_not]
    omega
  simp only [execBar2Access, ok, Bool.false_eq_true, if_false, splitLines_one 1 off bs h0 hl]

variable (hp : s.present (off / 2 ^ 20 % 6) = true)
include hp

theorem exec_bar2Access_write : ∃ t, exec (.bar2Access true off bs) s = .next t ∧
    SameOutside (sharedAddr off) bs.length s t ∧
    ∀ i, i < bs.length → memByte t.mem (sharedAddr off + i) = bs.getD i 0 := by
  have e : (s.bar2Write [(off, bs)]).mem = memPutList s.mem (sharedAddr off) bs := by
    rw [State.bar2Write, if_pos hp, State.bar2Write, putLine_mem, memPutMask_allBytes]
  refine ⟨s.bar2Write [(off, bs)], execBar2Access_line s off bs h0 hl hs true, fun a ha => ?_, fun i hi => ?_⟩
  · rw [e, memByte_memPutList_outside bs s.mem _ a ha]
  · rw [e, memByte_memPutList_inside bs s.mem _ i hi, List.getD_eq_getElem?_getD, List.getElem?_eq_getElem hi, Option.getD_some]
theorem exec_bar2Access_read (hf : mfind s.failed (sharedAddr off / 64) = none) :
    ∃ t, exec (.bar2Access false off bs) s = .next t ∧ SameMemory s t ∧
      t.output = memBytes s.mem (sharedAddr off) bs.length := by
  have good : s.lineError (sharedAddr off / 64) false = none := by rw [State.lineError, hf]; rfl
  have line : sharedAddr off % 64 + bs.length ≤ 64 := by
    have : sharedAddr off % 64 = off % 64 := by simp only [sharedAddr, sharedBase]; omega
    omega
  have r := read_local s s.front (sharedAddr off) bs.length (by simp only [sharedAddr, sharedBase]; omega) line
  have e : s.bar2Read [(off, bs)] = (s, memBytes s.mem (sharedAddr off) bs.length) := by
    simp only [State.bar2Read, r, good, hp]
    simp
  refine ⟨{ s with output := memBytes s.mem (sharedAddr off) bs.length }, ?_, fun _ => rfl, rfl⟩
  rw [exec_bar2Access, execBar2Access_line s off bs h0 hl hs false, e]
  rfl
end bar2
end bars

/-- A strand held Trapped goes on where the debugger says, with its registers (R122). -/
theorem exec_debuggerResume_runs (s : State) (c : Nat) (pc : Word) (hc : c < 384) (ht : (s.strand c).st = .trapped)
    (hd : (s.strand c).decided = true) : ∃ t, exec (.debuggerResume c pc) s = .next t ∧ (t.strand c).st = .running ∧
      (t.strand c).pc = pc &&& 0xFFFFFFFFFFFFFFFC ∧ KeepsRegs [] (s.strand c) (t.strand c) ∧ SameMemory s t := by
  rw [exec_debuggerResume, execDebuggerResume, if_neg (show ¬Config.cores ≤ c from Nat.not_le.2 hc)]
  simp only [ht, hd, decide_true, Bool.and_self, if_true]
  refine ⟨_, rfl, ?_, ?_, fun n _ => ?_, fun _ => rfl⟩
  · rw [strand_setStrand]; rfl
  · rw [strand_setStrand]; rfl
  · rw [strand_setStrand]; exact ⟨rfl, rfl⟩
theorem exec_firmwareTimer_posts (s : State) (d : Nat) (hd : d < 6) :
    exec (.firmwareTimer d) s = .next (s.post d 3 (s.die d).ptime 0) := by
  rw [exec_firmwareTimer, execFirmwareTimer, if_neg (show ¬Config.dies ≤ d from Nat.not_le.2 hd)]

end Sys2Proof.Machine

open Sys2Proof.Machine

/-- Settles O54: the ways to boot, what a boot zeroes, and the package after a boot that passes every test (the `boot_`
lemmas over `BootPasses`); then an event at a time. -/
theorem thePackageStartsStopsAndIsManaged : Obligations.ThePackageStartsStopsAndIsManaged := by
  refine ⟨fun b s ok => ⟨exec_powerOn_boots b s ok, exec_warmReset_boots b s ok, exec_rstctl_boots b s ok,
    exec_managementReset_boots b s ok, boot_zeroes s b, fun image cluster memory basin link accepts =>
      ?_⟩, fun s => ?_⟩
  · have h : BootPasses b := ⟨image, cluster, memory, basin, link, accepts⟩
    obtain ⟨ready, stage, rsvg, fabid⟩ := boot_stage s h
    exact ⟨ready, stage, rsvg, fabid, fun n => boot_link s h, fun d hd => ⟨(boot_die s h hd).1, boot_locks s h hd,
      (boot_die s h hd).2, boot_firmware s h d⟩⟩
  · refine ⟨exec_inputPowerLoss_keeps s,
      fun k => ⟨exec_blockThrottle_adds s k, exec_throttleRecovery_removes s k, exec_thermalStop_stops s k⟩,
      fun l => ⟨exec_powerRefresh_within s l, exec_powerRefresh_beyond s l⟩,
      fun h => ⟨exec_pldmUpdate_ready s h, exec_managementReading_ready s h⟩,
      exec_attestationRequest_reports s, fun off v h => ?_, fun q r n hq hr hn => exec_bar0NarrowWrite_bell s q r n hq hr hn,
      fun off n h _ => exec_bar0NarrowWrite_below s off n h,
      fun off bs h0 hl hs hp => ⟨exec_bar2Access_write s off bs h0 hl hs hp, exec_bar2Access_read s off bs h0 hl hs hp⟩,
      exec_firmwareTimer_posts s, exec_debuggerResume_runs s, fun _ => rfl, fun _ _ => rfl⟩
    rw [exec_registerWrite, execRegisterWrite, if_pos h]
end

section
/-! SUPPORT. Scalar arithmetic (R145 to R155): what the counts, the byte reversal and the bit-field moves come to bit by
bit, and the two forms of each row of the tables of R147 to R151. -/

namespace Sys2Proof.Machine

section counts
variable {n : Nat}

/-- The highest 1 of a nonzero word stands at the binary logarithm of its number, and 0 bits alone above it (R148). -/
theorem opClz_isClz (x y : BitVec n) : Said.IsClz n x (opClz x y) := by
  by_cases h : x = 0
  · exact ⟨n, by rw [opClz, if_pos h], Nat.le_refl n, fun i _ => by simp [h], fun hn => absurd hn (Nat.lt_irrefl n)⟩
  · have h0 : x.toNat ≠ 0 := mt (zero_iff x).2 h
    have hw : x.toNat.log2 < n := (Nat.log2_lt h0).2 x.isLt
    refine ⟨n - 1 - x.toNat.log2, by rw [opClz, if_neg h], by omega, fun i hi => ?_, fun _ => ?_⟩
    · exact Nat.testBit_lt_two_pow ((Nat.log2_lt h0).1 (by omega))
    · rw [show n - 1 - (n - 1 - x.toNat.log2) = x.toNat.log2 by omega]
      exact Nat.testBit_log2 h0

/-- `trailing` stops at the lowest 1 among the places it looks at. -/
theorem trailing_spec (f x : Nat) : trailing f x ≤ f ∧ (∀ i, i < trailing f x → x.testBit i = false) ∧
    (trailing f x < f → x.testBit (trailing f x) = true) := by
  induction f generalizing x with
  | zero => exact ⟨Nat.le_refl 0, fun i hi => absurd hi (Nat.not_lt_zero i), fun h => absurd h (Nat.lt_irrefl 0)⟩
  | succ f ih =>
    rw [trailing]
    split
    case isTrue odd => exact ⟨by omega, fun i hi => absurd hi (Nat.not_lt_zero i), fun _ => by simp [odd]⟩
    case isFalse even =>
      obtain ⟨le, below, found⟩ := ih (x / 2)
      rw [Nat.add_comm 1]
      refine ⟨by omega, fun i hi => ?_, fun h => by rw [Nat.testBit_add_one]; exact found (by omega)⟩
      cases i with
      | zero => simpa using even
      | succ i => rw [Nat.testBit_add_one]; exact below i (by omega)

theorem opCtz_isCtz (x y : BitVec n) : Said.IsCtz n x (opCtz x y) :=
  ⟨trailing n x.toNat, rfl, trailing_spec n x.toNat⟩

theorem ones_eq_length_filter (f x : Nat) : ones f x = ((List.range f).filter (fun i => x.testBit i)).length := by
  induction f generalizing x with
  | zero => rfl
  | succ f ih =>
    have tail : ((List.range f).map Nat.succ).filter (fun i => x.testBit i) =
        ((List.range f).filter (fun i => (x / 2).testBit i)).map Nat.succ := by
      rw [List.filter_map]
      exact congrArg (List.map Nat.succ) (List.filter_congr fun i _ => Nat.testBit_succ x i)
    rw [ones, ih, List.range_succ_eq_map, List.filter_cons, tail, Nat.testBit_zero]
    by_cases odd : x % 2 = 1
    · rw [if_pos (decide_eq_true odd), List.length_cons, List.length_map, odd, Nat.add_comm]
    · rw [if_neg (by simpa using odd), List.length_map, Nat.mod_two_ne_one.1 odd, Nat.zero_add]

theorem opPopc_isPopc (x y : BitVec n) : Said.IsPopc n x (opPopc x y) :=
  congrArg (BitVec.ofNat n) (ones_eq_length_filter n x.toNat)

theorem testBit_append_byte (a x j : Nat) :
    (a * 256 + x % 256).testBit j = if j < 8 then x.testBit j else a.testBit (j - 8) := by
  rw [Nat.mul_comm a, show (256 : Nat) = 2 ^ 8 from rfl,
    Nat.testBit_two_pow_mul_add a (Nat.mod_lt x (Nat.two_pow_pos 8)), Nat.testBit_mod_two_pow]
  split
  case isTrue low => rw [decide_eq_true low, Bool.true_and]
  case isFalse => rfl

/-- Above the bytes that `swapBytes` still has to move stands what it has gathered. -/
theorem swapBytes_gathered (k x acc j : Nat) : (swapBytes k x acc).testBit (8 * k + j) = acc.testBit j := by
  induction k generalizing x acc j with
  | zero => simp [swapBytes]
  | succ k ih =>
    rw [swapBytes, show 8 * (k + 1) + j = 8 * k + (8 + j) by omega, ih, testBit_append_byte, if_neg (by omega),
      Nat.add_sub_cancel_left]

/-- `swapBytes` puts byte i at byte k - 1 - i. -/
theorem swapBytes_byte (k x acc i j : Nat) (hi : i < k) (hj : j < 8) :
    (swapBytes k x acc).testBit (8 * (k - 1 - i) + j) = x.testBit (8 * i + j) := by
  induction k generalizing x acc i with
  | zero => exact absurd hi (Nat.not_lt_zero i)
  | succ k ih =>
    rw [swapBytes]
    cases i with
    | zero => rw [Nat.add_sub_cancel, Nat.sub_zero, swapBytes_gathered, testBit_append_byte, if_pos hj]; simp
    | succ i =>
      rw [show k + 1 - 1 - (i + 1) = k - 1 - i by omega, ih _ _ i (by omega), show (256 : Nat) = 2 ^ 8 from rfl,
        Nat.testBit_div_two_pow, show 8 * i + j + 8 = 8 * (i + 1) + j by omega]

theorem opBswap_isBswap (x y : BitVec n) : Said.IsBswap n x (opBswap x y) := fun i hi =>
  BitVec.eq_of_getLsbD_eq fun j hj => by
    have inside : 8 * (n / 8 - 1 - i) + j < n := by omega
    rw [BitVec.getLsbD_extractLsb', BitVec.getLsbD_extractLsb', opBswap, BitVec.getLsbD_ofNat,
      swapBytes_byte _ _ _ _ _ hi hj, BitVec.testBit_toNat, decide_eq_true inside, Bool.true_and]
end counts

section fields
variable (x src dst : Word) (o raw : Nat)

theorem bfField_eq_toNat (w : Nat) : bfField x o w = (x.extractLsb' o w).toNat := by
  rw [bfField, BitVec.extractLsb'_toNat, Nat.shiftRight_eq_div_pow]

/-- bfx sign-extends the field, and bfxn zero-extends it (R155). -/
theorem bfExtract_eq (signed : Bool) : bfExtract signed x o raw =
    if signed then (x.extractLsb' o (min raw 64)).signExtend 64 else (x.extractLsb' o (min raw 64)).setWidth 64 := by
  rw [bfExtract, bfField_eq_toNat]
  generalize x.extractLsb' o (min raw 64) = f
  generalize min raw 64 = w at f ⊢
  rcases Nat.eq_zero_or_pos w with rfl | hw
  · rw [if_pos rfl, BitVec.eq_nil f]; cases signed <;> rfl
  · rw [if_neg (Nat.ne_of_gt hw)]
    cases signed with
    | false => simp
    | true =>
      rw [Bool.true_and, ← BitVec.msb_eq_decide, if_pos rfl, BitVec.signExtend, BitVec.toInt_eq_msb_cond]
      split
      · rfl
      · exact (BitVec.ofInt_natCast ..).symm

theorem bfExtract_extracts (signed : Bool) : Said.Extracts signed x o raw (bfExtract signed x o raw) := by
  rw [bfExtract_eq]
  show ∀ i, i < 64 → _ = if i < min raw 64 then x.getLsbD (o + i) else
    signed && decide (0 < min raw 64) && x.getLsbD (o + min raw 64 - 1)
  generalize min raw 64 = w
  intro i hi
  cases signed with
  | false =>
    rw [if_neg Bool.false_ne_true, BitVec.getLsbD_setWidth, BitVec.getLsbD_extractLsb']
    by_cases h : i < w <;> simp [h, hi]
  | true =>
    rw [if_pos rfl, BitVec.getLsbD_signExtend, BitVec.getLsbD_extractLsb', BitVec.msb_eq_getLsbD_last,
      BitVec.getLsbD_extractLsb', decide_eq_true hi, Bool.true_and]
    by_cases h : i < w
    · simp [h]
    · rw [if_neg h, if_neg h, Bool.true_and]
      rcases Nat.eq_zero_or_pos w with rfl | hw
      · rfl
      · rw [Nat.add_sub_assoc hw, decide_eq_true (Nat.sub_lt hw Nat.one_pos), decide_eq_true hw]

/-- The mask of BFI: 1 bits from o on, as many as fit below bit 64. -/
theorem getLsbD_bfMask (k i : Nat) (hi : i < 64) :
    (BitVec.ofNat 64 ((2 ^ k - 1) * 2 ^ o)).getLsbD i = decide (o ≤ i ∧ i < o + k) := by
  rw [BitVec.getLsbD_ofNat, Nat.testBit_mul_two_pow, Nat.testBit_two_pow_sub_one, decide_eq_true hi, Bool.true_and,
    ← Bool.decide_and, decide_eq_decide]
  omega

theorem bfInsert_inserts : Said.Inserts dst src o raw (bfInsert dst src o raw) := by
  show ∀ i, i < 64 → _ = if o ≤ i ∧ i < o + min raw 64 then src.getLsbD (i - o) else dst.getLsbD i
  rw [bfInsert]
  generalize min raw 64 = w
  intro i hi
  by_cases hw : w = 0
  · rw [if_pos hw, if_neg (by omega)]
  · rw [if_neg hw]
    have inField : (o ≤ i ∧ i < o + min w (64 - o)) ↔ (o ≤ i ∧ i < o + w) := by omega
    simp only [BitVec.getLsbD_or, BitVec.getLsbD_and, BitVec.getLsbD_not, BitVec.getLsbD_shiftLeft,
      getLsbD_bfMask _ _ _ hi, inField]
    by_cases h : o ≤ i ∧ i < o + w
    · simp [h, hi]
    · simp [h, hi]
end fields

theorem append_zero_eq_shiftLeft (imm : BitVec 21) : imm ++ (0 : BitVec 43) = imm.setWidth 64 <<< 43 :=
  BitVec.eq_of_getLsbD_eq fun i hi => by
    rw [BitVec.getLsbD_append, BitVec.getLsbD_shiftLeft, BitVec.getLsbD_setWidth]
    by_cases h : i < 43
    · simp [h]
    · simp [h, hi, show i - 43 < 64 by omega]

section forms

/-- Both widths of a two-source operation complete with its result (R145, R146). -/
def TwoSourceForms (i w : OpA → Instr) (f : Said.Op) : Prop :=
  ∀ (o : OpA) (s : State), s.me.Ready o.a → s.me.Ready o.b → s.me.Free o.d →
    exec (i o) s = .next (s.doneReg o.d (f 64 (s.me.gval o.a.toNat) (s.me.gval o.b.toNat))) ∧
    exec (w o) s = .next (s.doneReg o.d (Said.low f (s.me.gval o.a.toNat) (s.me.gval o.b.toNat)))
/-- An immediate form with the 13-bit immediate completes with its result (R149). -/
def ImmediateForm (i : OpI13 → Instr) (f : Word → Word → Word) : Prop :=
  ∀ (o : OpI13) (s : State), s.me.Ready o.a → s.me.Free o.d →
    exec (i o) s = .next (s.doneReg o.d (f (s.me.gval o.a.toNat) (o.imm.signExtend 64)))
/-- Both widths of a shift by an immediate complete with its result (R149). -/
def ShiftForms (i w : OpSh → Instr) (f : Said.Op) : Prop :=
  ∀ (o : OpSh) (s : State), s.me.Ready o.a → s.me.Free o.d →
    exec (i o) s = .next (s.doneReg o.d (f 64 (s.me.gval o.a.toNat) (o.amt.setWidth 64))) ∧
    exec (w o) s = .next (s.doneReg o.d (Said.low f (s.me.gval o.a.toNat) (o.amt.setWidth 64)))
/-- Both widths of a one-source operation complete with a result that a relation describes (R146, R148). -/
def UnaryForms (i w : OpA → Instr) (R : (n : Nat) → BitVec n → BitVec n → Prop) : Prop :=
  ∀ (o : OpA) (s : State), s.me.Ready o.a → s.me.Free o.d →
    (∃ r : BitVec 64, R 64 (s.me.gval o.a.toNat) r ∧ exec (i o) s = .next (s.doneReg o.d r)) ∧
    (∃ r : BitVec 32, R 32 ((s.me.gval o.a.toNat).setWidth 32) r ∧
      exec (w o) s = .next (s.doneReg o.d (r.signExtend 64)))

/-- A result in the spec's words and the one that the model computes are the same at every width. -/
abbrev Agree (f g : Said.Op) : Prop := ∀ {n : Nat} (x y : BitVec n), f n x y = g n x y

variable {f g : Said.Op}

theorem low_eq_wform (hf : Agree f g) (x y : Word) : Said.low f x y = wform (g 32) x y :=
  congrArg (BitVec.signExtend 64) (hf _ _)
theorem twoSourceForms {i w : OpA → Instr} (hf : Agree f g) (hi : ∀ o s, exec (i o) s = alu2 o (g 64) s)
    (hw : ∀ o s, exec (w o) s = alu2 o (wform (g 32)) s) : TwoSourceForms i w f := fun o s ha hb hd =>
  ⟨by rw [hi, alu2_ready s o _ ha hb hd, hf], by rw [hw, alu2_ready s o _ ha hb hd, low_eq_wform hf]⟩
theorem immediateForm {i : OpI13 → Instr} {f g : Word → Word → Word} (hf : ∀ x y, f x y = g x y)
    (hi : ∀ o s, exec (i o) s = aluI o.d o.a o.ea (imm13 o.imm) g s) : ImmediateForm i f := fun o s ha hd => by
  rw [hi, aluI_ready s _ _ _ _ _ ha hd, hf, imm13]
theorem shiftForms {i w : OpSh → Instr} (hf : Agree f g)
    (hi : ∀ o s, exec (i o) s = aluI o.d o.a o.ea (o.amt.setWidth 64) (g 64) s)
    (hw : ∀ o s, exec (w o) s = aluI o.d o.a o.ea (o.amt.setWidth 64) (wform (g 32)) s) : ShiftForms i w f :=
  fun o s ha hd =>
    ⟨by rw [hi, aluI_ready s _ _ _ _ _ ha hd, hf], by rw [hw, aluI_ready s _ _ _ _ _ ha hd, low_eq_wform hf]⟩
theorem unaryForms {i w : OpA → Instr} {R : (n : Nat) → BitVec n → BitVec n → Prop}
    (hR : ∀ {n : Nat} (x y : BitVec n), R n x (g n x y)) (hi : ∀ o s, exec (i o) s = alu1 o (g 64) s)
    (hw : ∀ o s, exec (w o) s = alu1 o (wform (g 32)) s) : UnaryForms i w R := fun o s ha hd =>
  ⟨⟨_, hR _ 0, by rw [hi, alu1_ready s o _ ha hd]⟩, ⟨_, hR _ (BitVec.setWidth 32 0), by
    rw [hw, alu1_ready s o _ ha hd]; rfl⟩⟩

/-- The rows of R147 and R151. -/
theorem twoSource_forms : ∀ e ∈ Said.twoSource ++ Said.highProduct, TwoSourceForms e.1 e.2.1 e.2.2 := by
  simp only [Said.twoSource, Said.highProduct, List.cons_append, List.nil_append, List.forall_mem_cons]
  exact ⟨twoSourceForms Said.add_eq exec_add exec_addW, twoSourceForms Said.sub_eq exec_sub exec_subW,
    twoSourceForms (fun _ _ => rfl) exec_and exec_andW, twoSourceForms (fun _ _ => rfl) exec_or exec_orW,
    twoSourceForms (fun _ _ => rfl) exec_xor exec_xorW, twoSourceForms (fun _ _ => rfl) exec_andn exec_andnW,
    twoSourceForms Said.shl_eq exec_shl exec_shlW, twoSourceForms Said.shr_eq exec_shr exec_shrW,
    twoSourceForms Said.sar_eq exec_sar exec_sarW, twoSourceForms Said.rol_eq exec_rol exec_rolW,
    twoSourceForms Said.ror_eq exec_ror exec_rorW, twoSourceForms Said.min_eq exec_min exec_minW,
    twoSourceForms Said.max_eq exec_max exec_maxW, twoSourceForms Said.minn_eq exec_minn exec_minnW,
    twoSourceForms Said.maxn_eq exec_maxn exec_maxnW, twoSourceForms Said.mul_eq exec_mul exec_mulW,
    twoSourceForms Said.mulh_eq exec_mulh exec_mulhW, twoSourceForms Said.mulhn_eq exec_mulhn exec_mulhnW,
    List.forall_mem_nil _⟩

theorem Said.seq_eq {n : Nat} (x y : BitVec n) : Said.seq n x y = cmpSeq x y := by
  rw [Said.seq, cmpSeq, Bool.eq_iff_iff, decide_eq_true_iff, beq_iff_eq, BitVec.toNat_inj]
theorem Said.sne_eq {n : Nat} (x y : BitVec n) : Said.sne n x y = cmpSne x y := by
  rw [Said.sne, cmpSne, bne, ← cmpSeq, ← Said.seq_eq, Said.seq, decide_not]

/-- The rows of R149 with a 13-bit immediate. -/
theorem immediates_forms : ∀ e ∈ Said.immediates, ImmediateForm e.1 e.2 := by
  simp only [Said.immediates, List.forall_mem_cons]
  exact ⟨immediateForm (fun _ _ => rfl) exec_andi, immediateForm (fun _ _ => rfl) exec_ori,
    immediateForm (fun _ _ => rfl) exec_xori, immediateForm (fun _ _ => rfl) exec_andni,
    immediateForm Said.min_eq exec_mini, immediateForm Said.max_eq exec_maxi,
    immediateForm Said.minn_eq exec_minni, immediateForm Said.maxn_eq exec_maxni,
    immediateForm (fun _ _ => rfl) exec_slti, immediateForm (fun _ _ => rfl) exec_sltni,
    immediateForm (fun x y => congrArg flagWord (Said.seq_eq x y)) exec_seqi,
    immediateForm (fun x y => congrArg flagWord (Said.sne_eq x y)) exec_snei, List.forall_mem_nil _⟩
/-- The shift rows of R149. -/
theorem shiftImmediates_forms : ∀ e ∈ Said.shiftImmediates, ShiftForms e.1 e.2.1 e.2.2 := by
  simp only [Said.shiftImmediates, List.forall_mem_cons]
  exact ⟨shiftForms Said.shl_eq exec_shli exec_shliW, shiftForms Said.shr_eq exec_shri exec_shriW,
    shiftForms Said.sar_eq exec_sari exec_sariW, shiftForms Said.rol_eq exec_roli exec_roliW,
    shiftForms Said.ror_eq exec_rori exec_roriW, List.forall_mem_nil _⟩
/-- The rows of R148. -/
theorem unary_forms : ∀ e ∈ Said.unary, UnaryForms e.1 e.2.1 e.2.2 := by
  simp only [Said.unary, List.forall_mem_cons]
  exact ⟨unaryForms opClz_isClz exec_clz exec_clzW, unaryForms opCtz_isCtz exec_ctz exec_ctzW,
    unaryForms opPopc_isPopc exec_popc exec_popcW, unaryForms opBswap_isBswap exec_bswap exec_bswapW,
    List.forall_mem_nil _⟩
end forms

section moves
variable {s : State} {a b c d : Reg} {p q r : Bool}

/-- An instruction that reads one Full source and writes a result of it completes (R145). -/
theorem src1_write {f : Word → Word} (ha : s.me.Ready a) (hd : s.me.Free d) :
    s.src1 a p (fun x => s.write d (f x)) = .next (s.doneReg d (f (s.me.gval a.toNat))) := by
  rw [src1_full _ _ _ _ ha, write_ready _ _ _ hd]; rfl
theorem src2_write {f : Word → Word → Word} (ha : s.me.Ready a) (hb : s.me.Ready b) (hd : s.me.Free d) :
    s.src2 a p b q (fun x y => s.write d (f x y)) =
      .next (s.doneReg d (f (s.me.gval a.toNat) (s.me.gval b.toNat))) := by
  rw [src2_full _ _ _ _ _ _ ha hb, write_ready _ _ _ hd]; rfl
theorem src3_write {f : Word → Word → Word → Word} (ha : s.me.Ready a) (hb : s.me.Ready b) (hc : s.me.Ready c)
    (hd : s.me.Free d) :
    s.src3 a p b q c r (fun x y z => s.write d (f x y z)) =
      .next (s.doneReg d (f (s.me.gval a.toNat) (s.me.gval b.toNat) (s.me.gval c.toNat))) := by
  rw [src3_full _ _ _ _ _ _ _ _ ha hb hc, write_ready _ _ _ hd]; rfl
end moves

end Sys2Proof.Machine

open Sys2Proof.Machine

/-- Settles O1: a row of either table is `alu2_ready` at both widths (`twoSourceForms`), with the spec's result for the
model's by the row's `Said` lemma. -/
theorem registerOperationsWriteTheirResult : Obligations.RegisterOperationsWriteTheirResult := twoSource_forms

/-- Settles O2: the rows by `aluI_ready` and the same `Said` lemmas, and lui by `append_zero_eq_shiftLeft`. -/
theorem immediateFormsComputeAsTheirRegisterForms : Obligations.ImmediateFormsComputeAsTheirRegisterForms := by
  refine fun s => ⟨fun o ha hd => ⟨?_, ?_⟩, fun e he o => immediates_forms e he o s,
    fun e he o => shiftImmediates_forms e he o s, fun d imm hd => ?_⟩
  · rw [exec_addi, execAddi, aluI_ready s _ _ _ _ _ ha hd, Said.add_eq, imm15]
  · rw [exec_addiW, execAddiW, aluI_ready s _ _ _ _ _ ha hd, low_eq_wform Said.add_eq, imm15]
  · rw [exec_lui, execLui, write_ready _ _ _ hd, append_zero_eq_shiftLeft]; rfl

/-- Settles O3: the counts and the byte reversal by `unary_forms`, the moves by `bfExtract_extracts` and
`bfInsert_inserts`. -/
theorem bitsAreCountedReversedAndMoved : Obligations.BitsAreCountedReversedAndMoved := by
  refine fun s =>
    ⟨fun o ha hd => ⟨fun e he => (unary_forms e he o s ha hd).1, fun e he => (unary_forms e he o s ha hd).2⟩,
    fun o ha hd => ⟨⟨_, bfExtract_extracts _ _ _ _, ?_⟩, ⟨_, bfExtract_extracts _ _ _ _, ?_⟩,
      fun hc => ⟨_, bfInsert_inserts _ _ _ _, ?_⟩⟩,
    fun o ha hb hd => ⟨⟨_, bfExtract_extracts _ _ _ _, ?_⟩, ⟨_, bfExtract_extracts _ _ _ _, ?_⟩,
      fun hc => ⟨_, bfInsert_inserts _ _ _ _, ?_⟩⟩⟩
  · exact (exec_bfx o s).trans (src1_write ha hd)
  · exact (exec_bfxn o s).trans (src1_write ha hd)
  · exact (exec_bfi o s).trans (src2_write ha hc hd)
  · exact (exec_bfxReg o s).trans (src2_write ha hb hd)
  · exact (exec_bfxnReg o s).trans (src2_write ha hb hd)
  · exact (exec_bfiReg o s).trans (src3_write ha hb hc hd)
end

section
/-! SUPPORT. Leases (R196 to R200, R209, R212): what a request, a grant, an arbitration, a scrub and a deadline leave of the
die and of the strand. -/

namespace Sys2Proof.Machine

section strands
variable {s t : Strand} {l : List Nat}

/-- A strand with the same general registers, as full as before, keeps all of them. -/
theorem keepsRegs_of_eq (hg : t.g = s.g) (hf : t.gfe = s.gfe) : KeepsRegs l s t := fun n _ => by
  simp only [Strand.gval, Strand.gst, hg, hf, and_self]

/-- The strand in focus, after it was replaced. -/
theorem me_setStrand (v : State) {c : Nat} (h : v.cur = c) : (v.setStrand c t).me = t := by
  subst h; exact strand_setStrand ..

@[simp] theorem strand_setFrag (v : State) (c h : Nat) (f : Frag) :
    (v.setFrag c h f).strand c = { v.strand c with frag := mset (v.strand c).frag h f } := strand_setStrand ..

/-- An instruction completed without single step raises no BRK (R121). -/
theorem singleStep_off (v : State) (c : Nat) (h : t.ss = false) : v.singleStep c t = v := by
  simp [State.singleStep, h]

/-- Without single step a lease ends at the next word (R212). -/
theorem endLease_unstepped (v : State) (c : Nat) (h : (v.strand c).ss = false) :
    v.endLease c = v.setStrand c ((v.strand c).finish ((v.strand c).pc + 4)) :=
  singleStep_off _ c h
end strands

section dies
variable (x : Die) (l : List Nat) (i n : Nat)

@[simp] theorem setTiles_seqs : (x.setTiles l n).seqs = x.seqs := rfl
@[simp] theorem setTiles_reqs : (x.setTiles l n).reqs = x.reqs := rfl
@[simp] theorem setTiles_scrub : (x.setTiles l n).scrub = x.scrub := rfl
/-- A tile reads as it was set, and one that is not set as before. -/
theorem mget_setTiles : mget (x.setTiles l n).tiles i 0 = if i ∈ l then n else mget x.tiles i 0 := by
  show mget (l.foldl _ x.tiles) i 0 = _
  generalize x.tiles = m
  induction l generalizing m with
  | nil => simp
  | cons j l ih =>
    have step : mget (if n = 0 then mdel m j else mset m j n) i 0 = if i = j then n else mget m i 0 := by
      split
      · next h => rw [mget_mdel, h]
      · exact mget_mset ..
    simp only [List.foldl_cons, ih, step, List.mem_cons]
    by_cases hl : i ∈ l
    · simp [hl]
    · simp [hl]

variable (r : LeaseReq)

@[simp] theorem unreserve_tiles : (x.unreserve r).tiles = x.tiles := by
  unfold Die.unreserve
  repeat' split
  all_goals rfl
@[simp] theorem unreserve_seqs : (x.unreserve r).seqs = x.seqs := by
  unfold Die.unreserve
  repeat' split
  all_goals rfl
@[simp] theorem unreserve_reqs : (x.unreserve r).reqs = x.reqs := by
  unfold Die.unreserve
  repeat' split
  all_goals rfl
end dies

section leases
variable (s : State) (o : OpE) (fix : Bool) {core : Nat} {r : LeaseReq} {q : Rect} {a b seq : Nat}

/-- The request that a flease of some shape and deadline makes (R196, R212). -/
def State.leaseReq (n : Nat) (deadline : Word) : LeaseReq :=
  { core := s.cur, asid := if s.me.mode then none else s.me.asid, h := o.h.toNat, qid := s.queueOf s.cur,
    lh := n / 256 % 8, lw := n / 4096 % 8, fix := if fix then some (n % 16, n / 16 % 16) else none,
    secure := s.worldOf s.cur, deadline := deadline, tick := s.now, regrant := none, grant := none }

/-- The first attempt of a flease with Full sources (R212). -/
theorem flease_first (hw : s.me.wait = none) (ha : s.me.Ready o.a) (hb : s.me.Ready o.b) :
    let r := s.leaseReq o fix (s.me.gval o.a.toNat).toNat (s.me.gval o.b.toNat)
    flease fix o s =
      if (mfind s.me.frag o.h.toNat).isSome then s.trap cFRAG_STATE 0
      else if 4 < r.lh || 4 < r.lw || s.neverFits (s.cur / 64) r then s.trap cFRAG_STATE 0
      else .next ((s.addReq (s.cur / 64) r).waitOn ⟨1, 0, 0, s.now⟩ .lease) := by
  rw [flease, hw]
  exact src2_full _ _ _ _ _ _ ha hb

theorem flease_requests (hw : s.me.wait = none) (ha : s.me.Ready o.a) (hb : s.me.Ready o.b)
    (hn : mfind s.me.frag o.h.toNat = none) :
    let r := s.leaseReq o fix (s.me.gval o.a.toNat).toNat (s.me.gval o.b.toNat)
    r.lh ≤ 4 → r.lw ≤ 4 → s.neverFits (s.cur / 64) r = false →
      flease fix o s = .next ((s.addReq (s.cur / 64) r).waitOn ⟨1, 0, 0, s.now⟩ .lease) := by
  intro r hh hl hf
  have shape : ¬ (4 < r.lh || 4 < r.lw || s.neverFits (s.cur / 64) r) = true := by simp [hf, hh, hl]
  rw [flease_first s o fix hw ha hb, hn, if_neg (by decide), if_neg shape]

theorem flease_refused (hw : s.me.wait = none) (ha : s.me.Ready o.a) (hb : s.me.Ready o.b) :
    let r := s.leaseReq o fix (s.me.gval o.a.toNat).toNat (s.me.gval o.b.toNat)
    (mfind s.me.frag o.h.toNat).isSome = true ∨ 4 < r.lh ∨ 4 < r.lw → flease fix o s = s.trap cFRAG_STATE 0 := by
  intro r h
  rw [flease_first s o fix hw ha hb]
  split
  · rfl
  · next hn =>
    have shape : (4 < r.lh || 4 < r.lw || s.neverFits (s.cur / 64) r) = true := by
      rcases h with h | h | h
      · exact absurd h hn
      · simp [h]
      · simp [h]
    exact if_pos shape

/-- Without a pending request the wait is over (R212). -/
theorem flease_over (hw : s.me.wait.isSome = true)
    (hr : ∀ q ∈ (s.die (s.cur / 64)).reqs, q.core = s.cur → q.regrant.isSome = true) :
    flease fix o s = .next (s.doneWith s.me) := by
  obtain ⟨w, hw⟩ := Option.isSome_iff_exists.mp hw
  have settled : s.leasePending s.cur = false := by
    simp only [State.leasePending, List.any_eq_false, Bool.and_eq_true, beq_iff_eq, not_and]
    intro q hq hc
    obtain ⟨g, hg⟩ := Option.isSome_iff_exists.mp (hr q hq hc)
    simp [hg]
  rw [flease, hw]
  simp only [settled]
  rfl

theorem exec_fleaseForms : ∀ e ∈ [(Instr.flease o, false), (Instr.fleaseFix o, true)], exec e.1 s = flease e.2 o s := by
  rintro _ (_ | ⟨_, _ | ⟨_, ⟨⟩⟩⟩)
  · rfl
  · rfl

theorem exec_leaseGrant_granted (hc : core < 384)
    (hf : (s.die (core / 64)).reqs.find? (fun r => r.core == core && r.grant.isSome) = some r)
    (hg : r.grant = some (a, b, seq)) :
    exec (.leaseGrant core) s = .next (s.bindLease core r ⟨a, b, r.lh, r.lw⟩ seq) := by
  rw [exec_leaseGrant, execLeaseGrant, if_neg (by simp only [Config.cores]; omega)]
  simp only [dieOf, hf, hg]

/-- A strand without single step that its grant reaches: the handle is bound, and the instruction is over (R200, R212). -/
theorem bindLease_strand (hr : r.regrant = none) (hs : (s.strand core).ss = false) :
    let v := (s.dropReq (core / 64) r).setFrag core r.h (newFrag q seq (core / 64) r.secure r.qid)
    s.bindLease core r q seq = v.setStrand core ((v.strand core).finish ((v.strand core).pc + 4)) := by
  intro v
  have ss : (v.strand core).ss = false := by rw [strand_setFrag]; exact hs
  rw [State.bindLease, hr]
  exact endLease_unstepped v core ss

/-- A save image whose strand holds a fragment again (R209). -/
def Image.rebound (i : Image) (h : Nat) (f : Frag) : Image :=
  { i with strand := { i.strand with frag := mset i.strand.frag h f }
           reclaimed := i.reclaimed.filter (fun y => y.1 != h), regranted := h :: i.regranted }

/-- A Saved strand that its grant reaches: the fragment in its image is bound again (R209). -/
theorem bindLease_image {g : Nat} {i : Image} {x : Nat × Frag} (hr : r.regrant = some g)
    (hi : mfind s.images (imageKey g core) = some i) (hx : i.reclaimed.find? (fun x => x.1 == r.h) = some x) :
    s.bindLease core r q seq = { s.dropReq (core / 64) r with
      images := mset s.images (imageKey g core) (i.rebound r.h (x.2.again q seq)) } := by
  rw [State.bindLease, hr]
  have hi' : mfind (s.dropReq (core / 64) r).images (imageKey g core) = some i := hi
  simp only [dieOf, hi', hx]
  rfl
end leases
section allocator
@[simp] theorem setDie_setDie (s : State) (d : Nat) (x y : Die) : (s.setDie d x).setDie d y = s.setDie d y := by
  simp [State.setDie]

variable (s : State) {core d : Nat} {r : LeaseReq} {q : Rect} {a b seq : Nat}

theorem exec_allocatorArbitration_die (hd : d < 6) : exec (.allocatorArbitration d) s = .next (s.arbitrated d) :=
  if_neg (by simp only [Config.dies]; omega)
theorem exec_reservation_die (hd : d < 6) : exec (.reservation d) s = .next (s.reserve d) :=
  if_neg (by simp only [Config.dies]; omega)

/-- One request that can be placed is granted in one round (R198). -/
theorem arbitrate_grants (n : Nat) (hr : (s.die d).reqs = [r]) (hg : r.grant = none) (hq : s.canPlace d r = some q)
    (hs : (s.die d).freeSeq = some seq) : s.arbitrate d (n + 1) = (s.award d r q seq).arbitrate d n := by
  simp [State.arbitrate, hr, hg, hq, hs]
/-- One request that cannot be placed waits (R198). -/
theorem arbitrate_waits (n : Nat) (hr : (s.die d).reqs = [r]) (hq : s.canPlace d r = none) : s.arbitrate d n = s := by
  cases n with
  | zero => rfl
  | succ n => simp [State.arbitrate, hr, hq]

theorem die_award : (s.award d r q seq).die d = { ((s.die d).setTiles q.tiles 1).unreserve r with
    seqs := seq :: (s.die d).seqs
    reqs := (s.die d).reqs.map (fun y => if y = r then { y with grant := some (q.row0, q.col0, seq) } else y) } := by
  simp [State.award]

/-- What an arbitration leaves of the die whose one request it grants (R197, R198, R200). -/
theorem die_arbitrated (ha : (s.die d).arb = true) (hr : (s.die d).reqs = [r]) (hg : r.grant = none)
    (hq : s.canPlace d r = some q) (hs : (s.die d).freeSeq = some seq) :
    (s.arbitrated d).die d = { ((s.die d).setTiles q.tiles 1).unreserve r with
      seqs := seq :: (s.die d).seqs, reqs := [{ r with grant := some (q.row0, q.col0, seq) }], arb := false } := by
  have round : s.arbitrate d (s.die d).reqs.length = s.award d r q seq := by
    rw [hr]; exact arbitrate_grants s 0 hr hg hq hs
  rw [State.arbitrated, if_pos ha]
  simp only [round, die_setDie, die_award]
  simp [hr]

/-- An arbitration that can place nothing only notes that it has happened (R198). -/
theorem arbitrated_waits (hr : (s.die d).reqs = [r]) (hq : s.canPlace d r = none) :
    ((s.arbitrated d).die d).reqs = [r] ∧ (s.arbitrated d).cores = s.cores ∧ (s.arbitrated d).mem = s.mem := by
  rw [State.arbitrated]
  split
  · rw [arbitrate_waits s _ hr hq]
    exact ⟨(congrArg Die.reqs (die_setDie s d _)).trans hr, rfl, rfl⟩
  · exact ⟨hr, rfl, rfl⟩

/-- A request that has waited its ticks receives the reservation of a die that has none (R199). -/
theorem reserve_receives (hr : (s.die d).reqs = [r]) (hg : r.grant = none) (hv : (s.die d).resv = none)
    (ht : r.tick + 65536 ≤ s.now) (hq : s.reserveRect d r = some q) :
    s.reserve d = s.setDie d { s.die d with
      resv := some ⟨r.core, r.h, r.regrant, q.row0, q.col0, q.lh, q.lw⟩, arb := true } := by
  simp [State.reserve, hr, hg, hv, reservationTicks, ht, hq]

/-- The scrub of one tile that is due (R200). -/
theorem exec_scrubComplete_due {i tick : Nat} {suspect : Bool} (hd : d < 6)
    (hs : (s.die d).scrub = [(i, tick, suspect)]) (ht : tick ≤ s.now) :
    exec (.scrubComplete d) s = .next (s.setDie d
      { (s.die d).setTiles [i] (if suspect then 3 else 0) with scrub := [], arb := true }) := by
  rw [exec_scrubComplete, execScrubComplete, if_neg (by simp only [Config.dies]; omega)]
  have due : ([(i, tick, suspect)] != []) = true := rfl
  simp [hs, ht, due]

/-- A request that is not granted leaves at its withdrawal (R212). -/
theorem withdraw_only (hr : (s.die (core / 64)).reqs = [r]) (hc : r.core = core) (hg : r.grant = none)
    (hn : r.regrant = none) : s.withdraw core =
      s.setDie (core / 64) (Die.unreserve { s.die (core / 64) with reqs := [], arb := true } r) := by
  simp [State.withdraw, dieOf, hr, hc, hn, State.leaveReqs, State.dropReq, hg]

/-- An ungranted request past its deadline, with nothing granted by the arbitration of the tick, is withdrawn (R212). -/
theorem exec_fleaseDeadline_withdraws (hc : core < 384)
    (hf : (s.die (core / 64)).reqs.find? (fun r => r.core == core && r.grant.isNone && r.deadline != 0) = some r)
    (hp : r.deadline.toNat ≤ (s.ptime core).toNat)
    (hn : ∀ y ∈ ((s.arbitrated (core / 64)).die (core / 64)).reqs, y.grant = none) :
    exec (.fleaseDeadline core) s = .next (((s.arbitrated (core / 64)).withdraw core).endLease core) := by
  have past : r.deadline.ule (s.ptime core) = true := by simpa [BitVec.ule] using hp
  have ungranted : ((s.arbitrated (core / 64)).die (core / 64)).reqs.any
      (fun y => y.core == core && y.regrant.isNone && y.grant.isSome) = false := by
    rw [List.any_eq_false]
    intro y hy
    simp [hn y hy]
  rw [exec_fleaseDeadline, execFleaseDeadline, if_neg (by simp only [Config.cores]; omega)]
  simp only [dieOf, hf, past, ungranted, Bool.not_true, Bool.false_eq_true, if_false]
end allocator
end Sys2Proof.Machine

open Sys2Proof.Machine

/-- Settles O31: the request, the refusal and the end of the wait are `flease_requests`, `flease_refused` and `flease_over`
at both forms; the grant is `bindLease_strand`. -/
theorem leasesAreRequestedAndEnd : Obligations.LeasesAreRequestedAndEnd := by
  intro o s e he n d r
  have form : exec e.1 s = flease e.2 o s := exec_fleaseForms s o e he
  rw [form]
  refine ⟨fun hw ha hb => ⟨flease_requests s o e.2 hw ha hb, flease_refused s o e.2 hw ha hb⟩, flease_over s o e.2,
    fun q a b seq hc hs hf hg hr => ⟨_, exec_leaseGrant_granted s hc hf hg, ?_⟩⟩
  rw [bindLease_strand s hr hs]
  refine ⟨congrArg Die.reqs (die_setDie s d _), ?_⟩
  rw [me_setStrand, strand_setFrag]
  · exact ⟨mfind_mset_same .., rfl, rfl, rfl, keepsRegs_of_eq rfl rfl, fun _ => rfl⟩
  · rfl

/-- Settles O32: an arbitration with one request is `die_arbitrated`, or `arbitrated_waits` where it cannot be placed; the
grant to a Saved strand is `bindLease_image`; then the reservation, the scrub, and the withdrawal at the deadline
(`exec_fleaseDeadline_withdraws`, `withdraw_only`). -/
theorem theAllocatorGrantsReservesAndScrubs : Obligations.TheAllocatorGrantsReservesAndScrubs := by
  refine ⟨fun d s r q seq hd hr ha hg hq hs => ⟨_, exec_allocatorArbitration_die s hd, ?_⟩,
    fun core s r a b seq hc hf hg g i x hr hi hx => 
      ⟨_, i.rebound r.h (x.2.again ⟨a, b, r.lh, r.lw⟩ seq), exec_leaseGrant_granted s hc hf hg, ?_⟩,
    fun d s r q hd hr hg hv ht hq => ?_,
    fun d i tick s suspect hd hs ht => ⟨_, exec_scrubComplete_due s hd hs ht, ?_⟩,
    fun core s r hc hr hrc hg hn h0 hp hq hs => ?_⟩
  · rw [die_arbitrated s ha hr hg hq hs]
    refine ⟨List.mem_cons_self, rfl, fun i hi => ?_, fun i hi => ?_⟩
    · simp [mget_setTiles, hi]
    · simp [mget_setTiles, hi]
  · rw [bindLease_image s hr hi hx]
    exact ⟨congrArg Die.reqs (die_setDie s _ _), mfind_mset_same .., List.mem_cons_self, mfind_mset_same .., rfl,
      fun _ => rfl⟩
  · rw [exec_reservation_die s hd, reserve_receives s hr hg hv ht hq]
  · rw [die_setDie]
    refine ⟨rfl, ?_⟩
    simp [mget_setTiles]
  · obtain ⟨reqs, cores, mem⟩ := arbitrated_waits s hr hq
    have same : (s.arbitrated (core / 64)).strand core = s.strand core := by simp only [State.strand, State.core, cores]
    have first : (s.die (core / 64)).reqs.find? (fun r => r.core == core && r.grant.isNone && r.deadline != 0) = some r := by
      rw [hr]; simp [hrc, hg, show r.deadline ≠ 0#64 from h0]
    have waits : ∀ y ∈ ((s.arbitrated (core / 64)).die (core / 64)).reqs, y.grant = none := by
      rw [reqs]; simpa using hg
    refine ⟨_, exec_fleaseDeadline_withdraws s hc first hp waits, ?_⟩
    rw [withdraw_only _ reqs hrc hg hn, endLease_unstepped _ _ (by rw [strand_setDie, same]; exact hs)]
    rw [strand_setStrand, strand_setDie, same, die_setStrand, die_setDie, unreserve_reqs]
    exact ⟨rfl, rfl, rfl, rfl, fun a => congrArg (memByte · a) mem⟩
end

section
/-! SUPPORT. Fragments that end, split, fuse and link (R200 to R204, R213 to R217): the window writes that a table performs,
the reshape that completes, and the word of FQUERY. -/

namespace Sys2Proof.Machine

section writes
variable {s t u : State} (core : Nat)

/-- The cores, the dies and the focus are as before, where memory and the flows between dies may differ. -/
structure State.OnlyPlaces (s t : State) : Prop where
  cores : t.cores = s.cores
  dies : t.dies = s.dies
  cur : t.cur = s.cur

theorem State.OnlyPlaces.refl (s : State) : s.OnlyPlaces s := ⟨rfl, rfl, rfl⟩
theorem State.OnlyPlaces.trans (h : s.OnlyPlaces t) (k : t.OnlyPlaces u) : s.OnlyPlaces u :=
  ⟨k.cores.trans h.cores, k.dies.trans h.dies, k.cur.trans h.cur⟩
theorem onlyPlaces_foldl {α : Type} (f : State → α → State) (h : ∀ (s : State) a, s.OnlyPlaces (f s a)) (l : List α)
    (s : State) : s.OnlyPlaces (l.foldl f s) := by
  induction l generalizing s with
  | nil => exact .refl s
  | cons a l ih => exact (h s a).trans (ih _)

theorem putLine_onlyPlaces (s : State) (pa : Nat) (bs : List (Byte × Bool)) : s.OnlyPlaces (s.putLine pa bs) := by
  unfold State.putLine
  dsimp only
  split
  · exact ⟨rfl, rfl, rfl⟩
  · exact ⟨rfl, rfl, rfl⟩
theorem enterFlow_onlyPlaces (s : State) (path pa : Nat) (d : List (Byte × Bool)) (x : FlowUse) :
    s.OnlyPlaces (s.enterFlow core path pa d x) := by
  unfold State.enterFlow
  repeat' split
  all_goals exact ⟨rfl, rfl, rfl⟩
theorem putWrite_onlyPlaces (s : State) (w : SWrite) : s.OnlyPlaces (s.putWrite core w) :=
  (onlyPlaces_foldl (fun s (p : Nat × List (Byte × Bool)) => s.enterFlow core _ p.1 p.2 _)
    (fun s p => enterFlow_onlyPlaces core s _ p.1 p.2 _) w.parts s).trans
    (onlyPlaces_foldl (fun s (x : Nat × List (Byte × Bool)) => s.putLine x.1 x.2)
      (fun s x => putLine_onlyPlaces s x.1 x.2) w.parts _)

theorem KeepsRegs.trans {a b c : Strand} {l : List Nat} (h : KeepsRegs l a b) (k : KeepsRegs l b c) : KeepsRegs l a c :=
  fun n hn => ⟨(k n hn).1.trans (h n hn).1, (k n hn).2.trans (h n hn).2⟩
/-- A write of a register keeps the others. -/
theorem keepsRegs_setG (t : Strand) (d : Nat) (x : Word) : KeepsRegs [d] t (t.setG d x) := fun n hn => by
  have other : n ≠ d := fun e => hn (e ▸ List.mem_singleton_self n)
  exact ⟨by rw [gval_setG, if_neg fun h => other h.1], by rw [gst_setG, if_neg other]⟩

/-- What performing some waiting writes leaves of the dies and of the strand whose writes they were. -/
structure State.Performs (s t : State) : Prop where
  dies : t.dies = s.dies
  cur : t.cur = s.cur
  strand : ∃ w, t.strand core = { s.strand core with writes := w }

theorem performWrites_performs (s : State) (p : SWrite → Bool) : s.Performs core (s.performWrites core p) := by
  have h := onlyPlaces_foldl (fun s w => s.putWrite core w) (fun s w => putWrite_onlyPlaces core s w)
    ((s.strand core).writes.filter p)
    (s.setStrand core { s.strand core with writes := (s.strand core).writes.filter (fun w => !p w) })
  exact ⟨h.dies, h.cur, _,
    (congrArg (fun m => (mget m core (Core.start core)).strand) h.cores).trans (strand_setStrand ..)⟩
/-- A table's waiting window writes, performed (R213, R225). -/
theorem performTable_performs (s : State) (h : Nat) : s.Performs core (s.performTable core h) := by
  unfold State.performTable
  split
  · exact performWrites_performs core s _
  · exact ⟨rfl, rfl, _, rfl⟩

variable {core}
theorem State.Performs.frag (h : s.Performs core t) : (t.strand core).frag = (s.strand core).frag := by
  obtain ⟨w, e⟩ := h.strand
  rw [e]
theorem State.Performs.pc (h : s.Performs core t) : (t.strand core).pc = (s.strand core).pc := by
  obtain ⟨w, e⟩ := h.strand
  rw [e]
theorem State.Performs.regs (h : s.Performs core t) (l : List Nat) : KeepsRegs l (s.strand core) (t.strand core) := by
  obtain ⟨w, e⟩ := h.strand
  exact keepsRegs_of_eq (by rw [e]) (by rw [e])
end writes

section freed
variable (s : State) (c d core h : Nat) (l : List Nat) (seq : Nat) (b : Bool) {f : Frag}

@[simp] theorem strand_scrub : (s.scrub d l seq b).strand c = s.strand c := rfl
@[simp] theorem cur_scrub : (s.scrub d l seq b).cur = s.cur := rfl
theorem die_scrub : (s.scrub d l seq b).die d = { (s.die d).setTiles l 2 with
    seqs := (s.die d).seqs.filter (· != seq), arb := true
    scrub := (s.die d).scrub ++ l.map (fun t => (t, s.now + scrubTicks, b)) } := die_setDie ..

theorem me_doneWith (t : Strand) : (s.doneWith t).me = t.finish (s.me.pc + 4) := me_setMe ..
theorem die_doneWith (t : Strand) : (s.doneWith t).die d = s.die d := rfl

/-- A strand without a handle, the links to it and the steps of its table that fences name (R213). -/
def Strand.unleased (t : Strand) (h : Nat) : Strand := { t.unlinkTo h with frag := mdel (t.unlinkTo h).frag h }
theorem unleased_frag (t : Strand) : mfind (t.unleased h).frag h = none := by
  rw [Strand.unleased, mfind_mdel, if_pos rfl]
theorem unleased_regs (t : Strand) (l : List Nat) : KeepsRegs l t (t.unleased h) := keepsRegs_of_eq rfl rfl
theorem unleased_pc (t : Strand) : (t.unleased h).pc = t.pc := rfl

theorem freeFrag_eq (hf : mfind (s.strand core).frag h = some f) : s.freeFrag core h =
    ((s.setStrand core ((s.strand core).unleased h)).performTable core h).scrub f.die f.rect.tiles f.seq f.suspect := by
  simp only [State.freeFrag, hf]
  rfl

/-- What releasing a lease leaves (R200, R213). -/
theorem freeFrag_frees (hf : mfind (s.strand core).frag h = some f) :
    let t := s.freeFrag core h
    mfind (t.strand core).frag h = none ∧ f.seq ∉ (t.die f.die).seqs ∧
      (∀ i ∈ f.rect.tiles, mget (t.die f.die).tiles i 0 = 2) ∧ KeepsRegs [] (s.strand core) (t.strand core) ∧
      (t.strand core).pc = (s.strand core).pc ∧ t.cur = s.cur := by
  have p := performTable_performs core (s.setStrand core ((s.strand core).unleased h)) h
  have regs := p.regs []
  simp only [freeFrag_eq s core h hf, strand_scrub, die_scrub, cur_scrub, p.frag, p.pc, p.cur]
  rw [strand_setStrand] at regs ⊢
  refine ⟨unleased_frag .., by simp, fun i hi => by simp [mget_setTiles, hi], ?_, unleased_pc .., rfl⟩
  exact KeepsRegs.trans (unleased_regs h _ _) regs

theorem exec_ffree_frees (o : OpE) (hf : mfind s.me.frag o.h.toNat = some f) (hb : f.tbl.busy = false)
    (hr : f.reshaping = false) :
    let u := s.freeFrag s.cur o.h.toNat
    exec (.ffree o) s = .next (u.doneWith u.me) := by
  rw [exec_ffree, execFfree, hf]
  simp only [hb, hr]
  rfl
end freed

section reshape
variable (s : State) (core stage : Nat) (r : Reshape) (discard : Bool) {f g : Frag} {w : Wait}

/-- A reshape is what its packed number says (R201). -/
theorem unpack_pack (hh : r.h < 4) (ho : r.other < 4) (hs : r.seq < 16) (hd : r.dst < 32) : Reshape.unpack r.pack = r := by
  obtain ⟨h, other, axis, seq, dst⟩ := r
  have ha := axis.toNat_lt
  simp only [Reshape.unpack, Reshape.pack, Reshape.mk.injEq] at *
  refine ⟨by omega, by omega, ?_, by omega, by omega⟩
  have e : (h + 4 * other + 16 * axis.toNat + 32 * seq + 512 * dst) / 16 % 2 = axis.toNat := by omega
  rw [e]
  cases axis
  · rfl
  · rfl

theorem not_running_of_not_busy {t : Tbl} (h : t.busy = false) : t.st ≠ .running := by
  intro e
  simp [Tbl.busy, e] at h

/-- The package in which a reshape's first attempt is made: its fragment is Reshaping, unless it discards (R195). -/
def State.marked (h : Nat) : State := if discard then s else s.setMe (s.me.markReshape h true)
/-- The waiting instruction of a reshape that starts (R201). -/
def State.reshapeWait : Wait :=
  ⟨stage, r.pack, ((mfind s.me.frag r.h).elim false (fun f => f.tbl.st == .faulted)).toNat, s.now⟩

/-- A reshape that discards, or whose condition holds at its first attempt, completes at once (R201, R214 to R216). -/
theorem reshapeStart_completes
    (h : discard = false → (s.me.markReshape r.h true).reshapeNext (s.reshapeWait stage r) = .done) :
    let u := (s.marked discard r.h).reshapeDo s.cur (s.reshapeWait stage r) discard
    s.reshapeStart stage r discard = .next (u.doneWith u.me) := by
  cases discard with
  | true => rfl
  | false =>
    have next : (s.setMe (s.me.markReshape r.h true)).me.reshapeNext (s.reshapeWait stage r) = .done := by
      rw [me_setMe]; exact h rfl
    show State.reshapeStep _ (s.reshapeWait stage r) = _
    simp only [State.reshapeStep, next]
    rfl

@[simp] theorem markReshape_g (t : Strand) (h : Nat) (b : Bool) : (t.markReshape h b).g = t.g := by
  unfold Strand.markReshape; split <;> rfl
@[simp] theorem markReshape_gfe (t : Strand) (h : Nat) (b : Bool) : (t.markReshape h b).gfe = t.gfe := by
  unfold Strand.markReshape; split <;> rfl
theorem mfind_markReshape (t : Strand) (h k : Nat) (b : Bool) : mfind (t.markReshape h b).frag k =
    if k = h then (mfind t.frag h).map (fun f => { f with reshaping := b }) else mfind t.frag k := by
  unfold Strand.markReshape
  split
  · next hf => simp [mfind_mset, hf]
  · next hf =>
    split
    · next e => simp [e, hf]
    · rfl

theorem marked_cur (h : Nat) : (s.marked discard h).cur = s.cur := by
  unfold State.marked; split <;> rfl
theorem marked_regs (h : Nat) (l : List Nat) : KeepsRegs l s.me ((s.marked discard h).strand s.cur) := by
  unfold State.marked
  split
  · exact keepsRegs_of_eq rfl rfl
  · rw [strand_setMe]; exact keepsRegs_of_eq (markReshape_g ..) (markReshape_gfe ..)
/-- The fragment that a reshape starts on, but for its Reshaping mark. -/
theorem marked_frag {h : Nat} (hf : mfind s.me.frag h = some f) :
    ∃ b, mfind ((s.marked discard h).strand s.cur).frag h = some { f with reshaping := b } := by
  unfold State.marked
  split
  · exact ⟨f.reshaping, hf⟩
  · exact ⟨true, by rw [strand_setMe, mfind_markReshape, if_pos rfl, hf]; rfl⟩
theorem marked_frag_other {h k : Nat} (hk : k ≠ h) :
    mfind ((s.marked discard h).strand s.cur).frag k = mfind s.me.frag k := by
  unfold State.marked
  split
  · rfl
  · rw [strand_setMe, mfind_markReshape, if_neg hk]

/-- An empty bank and a table that does not run meet the drain rule (R201). -/
theorem drainRule_of_idle (ht : f.tbl.st ≠ .running) (he : f.bankEmpty = true) : f.drainRule = true := by
  simp [Frag.drainRule, ht, he]

theorem reshapeProgress_done {h : Nat} {old : Bool} (hold : f.tbl.st = .faulted → old = true) :
    reshapeProgress f h old true true = .done := by
  have fault : ¬ (decide (f.tbl.st = .faulted) && !old) = true := by
    simpa using hold
  simp only [reshapeProgress, fault, Bool.not_true, Bool.and_false, if_true]
  simp

/-- A split of a fragment whose table does not run, discarding or not (R201, R214). -/
theorem reshapeDo_split (hf : mfind (s.strand core).frag r.h = some f) (ht : f.tbl.st ≠ .running)
    (hr : Reshape.unpack w.a = r) (hw : w.stage = 1) : s.reshapeDo core w discard = s.split core r f f.tbl := by
  simp [State.reshapeDo, hr, hw, hf, ht, Tbl.discardStop, Tbl.drainStop]
/-- A fuse of fragments whose tables do not run (R201, R215). -/
theorem reshapeDo_fuse (hf : mfind (s.strand core).frag r.h = some f) (hg : mfind (s.strand core).frag r.other = some g)
    (ht : f.tbl.st ≠ .running) (hr : Reshape.unpack w.a = r) (hw : w.stage = 2) :
    s.reshapeDo core w discard = s.fuse core r f g f.tbl := by
  simp [State.reshapeDo, hr, hw, hf, hg, ht, Tbl.discardStop, Tbl.drainStop]
theorem reshapeDo_unchain (hr : Reshape.unpack w.a = r) (hw : w.stage = 3) :
    s.reshapeDo core w false = s.unchain core r.h := by
  cases hf : mfind (s.strand core).frag r.h with
  | none => simp [State.reshapeDo, hr, hw, hf]
  | some f => simp [State.reshapeDo, hr, hw, hf]

/-- The two halves of a split (R214). -/
def Frag.Halved (f : Frag) (axis : Bool) (seq : Nat) (a b : Frag) : Prop :=
  a.row0 = f.row0 ∧ a.col0 = f.col0 ∧ a.seq = f.seq ∧ b.seq = seq ∧ b.tbl = Tbl.start ∧
    if axis then
      a.lh = f.lh ∧ b.lh = f.lh ∧ a.lw = f.lw - 1 ∧ b.lw = f.lw - 1 ∧ b.row0 = f.row0 ∧ b.col0 = f.col0 + 2 ^ (f.lw - 1)
    else a.lw = f.lw ∧ b.lw = f.lw ∧ a.lh = f.lh - 1 ∧ b.lh = f.lh - 1 ∧ b.col0 = f.col0 ∧ b.row0 = f.row0 + 2 ^ (f.lh - 1)

/-- What a split leaves (R214). -/
theorem split_halves (t : Tbl) (hne : r.h ≠ r.other) :
    let u := s.split core r f t
    ∃ a b, mfind (u.strand core).frag r.h = some a ∧ mfind (u.strand core).frag r.other = some b ∧
      f.Halved r.axis r.seq a b ∧
      (r.dst ≠ 0 → (u.strand core).gval r.dst = BitVec.ofNat 64 (a.deckle + b.deckle * 2 ^ 32)) ∧
      KeepsRegs [r.dst] (s.strand core) (u.strand core) := by
  simp only [State.split, strand_setStrand, setG_frag, gval_setG, true_and]
  refine ⟨_, _, ?_, mfind_mset_same .., ?_, fun h => if_pos h, keepsRegs_setG _ _ _⟩
  · rw [mfind_mset_other _ _ _ _ hne, mfind_mset_same]
  · cases r.axis
    · exact ⟨rfl, rfl, rfl, rfl, rfl, rfl, rfl, rfl, rfl, rfl, rfl⟩
    · exact ⟨rfl, rfl, rfl, rfl, rfl, rfl, rfl, rfl, rfl, rfl, rfl⟩

theorem split_pc (f : Frag) (t : Tbl) : ((s.split core r f t).strand core).pc = (s.strand core).pc := by
  simp only [State.split, strand_setStrand, setG_pc]
theorem split_cur (f : Frag) (t : Tbl) : (s.split core r f t).cur = s.cur := rfl

/-- A sequencer that is free again (R215). -/
@[simp] theorem strand_freeSeq (d seq : Nat) : (s.freeSeq d seq).strand core = s.strand core := rfl
theorem freeSeq_free (d seq : Nat) : seq ∉ ((s.freeSeq d seq).die d).seqs := by simp [State.freeSeq]

/-- A strand whose handle took a union, and whose other handle is unleased (R215). -/
def Strand.united (t : Strand) (h other : Nat) (a : Frag) : Strand :=
  { t.forget other with frag := mdel (mset (t.forget other).frag h a) other }
theorem united_frag (t : Strand) {h other : Nat} (a : Frag) (hne : h ≠ other) :
    mfind (t.united h other a).frag h = some a := by
  rw [Strand.united, mfind_mdel, if_neg hne, mfind_mset_same]
theorem united_frag_other (t : Strand) (h other : Nat) (a : Frag) : mfind (t.united h other a).frag other = none := by
  rw [Strand.united, mfind_mdel, if_pos rfl]
theorem united_regs (t : Strand) (h other : Nat) (a : Frag) (l : List Nat) : KeepsRegs l t (t.united h other a) :=
  keepsRegs_of_eq rfl rfl
theorem united_pc (t : Strand) (h other : Nat) (a : Frag) : (t.united h other a).pc = t.pc := rfl

theorem fuse_apart (t : Tbl) (hu : f.rect.union g.rect = none) : s.fuse core r f g t = s := by
  simp only [State.fuse, hu]
theorem fuse_united {u : Rect} (t : Tbl) (hu : f.rect.union g.rect = some u) :
    ∃ a : Frag, s.fuse core r f g t = ((s.performTable core r.other).setStrand core
        ((((s.performTable core r.other).strand core).united r.h r.other a).setG r.dst
          (BitVec.ofNat 64 a.deckle))).freeSeq f.die g.seq ∧
      a.rect = u ∧ a.seq = f.seq ∧ a.tbl = t := by
  simp only [State.fuse, hu]
  exact ⟨_, rfl, rfl, rfl, rfl⟩

/-- What a fuse leaves (R215). -/
theorem fuse_union {u : Rect} (t : Tbl) (hu : f.rect.union g.rect = some u) (hne : r.h ≠ r.other) :
    let v := s.fuse core r f g t
    ∃ a, mfind (v.strand core).frag r.h = some a ∧ mfind (v.strand core).frag r.other = none ∧ a.rect = u ∧
      a.seq = f.seq ∧ a.tbl = t ∧ g.seq ∉ (v.die f.die).seqs ∧
      (r.dst ≠ 0 → (v.strand core).gval r.dst = BitVec.ofNat 64 a.deckle) ∧
      KeepsRegs [r.dst] (s.strand core) (v.strand core) ∧ v.cur = s.cur := by
  have p := performTable_performs core s r.other
  obtain ⟨a, e, rect, seq, tbl⟩ := fuse_united s core r t hu
  simp only [e, strand_freeSeq, strand_setStrand, setG_frag, gval_setG, true_and]
  refine ⟨a, united_frag _ _ hne, united_frag_other .., rect, seq, tbl, freeSeq_free _ _ _, fun h => if_pos h, ?_, p.cur⟩
  exact KeepsRegs.trans (p.regs _) (KeepsRegs.trans (united_regs _ _ _ a _) (keepsRegs_setG _ _ _))

theorem fuse_pc (f g : Frag) (t : Tbl) : ((s.fuse core r f g t).strand core).pc = (s.strand core).pc := by
  cases hu : f.rect.union g.rect with
  | none => rw [fuse_apart s core r t hu]
  | some u =>
    obtain ⟨a, e, -⟩ := fuse_united s core r t hu
    simp only [e, strand_freeSeq, strand_setStrand, setG_pc, united_pc]
    exact (performTable_performs core s r.other).pc

theorem fuse_cur (f g : Frag) (t : Tbl) : (s.fuse core r f g t).cur = s.cur := by
  cases hu : f.rect.union g.rect with
  | none => rw [fuse_apart s core r t hu]
  | some u =>
    obtain ⟨a, e, -⟩ := fuse_united s core r t hu
    rw [e]
    exact (performTable_performs core s r.other).cur

/-- What an unchain leaves (R216). -/
theorem unchain_unlinks {h : Nat} (hf : mfind (s.strand core).frag h = some f) :
    s.unchain core h = s.setFrag core h { f with link := none, reshaping := false } := by
  simp only [State.unchain, hf]
  rfl
theorem unchain_pc (h : Nat) : ((s.unchain core h).strand core).pc = (s.strand core).pc := by
  unfold State.unchain
  dsimp only
  split
  · rw [strand_setStrand]
  · rfl

theorem unchain_cur (h : Nat) : (s.unchain core h).cur = s.cur := by
  unfold State.unchain
  dsimp only
  split
  · rfl
  · rfl

/-- Everything that a reshape without discard can do (R214 to R216). -/
theorem reshapeDo_cases (w : Wait) :
    (∃ h, s.reshapeDo core w false = s.unchain core h) ∨ (∃ r f t, s.reshapeDo core w false = s.split core r f t) ∨
      ∃ r f g t, s.reshapeDo core w false = s.fuse core r f g t := by
  cases hf : mfind (s.strand core).frag (Reshape.unpack w.a).h with
  | none =>
    simp only [State.reshapeDo, hf]
    refine .inl ⟨(Reshape.unpack w.a).h, ?_⟩
    split
    · contradiction
    · contradiction
    · rfl
  | some f =>
    simp only [State.reshapeDo, hf, Bool.false_and, Bool.false_eq_true, if_false]
    split
    · exact .inr (.inl ⟨_, _, _, rfl⟩)
    · exact .inr (.inr ⟨_, _, _, _, rfl⟩)
    · exact .inl ⟨_, rfl⟩
/-- No reshape moves the pc of its strand. -/
theorem reshapeDo_pc (w : Wait) : ((s.reshapeDo core w false).strand core).pc = (s.strand core).pc := by
  rcases reshapeDo_cases s core w with ⟨h, e⟩ | ⟨r, f, t, e⟩ | ⟨r, f, g, t, e⟩
  · rw [e, unchain_pc]
  · rw [e, split_pc]
  · rw [e, fuse_pc]
theorem reshapeDo_cur (w : Wait) : (s.reshapeDo core w false).cur = s.cur := by
  rcases reshapeDo_cases s core w with ⟨h, e⟩ | ⟨r, f, t, e⟩ | ⟨r, f, g, t, e⟩
  · rw [e, unchain_cur]
  · rw [e, split_cur]
  · rw [e, fuse_cur]
end reshape

section query
variable (t : Strand) (h : Nat) {f : Frag}

/-- A fragment has an outgoing link to a handle (R203). -/
def Frag.linksTo (f : Frag) (h : Nat) : Bool :=
  match f.link with
  | some l => l.dst == h
  | none => false
/-- The fragment whose outgoing link leads to a handle (R203). -/
def Strand.incoming (t : Strand) (h : Nat) : Option (Nat × Frag) := t.frag.find? (fun g => g.2.linksTo h)

theorem linksTo_iff : f.linksTo h = true ↔ ∃ l, f.link = some l ∧ l.dst = h := by
  unfold Frag.linksTo
  cases f.link with
  | none => simp
  | some l => simp

theorem incoming_none (hn : ∀ g ∈ t.frag, ∀ l, g.2.link = some l → l.dst ≠ h) : t.incoming h = none := by
  refine List.find?_eq_none.mpr fun g hg ht => ?_
  obtain ⟨l, hl, hd⟩ := (linksTo_iff h).mp ht
  exact hn g hg l hl hd
theorem incoming_only {g : Nat × Frag} (hg : g ∈ t.frag) (hl : ∀ l, g.2.link = some l → l.dst = h)
    (hs : g.2.link.isSome = true) (hu : ∀ k ∈ t.frag, ∀ l, k.2.link = some l → l.dst = h → k = g) :
    t.incoming h = some g := by
  obtain ⟨l, e⟩ := Option.isSome_iff_exists.mp hs
  cases hi : t.incoming h with
  | none => exact absurd ((linksTo_iff h).mpr ⟨l, e, hl l e⟩) (List.find?_eq_none.mp hi g hg)
  | some k =>
    have leads : k.2.linksTo h = true := List.find?_some (p := fun g : Nat × Frag => g.2.linksTo h) hi
    obtain ⟨m, hm, hd⟩ := (linksTo_iff h).mp leads
    rw [hu k (List.mem_of_find?_eq_some hi) m hm hd]

/-- The state of a fragment in FQUERY (R217). -/
def Frag.queried (f : Frag) : Nat := if f.reshaping then 3 else if f.tbl.st = .running then 2 else 1
/-- What an outgoing link adds to the word of FQUERY (R217). -/
def outgoingBits : Option Link → Nat
  | some l => 2 ^ 40 + l.dst * 2 ^ 42 + min 32 l.entries.length * 2 ^ 48
  | none => 0
/-- What an incoming link adds to it, by its partner's handle (R217). -/
def incomingBits : Option Nat → Nat
  | some g => 2 ^ 41 + g * 2 ^ 44
  | none => 0
theorem outgoingBits_eq (k : Option Link) : outgoingBits k =
    k.isSome.toNat * 2 ^ 40 + k.elim 0 Link.dst * 2 ^ 42 + k.elim 0 (fun l => min 32 l.entries.length) * 2 ^ 48 := by
  cases k
  · rfl
  · simp [outgoingBits]
theorem incomingBits_eq (g : Option (Nat × Frag)) : incomingBits (g.map (·.1)) =
    g.isSome.toNat * 2 ^ 41 + g.elim 0 (·.1) * 2 ^ 44 := by
  cases g
  · rfl
  · simp [incomingBits]
/-- The word of FQUERY, field by field (R191, R217). -/
theorem fquery_leased (hf : mfind t.frag h = some f) : t.fquery h =
    f.row0 + f.col0 * 2 ^ 4 + f.lh * 2 ^ 8 + f.lw * 2 ^ 12 + f.seq * 2 ^ 16 + f.die * 2 ^ 20 + f.secure.toNat * 2 ^ 23 +
      f.queried * 2 ^ 32 + f.suspect.toNat * 2 ^ 36 + f.link.isSome.toNat * 2 ^ 40 + (t.incoming h).isSome.toNat * 2 ^ 41 +
      f.link.elim 0 Link.dst * 2 ^ 42 + (t.incoming h).elim 0 (·.1) * 2 ^ 44 +
      f.link.elim 0 (fun l => min 32 l.entries.length) * 2 ^ 48 := by
  have e : t.fquery h = f.deckle + f.queried * 2 ^ 32 + f.suspect.toNat * 2 ^ 36 + outgoingBits f.link +
      incomingBits ((t.incoming h).map (·.1)) := by
    simp only [Strand.fquery, hf]
    rfl
  rw [e, Frag.deckle, outgoingBits_eq, incomingBits_eq]
  omega

theorem field_ofNat (n lo w : Nat) (hn : n < 2 ^ 64) : Said.field (BitVec.ofNat 64 n) lo w = n / 2 ^ lo % 2 ^ w := by
  rw [Said.field, BitVec.toNat_ofNat, Nat.mod_eq_of_lt hn]

theorem queried_lt : f.queried < 4 := by
  unfold Frag.queried
  repeat' split
  all_goals decide

/-- FQUERY delivers the word of R217, where every field is in its range. -/
theorem fquery_fragWord (hf : mfind t.frag h = some f) (h0 : f.row0 < 16) (h1 : f.col0 < 16) (h2 : f.lh < 8) (h3 : f.lw < 8)
    (h4 : f.seq < 16) (h5 : f.die < 8) (hl : ∀ l, f.link = some l → l.dst < 4) (hk : ∀ g ∈ t.frag, g.1 < 4) :
    Said.FragWord t h f (BitVec.ofNat 64 (t.fquery h)) := by
  have e := fquery_leased t h hf
  have sec := f.secure.toNat_lt
  have sus := f.suspect.toNat_lt
  have st := queried_lt (f := f)
  have out : f.link.isSome.toNat < 2 ∧ f.link.elim 0 Link.dst < 4 ∧
      f.link.elim 0 (fun l => min 32 l.entries.length) < 64 := by
    cases hfl : f.link with
    | none => decide
    | some l => exact ⟨by simp, hl l hfl, by simp only [Option.elim]; omega⟩
  have inc : (t.incoming h).isSome.toNat < 2 ∧ (t.incoming h).elim 0 (·.1) < 4 := by
    cases hi : t.incoming h with
    | none => decide
    | some g => exact ⟨by simp, hk g (List.mem_of_find?_eq_some hi)⟩
  obtain ⟨o1, o2, o3⟩ := out
  obtain ⟨i1, i2⟩ := inc
  have lt : t.fquery h < 2 ^ 64 := by omega
  simp only [Said.FragWord, field_ofNat _ _ _ lt]
  refine ⟨by omega, by omega, by omega, by omega, by omega, by omega, by omega, by omega,
    show _ = f.queried by omega, by omega, by omega, by omega, by omega, fun hn => ?_, fun l hn => ?_, fun hn => ?_,
    fun g hg hd hs hu => ?_⟩
  · simp only [hn, Option.isSome_none, Bool.toNat_false, Option.elim_none] at e
    exact ⟨by omega, by omega, by omega⟩
  · simp only [hn, Option.isSome_some, Bool.toNat_true, Option.elim_some] at e o2
    exact ⟨by omega, by omega, show _ = min 32 _ by omega⟩
  · simp only [incoming_none t h hn, Option.isSome_none, Bool.toNat_false, Option.elim_none] at e
    exact ⟨by omega, by omega⟩
  · simp only [incoming_only t h hg hd hs hu, Option.isSome_some, Bool.toNat_true, Option.elim_some] at e i2
    exact ⟨by omega, by omega⟩
end query
end Sys2Proof.Machine
end

section
/-! SUPPORT. Fragment instructions (R203, R204, R213 to R217): how fsplit, ffuse, fchain, funchain and fquery complete. -/

namespace Sys2Proof.Machine

section reshapes
variable (s : State) (t : Strand) (r : Reshape) (discard : Bool) {f g : Frag} {w : Wait}

/-- A waiting split whose fragment is empty and idle completes (R201, R214). -/
theorem reshapeNext_split (hw : w.stage = 1) (hr : Reshape.unpack w.a = r) (hf : mfind t.frag r.h = some f)
    (hb : f.tbl.busy = false) (he : f.bankEmpty = true) (ho : f.tbl.st = .faulted → (w.b == 1) = true) :
    t.reshapeNext w = .done := by
  have rule := drainRule_of_idle (not_running_of_not_busy hb) he
  simp only [Strand.reshapeNext, hw, hr, hf, rule, he, if_true]
  exact reshapeProgress_done ho
/-- A waiting fuse whose fragments are empty and idle completes (R201, R215). -/
theorem reshapeNext_fuse (hw : w.stage = 2) (hr : Reshape.unpack w.a = r) (hf : mfind t.frag r.h = some f)
    (hg : mfind t.frag r.other = some g) (hb : f.tbl.busy = false) (hc : g.tbl.busy = false) (he : f.bankEmpty = true)
    (hx : g.bankEmpty = true) (ho : f.tbl.st = .faulted → (w.b == 1) = true) : t.reshapeNext w = .done := by
  have rule := drainRule_of_idle (not_running_of_not_busy hb) he
  have rule' := drainRule_of_idle (not_running_of_not_busy hc) hx
  have two : ¬ (2 : Nat) = 1 := by decide
  simp only [Strand.reshapeNext, hw, hr, hf, hg, rule, rule', he, hx, if_true, if_neg two, Bool.and_self]
  exact reshapeProgress_done ho
/-- A waiting unchain of an empty link that no DRAIN pushes to completes (R216). -/
theorem reshapeNext_unchain {l : Link} (hw : w.stage = 3) (hr : Reshape.unpack w.a = r) (hf : mfind t.frag r.h = some f)
    (hl : f.link = some l) (he : l.entries = []) (hc : f.tbl.cascading = false) : t.reshapeNext w = .done := by
  simp [Strand.reshapeNext, hw, hr, hf, hl, he, hc]

/-- The fragment under the handle of a reshape that waits. -/
theorem mfind_marked {t : Strand} (hf : mfind t.frag r.h = some f) :
    mfind (t.markReshape r.h true).frag r.h = some { f with reshaping := true } := by
  rw [mfind_markReshape, if_pos rfl, hf]; rfl
theorem reshapeWait_old {stage : Nat} (hf : mfind s.me.frag r.h = some f) (h : f.tbl.st = .faulted) :
    ((s.reshapeWait stage r).b == 1) = true := by
  simp [State.reshapeWait, hf, h]

theorem setFrag_cur (core h : Nat) (f : Frag) : (s.setFrag core h f).cur = s.cur := rfl
/-- The strand in focus after its instruction has ended as it stands. -/
theorem me_doneWith_me {u : State} {c : Nat} (h : u.cur = c) :
    (u.doneWith u.me).me = (u.strand c).finish ((u.strand c).pc + 4) := by
  subst h; exact me_doneWith ..

theorem strand_doneWith_me {u : State} {c : Nat} (h : u.cur = c) :
    (u.doneWith u.me).strand c = (u.strand c).finish ((u.strand c).pc + 4) := by
  subst h; exact strand_setMe ..

/-- A split of an empty, idle fragment completes at once, discarding or not (R214). -/
theorem split_completes (hr : Reshape.unpack r.pack = r) (hf : mfind s.me.frag r.h = some f) (hb : f.tbl.busy = false)
    (he : f.bankEmpty = true) (hne : r.h ≠ r.other) :
    ∃ t a b, s.reshapeStart 1 r discard = .next t ∧ mfind t.me.frag r.h = some a ∧ mfind t.me.frag r.other = some b ∧
      f.Halved r.axis r.seq a b ∧
      (r.dst ≠ 0 → t.me.gval r.dst = BitVec.ofNat 64 (a.deckle + b.deckle * 2 ^ 32)) ∧ KeepsRegs [r.dst] s.me t.me := by
  have old : f.tbl.st = .faulted → ((s.reshapeWait 1 r).b == 1) = true := reshapeWait_old s r hf
  have next : (s.me.markReshape r.h true).reshapeNext (s.reshapeWait 1 r) = .done :=
    reshapeNext_split _ r rfl hr (mfind_marked r hf) hb he old
  obtain ⟨m, hm⟩ := marked_frag s discard hf
  have e := reshapeStart_completes s 1 r discard fun _ => next
  simp only [reshapeDo_split (w := s.reshapeWait 1 r) _ s.cur r discard hm (not_running_of_not_busy hb) hr rfl] at e
  obtain ⟨a, b, ha, hb, half, deckles, regs⟩ := split_halves (s.marked discard r.h) s.cur r
    (f := { f with reshaping := m }) f.tbl hne
  refine ⟨_, a, b, e, ?_⟩
  rw [me_doneWith_me ((split_cur _ _ _ _ _).trans (marked_cur s discard r.h))]
  exact ⟨ha, hb, half, deckles, KeepsRegs.trans (marked_regs s discard r.h _) regs⟩

/-- A fuse of empty, idle fragments completes at once, discarding or not (R215). -/
theorem fuse_completes {u : Rect} (hr : Reshape.unpack r.pack = r) (hf : mfind s.me.frag r.h = some f)
    (hg : mfind s.me.frag r.other = some g) (hb : f.tbl.busy = false) (hc : g.tbl.busy = false)
    (he : f.bankEmpty = true) (hx : g.bankEmpty = true) (hu : f.rect.union g.rect = some u) (hne : r.h ≠ r.other) :
    ∃ t a, s.reshapeStart 2 r discard = .next t ∧ mfind t.me.frag r.h = some a ∧ mfind t.me.frag r.other = none ∧
      a.rect = u ∧ a.seq = f.seq ∧ a.tbl = f.tbl ∧ g.seq ∉ (t.die f.die).seqs ∧
      (r.dst ≠ 0 → t.me.gval r.dst = BitVec.ofNat 64 a.deckle) ∧ KeepsRegs [r.dst] s.me t.me := by
  have old : f.tbl.st = .faulted → ((s.reshapeWait 2 r).b == 1) = true := reshapeWait_old s r hf
  have next : (s.me.markReshape r.h true).reshapeNext (s.reshapeWait 2 r) = .done :=
    reshapeNext_fuse _ r rfl hr (mfind_marked r hf)
      (by rw [mfind_markReshape, if_neg hne.symm, hg]) hb hc he hx old
  obtain ⟨m, hm⟩ := marked_frag s discard hf
  have hk := (marked_frag_other s discard hne.symm).trans hg
  have e := reshapeStart_completes s 2 r discard fun _ => next
  simp only [reshapeDo_fuse (w := s.reshapeWait 2 r) _ s.cur r discard hm hk (not_running_of_not_busy hb) hr rfl] at e
  obtain ⟨a, ha, hn, rect, seq, tbl, free, deckle, regs, cur⟩ := fuse_union (s.marked discard r.h) s.cur r
    (f := { f with reshaping := m }) f.tbl hu hne
  refine ⟨_, a, e, ?_⟩
  rw [me_doneWith_me (cur.trans (marked_cur s discard r.h)), die_doneWith]
  exact ⟨ha, hn, rect, seq, tbl, free, deckle, KeepsRegs.trans (marked_regs s discard r.h _) regs⟩

/-- An unchain of an empty link that no DRAIN pushes to completes at once (R216). -/
theorem unchain_completes {l : Link} (hr : Reshape.unpack r.pack = r) (hf : mfind s.me.frag r.h = some f)
    (hl : f.link = some l) (he : l.entries = []) (hc : f.tbl.cascading = false) :
    ∃ t a, s.reshapeStart 3 r false = .next t ∧ mfind t.me.frag r.h = some a ∧ a.link = none ∧
      KeepsRegs [] s.me t.me ∧ SameMemory s t := by
  have next : (s.me.markReshape r.h true).reshapeNext (s.reshapeWait 3 r) = .done :=
    reshapeNext_unchain _ r rfl hr (mfind_marked r hf) hl he hc
  obtain ⟨m, hm⟩ := marked_frag s false hf
  have e := reshapeStart_completes s 3 r false fun _ => next
  simp only [reshapeDo_unchain (w := s.reshapeWait 3 r) _ s.cur r hr rfl, unchain_unlinks _ s.cur hm] at e
  refine ⟨_, { f with link := none, reshaping := false }, e, ?_⟩
  rw [me_doneWith_me ((setFrag_cur ..).trans (marked_cur s false r.h)), strand_setFrag]
  exact ⟨mfind_mset_same .., rfl, KeepsRegs.trans (marked_regs s false r.h _) (keepsRegs_of_eq rfl rfl), fun _ => rfl⟩
end reshapes

section instructions
variable (s : State) (o : OpE) {f g : Frag}

theorem exec_fsplitForms : ∀ i ∈ [Instr.fsplit o, .fsplitDiscard o], ∃ discard, exec i s = fsplit discard o s := by
  rintro _ (_ | ⟨_, _ | ⟨_, ⟨⟩⟩⟩)
  · exact ⟨false, rfl⟩
  · exact ⟨true, rfl⟩
theorem exec_ffuseForms : ∀ i ∈ [Instr.ffuse o, .ffuseDiscard o], ∃ discard, exec i s = ffuse discard o s := by
  rintro _ (_ | ⟨_, _ | ⟨_, ⟨⟩⟩⟩)
  · exact ⟨false, rfl⟩
  · exact ⟨true, rfl⟩

theorem freeSeq_lt {x : Die} {seq : Nat} (h : x.freeSeq = some seq) : seq < 16 :=
  List.mem_range.mp (List.mem_of_find?_eq_some h)

/-- An fsplit that its checks let pass takes a sequencer and starts (R214). -/
theorem fsplit_starts {seq : Nat} {x : Word} (discard : Bool) (hw : s.me.wait = none) (ha : s.me.Ready o.a)
    (hb : s.me.Free o.b) (hx : s.me.gval o.a.toNat = x) (hf : mfind s.me.frag o.h.toNat = some f)
    (hs : f.suspect = false) (hl : s.me.linked o.h.toNat = false) (hn : mfind s.me.frag (x.toNat % 4) = none)
    (he : f.bankEmpty = true) (hq : (s.die f.die).freeSeq = some seq) (h0 : (if x.getLsbD 8 then f.lw else f.lh) ≠ 0) :
    fsplit discard o s = (s.setDie f.die { s.die f.die with seqs := seq :: (s.die f.die).seqs }).reshapeStart 1
      ⟨o.h.toNat, x.toNat % 4, x.getLsbD 8, seq, o.b.toNat⟩ discard := by
  have side : ((if x.getLsbD 8 then f.lw else f.lh) == 0) = false := beq_eq_false_iff_ne.mpr h0
  rw [fsplit, hw]
  refine (src1_full _ _ _ _ ha).trans ((dest_ready _ _ _ hb).trans ?_)
  simp only [hx, hf, hs, hl, hn, he, hq, side, Option.isSome_none, Bool.or_false, Bool.not_true, Bool.and_false,
    Bool.false_eq_true, if_false]

/-- An ffuse that its checks let pass starts (R215). -/
theorem ffuse_starts {u : Rect} {k : Nat} (discard : Bool) (hw : s.me.wait = none) (ha : s.me.Ready o.a)
    (hb : s.me.Free o.b) (hk : (s.me.gval o.a.toNat).toNat % 4 = k) (hf : mfind s.me.frag o.h.toNat = some f)
    (hg : mfind s.me.frag k = some g) (hne : o.h.toNat ≠ k) (hs : f.suspect = false) (ht : g.suspect = false)
    (hl : s.me.linked o.h.toNat = false) (hm : s.me.linked k = false) (hu : f.rect.union g.rect = some u)
    (hc : g.tbl.busy = false) (he : f.bankEmpty = true) (hx : g.bankEmpty = true) :
    ffuse discard o s = s.reshapeStart 2 ⟨o.h.toNat, k, false, 0, o.b.toNat⟩ discard := by
  rw [ffuse, hw]
  refine (src1_full _ _ _ _ ha).trans ((dest_ready _ _ _ hb).trans ?_)
  simp [hk, hf, hg, hne, hs, ht, hl, hm, hu, hc, he, hx]

theorem funchain_starts {l : Link} (hw : s.me.wait = none) (hf : mfind s.me.frag o.h.toNat = some f) (hl : f.link = some l) :
    exec (.funchain o) s = s.reshapeStart 3 ⟨o.h.toNat, o.h.toNat, false, 0, 0⟩ false := by
  rw [exec_funchain, execFunchain, hw]
  simp [hf, hl]

/-- An fchain that its checks let pass makes its link (R203, R216). -/
theorem exec_fchain_chains {k : Nat} (ha : s.me.Ready o.a) (hk : (s.me.gval o.a.toNat).toNat % 4 = k)
    (hf : mfind s.me.frag o.h.toNat = some f) (hg : mfind s.me.frag k = some g) (hne : o.h.toNat ≠ k)
    (hs : f.suspect = false) (ht : g.suspect = false) (hadj : f.rect.adjacent g.rect = true) (hl : f.link = none)
    (hin : ∀ y ∈ s.me.frag, ∀ l, y.2.link = some l → l.dst ≠ k) (hr : s.me.reaches o.h.toNat 4 k = false) :
    exec (.fchain o) s = .next (s.doneWith (s.me.chain o.h.toNat k f g)) := by
  have unlinked : ¬ s.me.frag.any (fun y => y.2.linksTo k) = true := by
    rw [List.any_eq_true]
    rintro ⟨y, hy, leads⟩
    obtain ⟨l, e, d⟩ := (linksTo_iff k).mp leads
    exact hin y hy l e d
  rw [exec_fchain, execFchain]
  refine (src1_full _ _ _ _ ha).trans ?_
  simp only [hk, hf, hg, hs, ht, hadj, hl, hr, beq_eq_false_iff_ne.mpr hne, Option.isSome_none, Bool.or_false,
    Bool.false_or, Bool.not_true]
  exact if_neg unlinked

/-- The event that ends a reshape whose condition has come to hold (R201, R214 to R216). -/
theorem exec_reshapeComplete_done {core : Nat} {w : Wait} (hc : core < 384) (hy : (s.strand core).why = .until .reshape)
    (hw : (s.strand core).wait = some w) (hn : (s.strand core).reshapeNext w = .done) (hs : (s.strand core).ss = false) :
    let u := ({ s with cur := core } : State).reshapeDo core w false
    exec (.reshapeComplete core) s = .next { u.doneWith u.me with cur := s.cur } := by
  intro u
  have step : ({ s with cur := core } : State).reshapeStep w = .next (u.doneWith u.me) := by
    have next : ({ s with cur := core } : State).me.reshapeNext w = .done := hn
    simp only [State.reshapeStep, next]
    rfl
  rw [exec_reshapeComplete, execReshapeComplete, if_neg (by simp only [Config.cores]; omega)]
  simp only [hy, hw, State.focus, step, singleStep_off _ _ hs]

end instructions
end Sys2Proof.Machine

open Sys2Proof.Machine

/-- Settles O33: the release is `freeFrag_frees`, the reshapes are `split_completes` and `fuse_completes` after
`fsplit_starts` and `ffuse_starts`, and the word of fquery is `fquery_fragWord`. -/
theorem fragmentsAreFreedSplitAndFused : Obligations.FragmentsAreFreedSplitAndFused := by
  intro o s hw h4 h x
  have k4 : x.toNat % 4 < 4 := Nat.mod_lt _ (by decide)
  have dst : o.b ≠ 0 → o.b.toNat ≠ 0 := fun hb e => hb (BitVec.eq_of_toNat_eq e)
  refine ⟨fun f hf hb hr => ⟨_, exec_ffree_frees s o hf hb hr, ?_⟩,
    fun f seq ha hb hf hs hl hn hy he hq h0 i hi => ?_, fun f g u ha hb hf hg hne hs ht hl hm hu hy hz he hx i hi => ?_,
    fun hb => ⟨_, produce_ready s o.b _ hb, fun hn => ?_, fun f hf h0 h1 h2 h3 h5 h6 hl hk =>
      fquery_fragWord s.me h hf h0 h1 h2 h3 h5 h6 hl hk⟩⟩
  · obtain ⟨gone, seq, tiles, regs, pc, cur⟩ := freeFrag_frees s s.cur h hf
    rw [me_doneWith_me cur, die_doneWith]
    exact ⟨gone, seq, tiles, regs, congrArg (· + 4) pc⟩
  · obtain ⟨d, e⟩ := exec_fsplitForms s o i hi
    have hne : h ≠ x.toNat % 4 := fun e => by rw [← e, hf] at hn; cases hn
    have start := fsplit_starts s o d hw ha hb rfl hf hs hl hn he hq h0
    obtain ⟨t, a, b, ht, ha, hb, ⟨r0, c0, sa, sb, tb, half⟩, deckles, regs⟩ := split_completes
      (s.setDie f.die { s.die f.die with seqs := seq :: (s.die f.die).seqs })
      ⟨h, x.toNat % 4, x.getLsbD 8, seq, o.b.toNat⟩ d (unpack_pack _ h4 k4 (freeSeq_lt hq) o.b.isLt) hf hy he hne
    exact ⟨t, a, b, e.trans (start.trans ht), ha, hb, r0, c0, sa, sb, tb, half, fun hb => deckles (dst hb), regs⟩
  · obtain ⟨d, e⟩ := exec_ffuseForms s o i hi
    have start := ffuse_starts s o d hw ha hb rfl hf hg hne hs ht hl hm hu hz he hx
    obtain ⟨t, a, ht, ha, hn, rect, seq, tbl, free, deckle, regs⟩ := fuse_completes s
      ⟨h, x.toNat % 4, false, 0, o.b.toNat⟩ d (unpack_pack _ h4 k4 (Nat.succ_pos 15) o.b.isLt) hf hg hy hz he hx hu hne
    exact ⟨t, a, e.trans (start.trans ht), ha, hn, rect, seq, tbl, free, fun hb => deckle (dst hb), regs⟩
  · have zero : s.me.fquery h = 0 := by simp only [Strand.fquery, hn]
    rw [zero]; rfl

/-- Settles O34: `exec_fchain_chains`, `unchain_completes` after `funchain_starts`, and for the event `reshapeDo_pc`. -/
theorem linksAreMadeAndTakenAway : Obligations.LinksAreMadeAndTakenAway := by
  refine ⟨fun o s f g ha => ?_, fun o s f l hw h4 hf hl he hc => ?_,
    fun core s w hc hy hw hn hs => ?_⟩
  · intro h k hf hg hne hs ht hadj hl hin hr
    refine ⟨_, { f with
      link := some ⟨k, [], false, 0, 0, 0⟩, tbl := { f.tbl with ck := { f.tbl.ck with pushed := 0 } } },
      exec_fchain_chains s o ha rfl hf hg hne hs ht hadj hl hin hr, ?_⟩
    rw [me_doneWith]
    refine ⟨?_, rfl, keepsRegs_of_eq rfl rfl, fun _ => rfl⟩
    rw [finish_frag, Strand.chain, mfind_mset_other _ _ _ _ hne, mfind_mset_same]
  · rw [funchain_starts s o hw hf hl]
    exact unchain_completes s ⟨o.h.toNat, o.h.toNat, false, 0, 0⟩
      (unpack_pack _ h4 h4 (Nat.succ_pos 15) (Nat.succ_pos 31)) hf hl he hc
  · refine ⟨_, exec_reshapeComplete_done s hc hy hw hn hs, ?_⟩
    have cur := reshapeDo_cur { s with cur := core } core w
    have pc := reshapeDo_pc { s with cur := core } core w
    have strand := strand_doneWith_me cur
    exact ⟨congrArg Strand.st strand, congrArg Strand.wait strand,
      (congrArg Strand.pc strand).trans (congrArg (· + 4) pc)⟩
end

section
/-! SUPPORT. PROOF (R239, R240): the step of a proof whose pattern sum is its literal. -/

namespace Sys2Proof.Machine

section proof
variable {s : State} {f : Frag}

/-- A matrix table that starts a step runs what its order says (R220). -/
theorem onFrag_steps (h : s.StepsFrag f) (k : Frag → Result State) : s.onFrag k = k f := by
  obtain ⟨h4, hf, ht⟩ := h
  simp [State.onFrag, hf, h4, ht]

/-- A proof that passes gives its proof registers the free value that the counter names after the step (R239; log 83). -/
theorem exec_proof_passes (h : s.StepsFrag f) (seed : BitVec 8) (bf : Bool) :
    exec (.proof seed bf (proofSum seed.toNat bf f.h f.w)) s =
      .next (({ s with freeCtr := s.freeCtr + 1 } : State).setFrag s.cur s.curTable
        { f with tbl := f.tbl.stepped (f.tbl.upc + 2), proof := s.freeCtr + 1 }) := by
  rw [exec_proof, execProof, onFrag_steps h, if_pos rfl]

/-- A fragment of one tile whose table runs. -/
def provedFrag : Frag := { newFrag ⟨0, 0, 0, 0⟩ 0 0 false 0 with tbl := { Tbl.start with st := .running } }
/-- The package after reset, with that fragment as f0 of the strand in focus. -/
def provedState : State := State.reset.setFrag State.reset.cur State.reset.curTable provedFrag
theorem provedState_steps : provedState.StepsFrag provedFrag := by decide +kernel
end proof
end Sys2Proof.Machine

open Sys2Proof.Machine

/-- Refutes O38: at a proof that passes, the free contents of the proof registers are named by the counter after the step
(`exec_proof_passes`), and the statement names them by the counter before it. -/
theorem not_microOrdersStep : ¬ Obligations.MicroOrdersStep := by
  unfold Obligations.MicroOrdersStep
  rintro ⟨steps, -⟩
  obtain ⟨-, -, -, -, proof, -⟩ := steps provedState provedFrag provedState_steps
  have claimed := (proof 0 false _).1 rfl
  have next := (exec_proof_passes provedState_steps 0 false).symm.trans claimed
  injection next with next
  have same := congrArg (fun t => (mfind (t.strand provedState.cur).frag provedState.curTable).map Frag.proof) next
  simp only [strand_setFrag, mfind_mset_same, Option.map_some] at same
  exact absurd (Option.some.inj same) (Nat.succ_ne_self _)
end
